-- ==== Sys2Proof/Word.lean ====
section
/-! DEFINITION. The word types of the machine and their plainest arithmetic (02_bundles.md R33, R76). -/

namespace Sys2Proof

/-- A 64-bit register, address offset or memory word. -/
abbrev Word := BitVec 64
/-- A 32-bit word of a bundle, or one vector lane element. -/
abbrev Half := BitVec 32
/-- One byte of memory. -/
abbrev Byte := BitVec 8
/-- A register number of 5 bits. -/
abbrev Reg := BitVec 5
/-- A handle register number. -/
abbrev HReg := BitVec 3
/-- The flags SAT, NV, DZ, OF, UF, NX, from bit 5 down to bit 0. -/
abbrev FlagSet := BitVec 6

/-- `sext(v, n)` of R76. -/
def sext (n : Nat) (v : Word) : Word := (v.setWidth n).signExtend 64
/-- `zext(v, n)` of R76. -/
def zext (n : Nat) (v : Word) : Word := (v.setWidth n).setWidth 64
/-- A Boolean as the 64-bit value 1 or 0. -/
def boolWord (b : Bool) : Word := if b then 1 else 0
/-- Field `[lo + n - 1 : lo]` of a word as a number. -/
def fld (v : Word) (lo n : Nat) : Nat := (v.toNat >>> lo) % 2 ^ n
/-- One bit of a word. -/
def bitOf (v : Word) (i : Nat) : Bool := v.getLsbD i

end Sys2Proof
end

