-- ==== Sys2Proof/Syntax.lean ====
section
/-! DEFINITION. The instructions and steps of the module: one constructor of `Instr` per row of spec/opcode_table.json.
Slot instructions hold the fields of their word (02_bundles.md R49-R57); steps and events name their step. -/

namespace Sys2Proof

/-- The operations of `AMO` (R53, R167). -/
inductive AmoOp where
  | add | andOp | orOp | xorOp | min | max | minn | maxn | swap | fadd
  deriving DecidableEq, Repr

/-- Atomic ordering, the `ord` field (R53). -/
inductive MemOrd where
  | rlx | acq | rel | ar
  deriving DecidableEq, Repr

/-- Scopes (R132) with the codes of R53. -/
inductive Scope where
  | core | geode | slab | module | system
  deriving DecidableEq, Repr

/-- Fence kinds (R53). -/
inductive FenceKind where
  | acq | rel | ar | sc
  deriving DecidableEq, Repr

/-- Monitor conditions (R53, R212). -/
inductive WatchCond where
  | eq | ne | lt | ge | ltn | gen
  deriving DecidableEq, Repr

/-- Rounding codes of R55. -/
inductive Rnd where
  | rne | rtz | rdn | rup | rmm | dyn
  deriving DecidableEq, Repr

/-- The forms of `FSGNJ` (R55, R178). -/
inductive SgnForm where
  | plain | n | x
  deriving DecidableEq, Repr

/-- The forms of `FCVT`, destination first (R55, R180): `s` FP32, `d` FP64, `i` signed, `n` natural. -/
inductive CvtForm where
  | s_d | d_s | s_i | s_n | d_i | d_n | i_s | n_s | i_d | n_d
  deriving DecidableEq, Repr

/-- Vector format tags (R273). -/
inductive Tag where
  | raw | fp32 | fp16 | bf16 | fp64 | i32 | n32 | i16 | n16 | i8 | n8 | bx8 | bx6 | bx4
  deriving DecidableEq, Repr

/-- Conditions of `VCMP` (R288). -/
inductive VCond where
  | eq | ne | lt | le | gt | ge
  deriving DecidableEq, Repr

/-- Output formats of `VQNT` (R299). -/
inductive BxFmt where
  | bx8 | bx6 | bx4
  deriving DecidableEq, Repr

/-- One constructor per row of the opcode table: slot instructions first, then the steps and events, which take what they act
on from the event that the step delivers (`State.ev`). -/
inductive Instr where
  -- integer register, A-space 0x01 to 0x04 (R150-R153)
  | add (w : Bool) (rs2 rs1 rd : Reg)
  | sub (w : Bool) (rs2 rs1 rd : Reg)
  | and (w : Bool) (rs2 rs1 rd : Reg)
  | or (w : Bool) (rs2 rs1 rd : Reg)
  | xor (w : Bool) (rs2 rs1 rd : Reg)
  | andn (w : Bool) (rs2 rs1 rd : Reg)
  | sll (w : Bool) (rs2 rs1 rd : Reg)
  | srl (w : Bool) (rs2 rs1 rd : Reg)
  | sra (w : Bool) (rs2 rs1 rd : Reg)
  | slt (w : Bool) (rs2 rs1 rd : Reg)
  | sltn (w : Bool) (rs2 rs1 rd : Reg)
  | min (w : Bool) (rs2 rs1 rd : Reg)
  | max (w : Bool) (rs2 rs1 rd : Reg)
  | minn (w : Bool) (rs2 rs1 rd : Reg)
  | maxn (w : Bool) (rs2 rs1 rd : Reg)
  | mul (w : Bool) (rs2 rs1 rd : Reg)
  | mulh (rs2 rs1 rd : Reg)
  | mulhn (rs2 rs1 rd : Reg)
  | div (w : Bool) (rs2 rs1 rd : Reg)
  | divn (w : Bool) (rs2 rs1 rd : Reg)
  | rem (w : Bool) (rs2 rs1 rd : Reg)
  | remn (w : Bool) (rs2 rs1 rd : Reg)
  | clz (w : Bool) (rs1 rd : Reg)
  | ctz (w : Bool) (rs1 rd : Reg)
  | popc (w : Bool) (rs1 rd : Reg)
  | bswap (w : Bool) (rs1 rd : Reg)
  | sextOp (sz : BitVec 2) (rs1 rd : Reg)
  | zextOp (sz : BitVec 2) (rs1 rd : Reg)
  | csel (rs3 rs2 rs1 rd : Reg)
  -- immediates, C-space 0x01 to 0x03 (R154-R156)
  | addi (w : Bool) (imm : BitVec 9) (rs1 rd : Reg)
  | andi (imm : BitVec 9) (rs1 rd : Reg)
  | ori (imm : BitVec 9) (rs1 rd : Reg)
  | xori (imm : BitVec 9) (rs1 rd : Reg)
  | slli (w : Bool) (imm : BitVec 9) (rs1 rd : Reg)
  | srli (w : Bool) (imm : BitVec 9) (rs1 rd : Reg)
  | srai (w : Bool) (imm : BitVec 9) (rs1 rd : Reg)
  | slti (imm : BitVec 9) (rs1 rd : Reg)
  | li (imm : BitVec 18) (rd : Reg)
  | liH (rd : Reg)
  | lpc (imm : BitVec 19) (rd : Reg)
  -- control transfer (R157, R158)
  | jal (imm : BitVec 19) (rd : Reg)
  | jalr (imm : BitVec 9) (rs1 rd : Reg)
  | beq (imm : BitVec 14) (rs2 rs1 : Reg)
  | bne (imm : BitVec 14) (rs2 rs1 : Reg)
  | blt (imm : BitVec 14) (rs2 rs1 : Reg)
  | bge (imm : BitVec 14) (rs2 rs1 : Reg)
  | bltn (imm : BitVec 14) (rs2 rs1 : Reg)
  | bgen (imm : BitVec 14) (rs2 rs1 : Reg)
  -- loads, stores, prefetch (R160)
  | lds (imm : BitVec 9) (h : HReg) (sz : BitVec 2) (rs1 rd : Reg)
  | ldz (imm : BitVec 9) (h : HReg) (sz : BitVec 2) (rs1 rd : Reg)
  | st (imm : BitVec 9) (h : HReg) (sz : BitVec 2) (rs1 rd : Reg)
  | ldp (imm : BitVec 9) (h : HReg) (sz : BitVec 2) (rs1 rd : Reg)
  | stp (imm : BitVec 9) (h : HReg) (sz : BitVec 2) (rs1 rd : Reg)
  | pf (imm : BitVec 9) (h : HReg) (rs1 : Reg)
  -- atomics, fence, CSR, handles (R166-R187)
  | amo (d : Bool) (op : AmoOp) (ord : MemOrd) (h : HReg) (rs2 rs1 rd : Reg)
  | cas (d : Bool) (ord : MemOrd) (h : HReg) (rs2 rs1 rd : Reg)
  | amog (d : Bool) (ord : MemOrd) (h : HReg) (rs2 rs1 rd : Reg)
  | fence (scope : Scope) (kind : FenceKind)
  | csrrw (csr : BitVec 12) (rs1 rd : Reg)
  | csrrs (csr : BitVec 12) (rs1 rd : Reg)
  | csrrc (csr : BitVec 12) (rs1 rd : Reg)
  | hld (hd : HReg) (rs1 : Reg)
  | hgive (hs : HReg) (rs1 rd : Reg)
  | hqry (hs : HReg) (rs1 rd : Reg)
  -- scalar floating point (R174-R180)
  | fadd (rm : Rnd) (d : Bool) (rs2 rs1 rd : Reg)
  | fsub (rm : Rnd) (d : Bool) (rs2 rs1 rd : Reg)
  | fmul (rm : Rnd) (d : Bool) (rs2 rs1 rd : Reg)
  | fdiv (rm : Rnd) (d : Bool) (rs2 rs1 rd : Reg)
  | fsqrt (rm : Rnd) (d : Bool) (rs1 rd : Reg)
  | fmin (d : Bool) (rs2 rs1 rd : Reg)
  | fmax (d : Bool) (rs2 rs1 rd : Reg)
  | fsgnj (form : SgnForm) (d : Bool) (rs2 rs1 rd : Reg)
  | feq (d : Bool) (rs2 rs1 rd : Reg)
  | flt (d : Bool) (rs2 rs1 rd : Reg)
  | fle (d : Bool) (rs2 rs1 rd : Reg)
  | fclass (d : Bool) (rs1 rd : Reg)
  | fmvx (d : Bool) (rs1 rd : Reg)
  | fmvf (d : Bool) (rs1 rd : Reg)
  | fmadd (d : Bool) (rs3 rs2 rs1 rd : Reg)
  | fmsub (d : Bool) (rs3 rs2 rs1 rd : Reg)
  | fnmadd (d : Bool) (rs3 rs2 rs1 rd : Reg)
  | fnmsub (d : Bool) (rs3 rs2 rs1 rd : Reg)
  | fcvt (form : CvtForm) (w : Bool) (rm : Rnd) (rs1 rd : Reg)
  -- frame unit, C-space 0x20 and 0x21 (R201, R212)
  | post (rs2 rs1 : Reg)
  | endTask
  | ends (rs2 rs1 : Reg)
  | claim (rs1 : Reg)
  | unclaim (rs1 : Reg)
  | ecall
  | ebreak
  | eret
  | fkill (rs1 : Reg)
  | migr (rs2 rs1 rd : Reg)
  | watch (h : HReg) (cond : WatchCond) (d : Bool) (rs2 rs1 rd : Reg)
  -- message unit, C-space 0x24 (R254)
  | send (rs2 rs1 rd : Reg)
  | reply (rs1 rd : Reg)
  | bindH (rs2 rs1 rd : Reg)
  | unbind (rs1 rd : Reg)
  | swaph (rs2 rs1 rd : Reg)
  -- vector pool (R265-R299)
  | vclaim (b : Bool) (rs2 rs1 rd : Reg)
  | vfree
  | vsbind (rs1 rd : Reg)
  | vsfree (rd : Reg)
  | vld (h : HReg) (tag : Tag) (rs1 rd : Reg)
  | vst (h : HReg) (rs1 rd : Reg)
  | vldx (h : HReg) (tag : Tag) (rs2 rs1 rd : Reg)
  | vstx (h : HReg) (rs2 rs1 rd : Reg)
  | vadd (x sat : Bool) (rm : BitVec 3) (rs2 rs1 rd : Reg)
  | vsub (x sat : Bool) (rm : BitVec 3) (rs2 rs1 rd : Reg)
  | vmul (x sat : Bool) (rm : BitVec 3) (rs2 rs1 rd : Reg)
  | vmin (x : Bool) (rm : BitVec 3) (rs2 rs1 rd : Reg)
  | vmax (x : Bool) (rm : BitVec 3) (rs2 rs1 rd : Reg)
  | vand (x : Bool) (rm : BitVec 3) (rs2 rs1 rd : Reg)
  | vor (x : Bool) (rm : BitVec 3) (rs2 rs1 rd : Reg)
  | vxor (x : Bool) (rm : BitVec 3) (rs2 rs1 rd : Reg)
  | vshl (x : Bool) (rm : BitVec 3) (rs2 rs1 rd : Reg)
  | vshr (x : Bool) (rm : BitVec 3) (rs2 rs1 rd : Reg)
  | vcmp (x : Bool) (cond : VCond) (rs2 rs1 rd : Reg)
  | vabs (sat : Bool) (rm : BitVec 3) (rs1 rd : Reg)
  | vneg (sat : Bool) (rm : BitVec 3) (rs1 rd : Reg)
  | vmov (x : Bool) (tag : BitVec 4) (rs1 rd : Reg)
  | vfma (rs3 rs2 rs1 rd : Reg)
  | vfms (rs3 rs2 rs1 rd : Reg)
  | vsel (rs3 rs2 rs1 rd : Reg)
  | vdot (rs3 rs2 rs1 rd : Reg)
  | vrsum (s sat : Bool) (rm : BitVec 3) (rs1 rd : Reg)
  | vrmax (s : Bool) (rs1 rd : Reg)
  | vrmin (s : Bool) (rs1 rd : Reg)
  | vscan (sat : Bool) (rm : BitVec 3) (rs1 rd : Reg)
  | vbmax (s : Bool) (rs1 rd : Reg)
  | vexp2 (rm : Rnd) (rs1 rd : Reg)
  | vlog2 (rm : Rnd) (rs1 rd : Reg)
  | vrcp (rm : Rnd) (rs1 rd : Reg)
  | vrsq (rm : Rnd) (rs1 rd : Reg)
  | vcvt (tag : Tag) (rm : BitVec 3) (rs1 rd : Reg)
  | vtag (tag : Tag) (rs1 rd : Reg)
  | vqnt (fmt : BxFmt) (fs : BitVec 3) (rs2 rs1 rd : Reg)
  | vext (rs2 rs1 rd : Reg)
  | vperm (rs2 rs1 rd : Reg)
  -- matrix array, C-space 0x30 (R57, R304)
  | mcfg (rs1 : Reg)
  | mbld (rs2 rs1 rd : Reg)
  | mgang (rs3 : Reg) (q : Bool) (rs2 rs1 rd : Reg)
  | mdrain (rs3 : Reg) (q : Bool) (rs2 rs1 rd : Reg)
  | mstat (rs1 rd : Reg)
  | mcancel (rs1 rd : Reg)
  | mzero (q : Bool) (rs1 rd : Reg)
  -- census, C-space 0x2C (R335)
  | solicit (rs2 rs1 rd : Reg)
  | respond (rs1 : Reg)
  | cbar (rs1 rd : Reg)
  | tilereg (rs1 rd : Reg)
  | tiledel (rs1 rd : Reg)
  | tilemove (rs2 rs1 rd : Reg)
  | censq (rs1 rd : Reg)
  -- copy and bedrock, C-space 0x34 (R370)
  | cpy (n : Bool) (rs1 rd : Reg)
  | cpyst (rs1 rd : Reg)
  | cpoll (rs1 rd : Reg)
  | bseal (rs2 rs1 rd : Reg)
  | bopen (rs2 rs1 rd : Reg)
  | llcfg (rs1 rd : Reg)
  -- cache maintenance, C-space 0x38 (R413)
  | cflush (r : Bool) (h : HReg) (rs2 rs1 rd : Reg)
  | cclean (r : Bool) (h : HReg) (rs2 rs1 rd : Reg)
  | cinv (r : Bool) (h : HReg) (rs2 rs1 rd : Reg)
  -- graph, spawn, guest (R450, R461, R482)
  | grrun (rs1 rd : Reg)
  | grsig (rs1 rd : Reg)
  | grcan (rs1 rd : Reg)
  | grqry (rs1 rd : Reg)
  | spawn (y : Bool) (p : BitVec 2) (rs2 rs1 rd : Reg)
  | joini (rs1 rd : Reg)
  | join (rs2 rs1 rd : Reg)
  | termq (rs1 rd : Reg)
  | xpost (rs1 : Reg)
  | xqry (rs1 rd : Reg)
  -- steps and events (95_what_each_step_holds.md)
  | fixedResultWriteback | variableResultWriteback | accessLeavesQueue | codeFill | load | store | atomic | arm
  | armack | pull | record | data | release | releaseArrival | framePush | fifoRingMove | framePop | refillComplete
  | trapEntry | frameLost | migrationCommit | forwardPacket | starvationReport | active | delivery | handlerCommit
  | escapeMove | routerPacketDiscard | fjarlinkPacket | streamFill | streamWrite | slotLoadDone | slotWrite
  | gangFormation | passStart | passStep | drainJobStart | drainJobDone | solicitRequest | censusLive
  | epochMarkApply | solicitScan | coreAnswer | answerFold | remoteCensus | censusResultWrite | censusComplete
  | tileReserve | tileCommit | tileCommitArrival | barrierContribution | copyRequest | copyAcceptance | copyDeferral
  | copyReady | transferBegin | transferComplete | transferFault | bedrockRequest | bedrockAnswer | groupSealed
  | groupOpened | refreshWindow | carveoutUpdate | carveoutSample | rds | rdo | upg | wb | rangeClaim | claimwrite
  | claimend | snoop | snpresp | coherentData | homeAck | cmo | transactionTaken | homeRetry | replayTimeout
  | graphStart | graphGo | nodeFire | token | nodeDone | firingCompletion | cancelWalkStep | instanceEnd
  | gangWatchdog | eventResend | censusResubmit | dequePush | joinMessage | stealAttempt | stealRequest | stealGrant
  | terminationWave | waveAnswer | terminationReport | guestSubmission | jobDelivery | preemptionAnswer
  | guestCompletion | translationRequest | invalidationAnswer | poisonReport | guestIdentity | trainingTimeout
  | dutyTimeout | powerReport | tailDoorbell | cheadDoorbell | queueEnable | queueDestroy | doorbellEvent
  | queueControlEvent | queueRead | completionWrite | registerStateUpdate | launchRoot | launchGraph | queueCopy
  | signal | waitQueue | bedrockOpen | bedrockSeal | swapAsid | quantumExpiry | packetPrefetch | bar2Read | bar2Write
  | moduleReset | deviceIdAssign | throttleEvaluation | thermalTrip | lmScrub | getVersion | getCapabilities
  | negotiateAlgorithms | getDigests | getCertificate | challenge | getMeasurements | sawRead | sawDone
  | registerWrite | clearOnRead | hcinv | tlbinv | icinv | corereset | gfclear | recbusyClear | monitorFree
  | lquotaWrite | cmaskWrite | slotstEmpty | settagFree | svclear | censend | barfree | cancel | rrctlWrite | rrpush
  | rrpop | slotend | joinctrFree | tslotFree | gctlFence | gctlRetrain | jobcancel | pageWalkDone | handleEntryRead
  | snoopApply | lineDrop | hostAccessRequest | nonPostedReadCompletion
  deriving DecidableEq, Repr

end Sys2Proof
end

