-- ==== Sys2Proof/Machine/Bits.lean ====
section
/-! DEFINITION. Bit-field, sign-extension and byte-order helpers (00_scope.md R2, R3; 02_bundles.md R76) and the code points
of the enumerations of Sys2Proof/Syntax.lean. -/

namespace Sys2Proof.Machine

/-- The little-endian bytes of a number (R2). -/
def toBytes : Nat → Nat → List Byte
  | 0, _ => []
  | n + 1, v => BitVec.ofNat 8 v :: toBytes n (v / 256)

/-- The number that little-endian bytes hold (R2). -/
def ofBytes : List Byte → Nat
  | [] => 0
  | b :: l => b.toNat + 256 * ofBytes l

/-- Whether a field `[lo + n - 1 : lo]` is zero. -/
def zeroField (v : Word) (lo n : Nat) : Bool := fld v lo n == 0

/-- A word with the field `[lo + n - 1 : lo]` replaced. -/
def setFld (v : Word) (lo n : Nat) (x : Nat) : Word :=
  let mask : Word := BitVec.ofNat 64 ((2 ^ n - 1) <<< lo)
  (v &&& ~~~mask) ||| BitVec.ofNat 64 ((x % 2 ^ n) <<< lo)

/-- Merges a write under a mask of writable bits: RO and reserved bits keep their value (R4, R5). -/
def maskWrite (mask old new : Word) : Word := (old &&& ~~~mask) ||| (new &&& mask)

/-- The ceiling of a division. -/
def ceilDiv (a b : Nat) : Nat := (a + b - 1) / b

/-- The width in bits of the registers a size code names (R49). -/
def sizeBytes (sz : BitVec 2) : Nat := 2 ^ sz.toNat

/-- An optional number's update of a list position. -/
def listSet {α : Type} : List α → Nat → α → List α
  | [], _, _ => []
  | _ :: l, 0, v => v :: l
  | a :: l, k + 1, v => a :: listSet l k v

/-- A vector with one position replaced; positions outside leave it unchanged. -/
def vset {α : Type} {n : Nat} (v : Vector α n) (i : Nat) (a : α) : Vector α n :=
  if h : i < n then v.set i a h else v

/-- A vector's element, or the default outside. -/
def vget {α : Type} {n : Nat} (d : α) (v : Vector α n) (i : Nat) : α :=
  if h : i < n then v[i] else d

/-- Stable insertion by a key. -/
def insertBy {α : Type} (key : α → Nat) (a : α) : List α → List α
  | [] => [a]
  | b :: l => if key a < key b then a :: b :: l else b :: insertBy key a l

/-- A stable sort by a key. -/
def sortBy {α : Type} (key : α → Nat) (l : List α) : List α := l.foldl (fun acc a => insertBy key a acc) []

/-- The code of a format tag (R273). -/
def tagCode : Tag → Nat
  | .raw => 0 | .fp32 => 1 | .fp16 => 2 | .bf16 => 3 | .fp64 => 4 | .i32 => 5 | .n32 => 6 | .i16 => 7 | .n16 => 8
  | .i8 => 9 | .n8 => 10 | .bx8 => 11 | .bx6 => 12 | .bx4 => 13

/-- The tag of a code; 14 and 15 are reserved (R273). -/
def tagOf : Nat → Option Tag
  | 0 => some .raw | 1 => some .fp32 | 2 => some .fp16 | 3 => some .bf16 | 4 => some .fp64 | 5 => some .i32
  | 6 => some .n32 | 7 => some .i16 | 8 => some .n16 | 9 => some .i8 | 10 => some .n8 | 11 => some .bx8
  | 12 => some .bx6 | 13 => some .bx4 | _ => none

/-- The code of a rounding code field (R55). -/
def rndCode : Rnd → BitVec 3
  | .rne => 0 | .rtz => 1 | .rdn => 2 | .rup => 3 | .rmm => 4 | .dyn => 7

/-- The rounding code of a field; 5 and 6 are reserved (R55). -/
def rndOf (c : BitVec 3) : Option Rnd :=
  match c.toNat with
  | 0 => some .rne | 1 => some .rtz | 2 => some .rdn | 3 => some .rup | 4 => some .rmm | 7 => some .dyn
  | _ => none

/-- The code of a scope (R53). -/
def scopeCode : Scope → Nat
  | .core => 0 | .geode => 1 | .slab => 2 | .module => 3 | .system => 4

/-- The code of a monitor condition (R53). -/
def condCode : WatchCond → Nat
  | .eq => 0 | .ne => 1 | .lt => 2 | .ge => 3 | .ltn => 4 | .gen => 5

/-- The code of a window state (R223) is its place; this is the code of a bound, `true` as 1. -/
def bitNat (b : Bool) : Nat := if b then 1 else 0

end Sys2Proof.Machine
end

