-- ==== Sys2Proof/WellFormed.lean ====
section
/-! DEFINITION. Well-formed instructions: the limits that the formats of 02_bundles.md R49 to R57 and the entries of the
instructions put on the fields of a slot word. A word that breaks one is not an instruction (R40). -/

namespace Sys2Proof

/-- An `f` register number: 0 to 15 (R50). -/
def fReg (r : Reg) : Bool := r.toNat < 16
/-- The rounding field of `VCVT`: codes 5 and 6 are reserved (R55, R295); where a vector instruction rounds only for FP tags, they
are refused at issue (R287). -/
def rmOk (r : BitVec 3) : Bool := r != 5 && r != 6
/-- A pair register: even, of size `.w` or `.d` (R53). -/
def pairOk (sz : BitVec 2) (rd : Reg) : Bool := sz.getLsbD 1 && !rd.getLsbD 0
/-- A shift amount: below 64, or below 32 for `.w` (R53). -/
def shiftOk (w : Bool) (imm : BitVec 9) : Bool := if w then imm.toNat < 32 else imm.toNat < 64
/-- Whether the destination of a conversion is an `f` register (R180). -/
def CvtForm.toF : CvtForm → Bool
  | .s_d | .d_s | .s_i | .s_n | .d_i | .d_n => true
  | _ => false
/-- Whether the source of a conversion is an `f` register (R180). -/
def CvtForm.fromF : CvtForm → Bool
  | .s_i | .s_n | .d_i | .d_n => false
  | _ => true

/-- The limits on an instruction's fields. -/
def Instr.wellFormed : Instr → Bool
  | .slli w imm _ _ => shiftOk w imm
  | .srli w imm _ _ => shiftOk w imm
  | .srai w imm _ _ => shiftOk w imm
  | .sextOp sz _ _ => sz != 3
  | .zextOp sz _ _ => sz != 3
  | .ldp _ _ sz _ rd => pairOk sz rd
  | .stp _ _ sz _ rd => pairOk sz rd
  | .hld hd _ => 2 ≤ hd.toNat
  | .fadd _ _ b a d => fReg b && fReg a && fReg d
  | .fsub _ _ b a d => fReg b && fReg a && fReg d
  | .fmul _ _ b a d => fReg b && fReg a && fReg d
  | .fdiv _ _ b a d => fReg b && fReg a && fReg d
  | .fsqrt _ _ a d => fReg a && fReg d
  | .fmin _ b a d => fReg b && fReg a && fReg d
  | .fmax _ b a d => fReg b && fReg a && fReg d
  | .fsgnj _ _ b a d => fReg b && fReg a && fReg d
  | .feq _ b a _ => fReg b && fReg a
  | .flt _ b a _ => fReg b && fReg a
  | .fle _ b a _ => fReg b && fReg a
  | .fclass _ a _ => fReg a
  | .fmvx _ a _ => fReg a
  | .fmvf _ _ d => fReg d
  | .fmadd _ c b a d => fReg c && fReg b && fReg a && fReg d
  | .fmsub _ c b a d => fReg c && fReg b && fReg a && fReg d
  | .fnmadd _ c b a d => fReg c && fReg b && fReg a && fReg d
  | .fnmsub _ c b a d => fReg c && fReg b && fReg a && fReg d
  | .fcvt t w _ a d => (!t.fromF || fReg a) && (!t.toF || fReg d) && (!w || !(t == .s_d || t == .d_s))
  | .vmov x t _ _ => if x then t.toNat ≤ 10 else t == 0
  | .vbmax s _ rd => !s || fReg rd
  | .vcvt _ r _ _ => rmOk r
  | .cflush r _ b _ _ => r || b == 0
  | .cclean r _ b _ _ => r || b == 0
  | .cinv r _ b _ _ => r || b == 0
  | .mgang c q _ _ _ => if q then fReg c else c == 0
  | .mdrain c _ _ _ _ => fReg c
  | _ => true

end Sys2Proof
end

