-- ==== Sys2Proof/Decode.lean ====
section
/-! DEFINITION. Decoding and encoding of slot words and bundles, from the formats and opcode maps of 02_bundles.md R33 to
R58. Decoding is total: every word is an instruction or is rejected by name (R40). -/

namespace Sys2Proof
open Machine

/-- Why a word is not an instruction (R40). -/
inductive DecodeErr where
  /-- The major opcode is unassigned. -/
  | unassigned
  /-- A sub-code, rounding code or selector is reserved. -/
  | reserved
  /-- A field that must be zero is not. -/
  | mustBeZero
  /-- A field breaks a limit of its instruction: a register number, a shift amount, a size. -/
  | badField
  deriving DecidableEq, Repr

/-! ## Fields (R33, R49, R50) -/

/-- Bits [31:23]. -/
def f9 (w : Half) : BitVec 9 := w.extractLsb' 23 9
/-- Bits [22:18], rs2. -/
def fRs2 (w : Half) : Reg := w.extractLsb' 18 5
/-- Bits [17:13], rs1. -/
def fRs1 (w : Half) : Reg := w.extractLsb' 13 5
/-- Bits [12:8], rd. -/
def fRd (w : Half) : Reg := w.extractLsb' 8 5
/-- Bits [7:2], the major opcode. -/
def fMaj (w : Half) : BitVec 6 := w.extractLsb' 2 6
/-- Bits [31:28], funct4. -/
def fF4 (w : Half) : BitVec 4 := (f9 w).extractLsb' 5 4
/-- Bits [27:23], rs3 or fx. -/
def fFx (w : Half) : Reg := (f9 w).extractLsb' 0 5
/-- Bits [31:27], the sub field of CX, rs3 of MX. -/
def fSub (w : Half) : Reg := (f9 w).extractLsb' 4 5
/-- Bits [26:23], the mod field of CX. -/
def fMod (w : Half) : BitVec 4 := (f9 w).extractLsb' 0 4
/-- Bit 23. -/
def mod0 (w : Half) : Bool := (f9 w).getLsbD 0
/-- fx[0]. -/
def fx0 (w : Half) : Bool := (fFx w).getLsbD 0
/-- fx[3]. -/
def fx3 (w : Half) : Bool := (fFx w).getLsbD 3
/-- fx[4]. -/
def fx4 (w : Half) : Bool := (fFx w).getLsbD 4
/-- fx[2:0]. -/
def fxr (w : Half) : BitVec 3 := (fFx w).extractLsb' 0 3
/-- fx[4:1]. -/
def hi4 (w : Half) : BitVec 4 := (fFx w).extractLsb' 1 4
/-- The handle field of CM. -/
def cmH (w : Half) : HReg := (fRs2 w).extractLsb' 2 3
/-- The size field of CM. -/
def cmSz (w : Half) : BitVec 2 := (fRs2 w).extractLsb' 0 2

/-- A word from bits [31:23], [22:18], [17:13], [12:8] and the major opcode, with bits [1:0] zero. -/
def five (a : BitVec 9) (b c d : Reg) (m : BitVec 6) : Half := a ++ b ++ c ++ d ++ m ++ 0#2

/-- A Boolean as one bit. -/
def bw (b : Bool) : BitVec 1 := BitVec.ofBool b

/-- A result when a field that must be zero is zero. -/
def mbz (ok : Bool) (r : Except DecodeErr Instr) : Except DecodeErr Instr := if ok then r else .error .mustBeZero
/-- An instruction whose selector field has an assigned code. -/
def needs {α : Type} (o : Option α) (k : α → Instr) : Except DecodeErr Instr :=
  match o with
  | none => .error .reserved
  | some a => .ok (k a)
/-- As `needs`, where more follows. -/
def both {α : Type} (o : Option α) (k : α → Except DecodeErr Instr) : Except DecodeErr Instr :=
  match o with
  | none => .error .reserved
  | some a => k a
/-- The rounding code at fx[3:1] or fx[2:0]. -/
def rnd (fx : Reg) (lo : Nat) : Option Rnd := rndOf (fx.extractLsb' lo 3)

/-! ## Codes of the selector fields (R53, R55, R273, R288, R299) -/

/-- Code of a tag. -/
def tagBits (t : Tag) : BitVec 4 := BitVec.ofNat 4 (tagCode t)
/-- Code of an `FSGNJ` form. -/
def sgnCode : SgnForm → BitVec 3
  | .plain => 0 | .n => 1 | .x => 2
/-- `FSGNJ` form of a code. -/
def sgnOf (c : BitVec 3) : Option SgnForm :=
  match c.toNat with
  | 0 => some .plain | 1 => some .n | 2 => some .x | _ => none
/-- Code of an `FCVT` form. -/
def cvtCode : CvtForm → BitVec 4
  | .s_d => 0 | .d_s => 1 | .s_i => 2 | .s_n => 3 | .d_i => 4 | .d_n => 5 | .i_s => 6 | .n_s => 7 | .i_d => 8 | .n_d => 9
/-- `FCVT` form of a code. -/
def cvtOf (c : BitVec 4) : Option CvtForm :=
  match c.toNat with
  | 0 => some .s_d | 1 => some .d_s | 2 => some .s_i | 3 => some .s_n | 4 => some .d_i | 5 => some .d_n
  | 6 => some .i_s | 7 => some .n_s | 8 => some .i_d | 9 => some .n_d | _ => none
/-- Code of a `VCMP` condition. -/
def vcondCode : VCond → BitVec 3
  | .eq => 0 | .ne => 1 | .lt => 2 | .le => 3 | .gt => 4 | .ge => 5
/-- `VCMP` condition of a code. -/
def vcondOf (c : BitVec 3) : Option VCond :=
  match c.toNat with
  | 0 => some .eq | 1 => some .ne | 2 => some .lt | 3 => some .le | 4 => some .gt | 5 => some .ge | _ => none
/-- Code of a `VQNT` format. -/
def bxfCode : BxFmt → BitVec 2
  | .bx8 => 1 | .bx6 => 2 | .bx4 => 3
/-- `VQNT` format of a code. -/
def bxfOf (c : BitVec 2) : Option BxFmt :=
  match c.toNat with
  | 1 => some .bx8 | 2 => some .bx6 | 3 => some .bx4 | _ => none
/-- Code of an `AMO`. -/
def amoCode : AmoOp → BitVec 4
  | .add => 0 | .andOp => 1 | .orOp => 2 | .xorOp => 3 | .min => 4 | .max => 5 | .minn => 6 | .maxn => 7 | .swap => 8
  | .fadd => 9
/-- `AMO` of a code. -/
def amoOf (c : BitVec 4) : Option AmoOp :=
  match c.toNat with
  | 0 => some .add | 1 => some .andOp | 2 => some .orOp | 3 => some .xorOp | 4 => some .min | 5 => some .max
  | 6 => some .minn | 7 => some .maxn | 8 => some .swap | 9 => some .fadd | _ => none
/-- Code of an ordering. -/
def ordCode : MemOrd → BitVec 2
  | .rlx => 0 | .acq => 1 | .rel => 2 | .ar => 3
/-- Ordering of a code. -/
def ordOf (c : BitVec 2) : MemOrd :=
  match c.toNat with
  | 0 => .rlx | 1 => .acq | 2 => .rel | _ => .ar
/-- Code of a scope. -/
def scopeBits (s : Scope) : BitVec 3 := BitVec.ofNat 3 (scopeCode s)
/-- Scope of a code. -/
def scopeOf (c : BitVec 3) : Option Scope :=
  match c.toNat with
  | 0 => some .core | 1 => some .geode | 2 => some .slab | 3 => some .module | 4 => some .system | _ => none
/-- Code of a fence kind. -/
def fenceCode : FenceKind → BitVec 3
  | .acq => 0 | .rel => 1 | .ar => 2 | .sc => 3
/-- Fence kind of a code. -/
def fenceOf (c : BitVec 3) : Option FenceKind :=
  match c.toNat with
  | 0 => some .acq | 1 => some .rel | 2 => some .ar | 3 => some .sc | _ => none
/-- Code of a `WATCH` condition. -/
def vwCode (c : WatchCond) : BitVec 3 := BitVec.ofNat 3 (condCode c)
/-- `WATCH` condition of a code. -/
def watchOf (c : BitVec 3) : Option WatchCond :=
  match c.toNat with
  | 0 => some .eq | 1 => some .ne | 2 => some .lt | 3 => some .ge | 4 => some .ltn | 5 => some .gen | _ => none

/-! ## Decoding -/

/-- Integer ALU, A-space major 0x01 (R55). -/
def decInt (w : Half) : Except DecodeErr Instr :=
  match (fF4 w).toNat with
  | 0 => mbz (hi4 w == 0) (.ok (.add (fx0 w) (fRs2 w) (fRs1 w) (fRd w)))
  | 1 => mbz (hi4 w == 0) (.ok (.sub (fx0 w) (fRs2 w) (fRs1 w) (fRd w)))
  | 2 => mbz (hi4 w == 0) (.ok (.and (fx0 w) (fRs2 w) (fRs1 w) (fRd w)))
  | 3 => mbz (hi4 w == 0) (.ok (.or (fx0 w) (fRs2 w) (fRs1 w) (fRd w)))
  | 4 => mbz (hi4 w == 0) (.ok (.xor (fx0 w) (fRs2 w) (fRs1 w) (fRd w)))
  | 5 => mbz (hi4 w == 0) (.ok (.andn (fx0 w) (fRs2 w) (fRs1 w) (fRd w)))
  | 6 => mbz (hi4 w == 0) (.ok (.sll (fx0 w) (fRs2 w) (fRs1 w) (fRd w)))
  | 7 => mbz (hi4 w == 0) (.ok (.srl (fx0 w) (fRs2 w) (fRs1 w) (fRd w)))
  | 8 => mbz (hi4 w == 0) (.ok (.sra (fx0 w) (fRs2 w) (fRs1 w) (fRd w)))
  | 9 => mbz (hi4 w == 0) (.ok (.slt (fx0 w) (fRs2 w) (fRs1 w) (fRd w)))
  | 10 => mbz (hi4 w == 0) (.ok (.sltn (fx0 w) (fRs2 w) (fRs1 w) (fRd w)))
  | 11 => mbz (hi4 w == 0) (.ok (.min (fx0 w) (fRs2 w) (fRs1 w) (fRd w)))
  | 12 => mbz (hi4 w == 0) (.ok (.max (fx0 w) (fRs2 w) (fRs1 w) (fRd w)))
  | 13 => mbz (hi4 w == 0) (.ok (.minn (fx0 w) (fRs2 w) (fRs1 w) (fRd w)))
  | 14 => mbz (hi4 w == 0) (.ok (.maxn (fx0 w) (fRs2 w) (fRs1 w) (fRd w)))
  | _ => .error .reserved

/-- Integer multiply and divide, A-space major 0x02 (R55). -/
def decMulDiv (w : Half) : Except DecodeErr Instr :=
  match (fF4 w).toNat with
  | 0 => mbz (hi4 w == 0) (.ok (.mul (fx0 w) (fRs2 w) (fRs1 w) (fRd w)))
  | 1 => mbz (fFx w == 0) (.ok (.mulh (fRs2 w) (fRs1 w) (fRd w)))
  | 2 => mbz (fFx w == 0) (.ok (.mulhn (fRs2 w) (fRs1 w) (fRd w)))
  | 3 => mbz (hi4 w == 0) (.ok (.div (fx0 w) (fRs2 w) (fRs1 w) (fRd w)))
  | 4 => mbz (hi4 w == 0) (.ok (.divn (fx0 w) (fRs2 w) (fRs1 w) (fRd w)))
  | 5 => mbz (hi4 w == 0) (.ok (.rem (fx0 w) (fRs2 w) (fRs1 w) (fRd w)))
  | 6 => mbz (hi4 w == 0) (.ok (.remn (fx0 w) (fRs2 w) (fRs1 w) (fRd w)))
  | _ => .error .reserved

/-- Bit operations, A-space major 0x03 (R55). -/
def decBit (w : Half) : Except DecodeErr Instr :=
  match (fF4 w).toNat with
  | 0 => mbz (hi4 w == 0 && fRs2 w == 0) (.ok (.clz (fx0 w) (fRs1 w) (fRd w)))
  | 1 => mbz (hi4 w == 0 && fRs2 w == 0) (.ok (.ctz (fx0 w) (fRs1 w) (fRd w)))
  | 2 => mbz (hi4 w == 0 && fRs2 w == 0) (.ok (.popc (fx0 w) (fRs1 w) (fRd w)))
  | 3 => mbz (hi4 w == 0 && fRs2 w == 0) (.ok (.bswap (fx0 w) (fRs1 w) (fRd w)))
  | 4 => mbz ((fFx w).extractLsb' 3 2 == 0 && !fx0 w && fRs2 w == 0) (.ok (.sextOp ((fFx w).extractLsb' 1 2) (fRs1 w) (fRd w)))
  | 5 => mbz ((fFx w).extractLsb' 3 2 == 0 && !fx0 w && fRs2 w == 0) (.ok (.zextOp ((fFx w).extractLsb' 1 2) (fRs1 w) (fRd w)))
  | _ => .error .reserved

/-- `CSEL`, A-space major 0x04. -/
def decCsel (w : Half) : Except DecodeErr Instr :=
  match (fF4 w).toNat with
  | 0 => .ok (.csel (fFx w) (fRs2 w) (fRs1 w) (fRd w))
  | _ => .error .reserved

/-- Scalar FP arithmetic, A-space major 0x08 (R55). -/
def decFp (w : Half) : Except DecodeErr Instr :=
  match (fF4 w).toNat with
  | 0 => mbz ((fFx w).extractLsb' 4 1 == 0) (needs (rnd (fFx w) 1) (fun r => .fadd r (fx0 w) (fRs2 w) (fRs1 w) (fRd w)))
  | 1 => mbz ((fFx w).extractLsb' 4 1 == 0) (needs (rnd (fFx w) 1) (fun r => .fsub r (fx0 w) (fRs2 w) (fRs1 w) (fRd w)))
  | 2 => mbz ((fFx w).extractLsb' 4 1 == 0) (needs (rnd (fFx w) 1) (fun r => .fmul r (fx0 w) (fRs2 w) (fRs1 w) (fRd w)))
  | 3 => mbz ((fFx w).extractLsb' 4 1 == 0) (needs (rnd (fFx w) 1) (fun r => .fdiv r (fx0 w) (fRs2 w) (fRs1 w) (fRd w)))
  | 4 => mbz ((fFx w).extractLsb' 4 1 == 0 && fRs2 w == 0) (needs (rnd (fFx w) 1) (fun r => .fsqrt r (fx0 w) (fRs1 w) (fRd w)))
  | 5 => mbz (hi4 w == 0) (.ok (.fmin (fx0 w) (fRs2 w) (fRs1 w) (fRd w)))
  | 6 => mbz (hi4 w == 0) (.ok (.fmax (fx0 w) (fRs2 w) (fRs1 w) (fRd w)))
  | 8 => mbz (hi4 w == 0) (.ok (.feq (fx0 w) (fRs2 w) (fRs1 w) (fRd w)))
  | 9 => mbz (hi4 w == 0) (.ok (.flt (fx0 w) (fRs2 w) (fRs1 w) (fRd w)))
  | 10 => mbz (hi4 w == 0) (.ok (.fle (fx0 w) (fRs2 w) (fRs1 w) (fRd w)))
  | 7 => mbz ((fFx w).extractLsb' 4 1 == 0) (needs (sgnOf ((fFx w).extractLsb' 1 3)) (fun r => .fsgnj r (fx0 w) (fRs2 w) (fRs1 w) (fRd w)))
  | 11 => mbz (hi4 w == 0 && fRs2 w == 0) (.ok (.fclass (fx0 w) (fRs1 w) (fRd w)))
  | 12 => mbz (hi4 w == 0 && fRs2 w == 0) (.ok (.fmvx (fx0 w) (fRs1 w) (fRd w)))
  | 13 => mbz (hi4 w == 0 && fRs2 w == 0) (.ok (.fmvf (fx0 w) (fRs1 w) (fRd w)))
  | _ => .error .reserved

/-- Vector elementwise, A-space major 0x10 (R56, R288). X of `VABS` and `VNEG`, which have no second source, is taken as 0 (DESIGN CHOICE;
log entry 78). -/
def decVElem (w : Half) : Except DecodeErr Instr :=
  match (fF4 w).toNat with
  | 0 => .ok (.vadd (fx4 w) (fx3 w) (fxr w) (fRs2 w) (fRs1 w) (fRd w))
  | 1 => .ok (.vsub (fx4 w) (fx3 w) (fxr w) (fRs2 w) (fRs1 w) (fRd w))
  | 2 => .ok (.vmul (fx4 w) (fx3 w) (fxr w) (fRs2 w) (fRs1 w) (fRd w))
  | 3 => mbz (!fx3 w) (.ok (.vmin (fx4 w) (fxr w) (fRs2 w) (fRs1 w) (fRd w)))
  | 4 => mbz (!fx3 w) (.ok (.vmax (fx4 w) (fxr w) (fRs2 w) (fRs1 w) (fRd w)))
  | 5 => mbz (!fx3 w) (.ok (.vand (fx4 w) (fxr w) (fRs2 w) (fRs1 w) (fRd w)))
  | 6 => mbz (!fx3 w) (.ok (.vor (fx4 w) (fxr w) (fRs2 w) (fRs1 w) (fRd w)))
  | 7 => mbz (!fx3 w) (.ok (.vxor (fx4 w) (fxr w) (fRs2 w) (fRs1 w) (fRd w)))
  | 8 => mbz (!fx3 w) (.ok (.vshl (fx4 w) (fxr w) (fRs2 w) (fRs1 w) (fRd w)))
  | 9 => mbz (!fx3 w) (.ok (.vshr (fx4 w) (fxr w) (fRs2 w) (fRs1 w) (fRd w)))
  | 10 => mbz (!fx3 w) (needs (vcondOf (fxr w)) (fun r => .vcmp (fx4 w) r (fRs2 w) (fRs1 w) (fRd w)))
  | 11 => mbz (fRs2 w == 0) (.ok (.vabs (fx3 w) (fxr w) (fRs1 w) (fRd w)))
  | 12 => mbz (fRs2 w == 0) (.ok (.vneg (fx3 w) (fxr w) (fRs1 w) (fRd w)))
  | 13 => mbz (fRs2 w == 0) (.ok (.vmov (fx4 w) ((fFx w).extractLsb' 0 4) (fRs1 w) (fRd w)))
  | _ => .error .reserved

/-- Vector three-source, A-space major 0x11 (R56). -/
def decVThree (w : Half) : Except DecodeErr Instr :=
  match (fF4 w).toNat with
  | 0 => .ok (.vfma (fFx w) (fRs2 w) (fRs1 w) (fRd w))
  | 1 => .ok (.vfms (fFx w) (fRs2 w) (fRs1 w) (fRd w))
  | 2 => .ok (.vsel (fFx w) (fRs2 w) (fRs1 w) (fRd w))
  | 3 => .ok (.vdot (fFx w) (fRs2 w) (fRs1 w) (fRd w))
  | _ => .error .reserved

/-- Vector reductions, A-space major 0x12 (R56, R292). -/
def decVRed (w : Half) : Except DecodeErr Instr :=
  match (fF4 w).toNat with
  | 0 => mbz (fRs2 w == 0) (.ok (.vrsum (fx4 w) (fx3 w) (fxr w) (fRs1 w) (fRd w)))
  | 1 => mbz ((fFx w).extractLsb' 0 4 == 0 && fRs2 w == 0) (.ok (.vrmax (fx4 w) (fRs1 w) (fRd w)))
  | 2 => mbz ((fFx w).extractLsb' 0 4 == 0 && fRs2 w == 0) (.ok (.vrmin (fx4 w) (fRs1 w) (fRd w)))
  | 3 => mbz (!fx4 w && fRs2 w == 0) (.ok (.vscan (fx3 w) (fxr w) (fRs1 w) (fRd w)))
  | 4 => mbz ((fFx w).extractLsb' 0 4 == 0 && fRs2 w == 0) (.ok (.vbmax (fx4 w) (fRs1 w) (fRd w)))
  | _ => .error .reserved

/-- Vector special functions, A-space major 0x13 (R56, R294). -/
def decVSpec (w : Half) : Except DecodeErr Instr :=
  match (fF4 w).toNat with
  | 0 => mbz ((fFx w).extractLsb' 3 2 == 0 && fRs2 w == 0) (needs (rnd (fFx w) 0) (fun r => .vexp2 r (fRs1 w) (fRd w)))
  | 1 => mbz ((fFx w).extractLsb' 3 2 == 0 && fRs2 w == 0) (needs (rnd (fFx w) 0) (fun r => .vlog2 r (fRs1 w) (fRd w)))
  | 2 => mbz ((fFx w).extractLsb' 3 2 == 0 && fRs2 w == 0) (needs (rnd (fFx w) 0) (fun r => .vrcp r (fRs1 w) (fRd w)))
  | 3 => mbz ((fFx w).extractLsb' 3 2 == 0 && fRs2 w == 0) (needs (rnd (fFx w) 0) (fun r => .vrsq r (fRs1 w) (fRd w)))
  | _ => .error .reserved

/-- Vector format operations, A-space major 0x14 (R56). -/
def decVFmt (w : Half) : Except DecodeErr Instr :=
  match (fF4 w).toNat with
  | 0 => mbz (!fx4 w && (fRs2 w).extractLsb' 3 2 == 0) (needs (tagOf ((fFx w).extractLsb' 0 4).toNat) (fun r => .vcvt r ((fRs2 w).extractLsb' 0 3) (fRs1 w) (fRd w)))
  | 1 => mbz (!fx4 w && fRs2 w == 0) (needs (tagOf ((fFx w).extractLsb' 0 4).toNat) (fun r => .vtag r (fRs1 w) (fRd w)))
  | 2 => needs (bxfOf ((fFx w).extractLsb' 3 2)) (fun r => .vqnt r (fxr w) (fRs2 w) (fRs1 w) (fRd w))
  | 3 => mbz (fFx w == 0) (.ok (.vext (fRs2 w) (fRs1 w) (fRd w)))
  | 4 => mbz (fFx w == 0) (.ok (.vperm (fRs2 w) (fRs1 w) (fRd w)))
  | _ => .error .reserved

/-- Fused multiply-add, A-space major 0x09 (R55). -/
def decFma (w : Half) : Except DecodeErr Instr :=
  let p := (fF4 w).getLsbD 2
  mbz (!(fF4 w).getLsbD 3) (match ((fF4 w).extractLsb' 0 2).toNat with
  | 0 => .ok (.fmadd p (fFx w) (fRs2 w) (fRs1 w) (fRd w))
  | 1 => .ok (.fmsub p (fFx w) (fRs2 w) (fRs1 w) (fRd w))
  | 2 => .ok (.fnmadd p (fFx w) (fRs2 w) (fRs1 w) (fRd w))
  | _ => .ok (.fnmsub p (fFx w) (fRs2 w) (fRs1 w) (fRd w)))

/-- `FCVT`, A-space major 0x0A (R55). -/
def decFcvt (w : Half) : Except DecodeErr Instr :=
  mbz (!fx4 w && fRs2 w == 0) (both (cvtOf (fF4 w)) (fun t => needs (rndOf (fxr w))
    (fun r => .fcvt t (fx3 w) r (fRs1 w) (fRd w))))

/-- An A-space word (R50, R54): major opcode, selector, fields that must be zero, bits [1:0] zero. -/
def rawA (w : Half) : Except DecodeErr Instr :=
  mbz (w.extractLsb' 0 2 == 0) (match (fMaj w).toNat with
  | 0x01 => decInt w
  | 0x02 => decMulDiv w
  | 0x03 => decBit w
  | 0x04 => decCsel w
  | 0x08 => decFp w
  | 0x09 => decFma w
  | 0x0A => decFcvt w
  | 0x10 => decVElem w
  | 0x11 => decVThree w
  | 0x12 => decVRed w
  | 0x13 => decVSpec w
  | 0x14 => decVFmt w
  | _ => .error .unassigned)

/-- Immediates, C-space major 0x01 (R53). -/
def decImm (w : Half) : Except DecodeErr Instr :=
  match (fRs2 w).toNat with
  | 0 => .ok (.addi false (f9 w) (fRs1 w) (fRd w))
  | 1 => .ok (.andi (f9 w) (fRs1 w) (fRd w))
  | 2 => .ok (.ori (f9 w) (fRs1 w) (fRd w))
  | 3 => .ok (.xori (f9 w) (fRs1 w) (fRd w))
  | 4 => .ok (.slli false (f9 w) (fRs1 w) (fRd w))
  | 5 => .ok (.srli false (f9 w) (fRs1 w) (fRd w))
  | 6 => .ok (.srai false (f9 w) (fRs1 w) (fRd w))
  | 7 => .ok (.slti (f9 w) (fRs1 w) (fRd w))
  | 8 => .ok (.addi true (f9 w) (fRs1 w) (fRd w))
  | 12 => .ok (.slli true (f9 w) (fRs1 w) (fRd w))
  | 13 => .ok (.srli true (f9 w) (fRs1 w) (fRd w))
  | 14 => .ok (.srai true (f9 w) (fRs1 w) (fRd w))
  | _ => .error .reserved

/-- The matrix group, C-space major 0x30 (R57). -/
def decMatrix (w : Half) : Except DecodeErr Instr :=
  match ((f9 w).extractLsb' 1 3).toNat with
  | 0 => mbz (fSub w == 0 && !mod0 w && fRs2 w == 0 && fRd w == 0) (.ok (.mcfg (fRs1 w)))
  | 1 => mbz (fSub w == 0 && !mod0 w) (.ok (.mbld (fRs2 w) (fRs1 w) (fRd w)))
  | 2 => .ok (.mgang (fSub w) (mod0 w) (fRs2 w) (fRs1 w) (fRd w))
  | 3 => .ok (.mdrain (fSub w) (mod0 w) (fRs2 w) (fRs1 w) (fRd w))
  | 4 => mbz (fSub w == 0 && !mod0 w && fRs2 w == 0) (.ok (.mstat (fRs1 w) (fRd w)))
  | 5 => mbz (fSub w == 0 && !mod0 w && fRs2 w == 0) (.ok (.mcancel (fRs1 w) (fRd w)))
  | 6 => mbz (fSub w == 0 && fRs2 w == 0) (.ok (.mzero (mod0 w) (fRs1 w) (fRd w)))
  | _ => .error .reserved

/-- The frame-unit group, C-space major 0x20 (R52). -/
def decFrame (w : Half) : Except DecodeErr Instr :=
  match (fSub w).toNat with
  | 0 => mbz ((fMod w) == 0 && fRd w == 0) (.ok (.post (fRs2 w) (fRs1 w)))
  | 1 => mbz ((fMod w) == 0 && fRs2 w == 0 && fRs1 w == 0 && fRd w == 0) (.ok (.endTask))
  | 2 => mbz ((fMod w) == 0 && fRd w == 0) (.ok (.ends (fRs2 w) (fRs1 w)))
  | 3 => mbz ((fMod w) == 0 && fRs2 w == 0 && fRd w == 0) (.ok (.claim (fRs1 w)))
  | 4 => mbz ((fMod w) == 0 && fRs2 w == 0 && fRd w == 0) (.ok (.unclaim (fRs1 w)))
  | 5 => mbz ((fMod w) == 0 && fRs2 w == 0 && fRs1 w == 0 && fRd w == 0) (.ok (.ecall))
  | 6 => mbz ((fMod w) == 0 && fRs2 w == 0 && fRs1 w == 0 && fRd w == 0) (.ok (.ebreak))
  | 8 => mbz ((fMod w) == 0 && fRs2 w == 0 && fRs1 w == 0 && fRd w == 0) (.ok (.eret))
  | 9 => mbz ((fMod w) == 0 && fRs2 w == 0 && fRd w == 0) (.ok (.fkill (fRs1 w)))
  | 10 => mbz ((fMod w) == 0) (.ok (.migr (fRs2 w) (fRs1 w) (fRd w)))
  | _ => .error .reserved

/-- The message group, C-space major 0x24 (R52). -/
def decMessage (w : Half) : Except DecodeErr Instr :=
  match (fSub w).toNat with
  | 0 => mbz ((fMod w) == 0) (.ok (.send (fRs2 w) (fRs1 w) (fRd w)))
  | 1 => mbz ((fMod w) == 0 && fRs2 w == 0) (.ok (.reply (fRs1 w) (fRd w)))
  | 2 => mbz ((fMod w) == 0) (.ok (.bindH (fRs2 w) (fRs1 w) (fRd w)))
  | 3 => mbz ((fMod w) == 0 && fRs2 w == 0) (.ok (.unbind (fRs1 w) (fRd w)))
  | 4 => mbz ((fMod w) == 0) (.ok (.swaph (fRs2 w) (fRs1 w) (fRd w)))
  | _ => .error .reserved

/-- The vector control group, C-space major 0x29 (R52). -/
def decVCtl (w : Half) : Except DecodeErr Instr :=
  match (fSub w).toNat with
  | 0 => mbz ((fMod w).extractLsb' 1 3 == 0) (.ok (.vclaim (mod0 w) (fRs2 w) (fRs1 w) (fRd w)))
  | 1 => mbz ((fMod w) == 0 && fRs2 w == 0 && fRs1 w == 0 && fRd w == 0) (.ok (.vfree))
  | 2 => mbz ((fMod w) == 0 && fRs2 w == 0) (.ok (.vsbind (fRs1 w) (fRd w)))
  | 3 => mbz ((fMod w) == 0 && fRs2 w == 0 && fRs1 w == 0) (.ok (.vsfree (fRd w)))
  | _ => .error .reserved

/-- The census group, C-space major 0x2C (R52). -/
def decCensus (w : Half) : Except DecodeErr Instr :=
  match (fSub w).toNat with
  | 0 => mbz ((fMod w) == 0) (.ok (.solicit (fRs2 w) (fRs1 w) (fRd w)))
  | 1 => mbz ((fMod w) == 0 && fRs2 w == 0 && fRd w == 0) (.ok (.respond (fRs1 w)))
  | 2 => mbz ((fMod w) == 0 && fRs2 w == 0) (.ok (.cbar (fRs1 w) (fRd w)))
  | 3 => mbz ((fMod w) == 0 && fRs2 w == 0) (.ok (.tilereg (fRs1 w) (fRd w)))
  | 4 => mbz ((fMod w) == 0 && fRs2 w == 0) (.ok (.tiledel (fRs1 w) (fRd w)))
  | 5 => mbz ((fMod w) == 0) (.ok (.tilemove (fRs2 w) (fRs1 w) (fRd w)))
  | 6 => mbz ((fMod w) == 0 && fRs2 w == 0) (.ok (.censq (fRs1 w) (fRd w)))
  | _ => .error .reserved

/-- The copy group, C-space major 0x34 (R52). -/
def decCopy (w : Half) : Except DecodeErr Instr :=
  match (fSub w).toNat with
  | 0 => mbz ((fMod w).extractLsb' 1 3 == 0 && fRs2 w == 0) (.ok (.cpy (mod0 w) (fRs1 w) (fRd w)))
  | 1 => mbz ((fMod w) == 0 && fRs2 w == 0) (.ok (.cpyst (fRs1 w) (fRd w)))
  | 2 => mbz ((fMod w) == 0 && fRs2 w == 0) (.ok (.cpoll (fRs1 w) (fRd w)))
  | 3 => mbz ((fMod w) == 0) (.ok (.bseal (fRs2 w) (fRs1 w) (fRd w)))
  | 4 => mbz ((fMod w) == 0) (.ok (.bopen (fRs2 w) (fRs1 w) (fRd w)))
  | 5 => mbz ((fMod w) == 0 && fRs2 w == 0) (.ok (.llcfg (fRs1 w) (fRd w)))
  | _ => .error .reserved

/-- The cache maintenance group, C-space major 0x38 (R52). -/
def decCmo (w : Half) : Except DecodeErr Instr :=
  match (fSub w).toNat with
  | 0 => .ok (.cflush ((fMod w).getLsbD 3) ((fMod w).extractLsb' 0 3) (fRs2 w) (fRs1 w) (fRd w))
  | 1 => .ok (.cclean ((fMod w).getLsbD 3) ((fMod w).extractLsb' 0 3) (fRs2 w) (fRs1 w) (fRd w))
  | 2 => .ok (.cinv ((fMod w).getLsbD 3) ((fMod w).extractLsb' 0 3) (fRs2 w) (fRs1 w) (fRd w))
  | _ => .error .reserved

/-- The graph group, C-space major 0x3A (R52). -/
def decGraph (w : Half) : Except DecodeErr Instr :=
  match (fSub w).toNat with
  | 0 => mbz ((fMod w) == 0 && fRs2 w == 0) (.ok (.grrun (fRs1 w) (fRd w)))
  | 1 => mbz ((fMod w) == 0 && fRs2 w == 0) (.ok (.grsig (fRs1 w) (fRd w)))
  | 2 => mbz ((fMod w) == 0 && fRs2 w == 0) (.ok (.grcan (fRs1 w) (fRd w)))
  | 3 => mbz ((fMod w) == 0 && fRs2 w == 0) (.ok (.grqry (fRs1 w) (fRd w)))
  | _ => .error .reserved

/-- The spawn group, C-space major 0x3C (R52). -/
def decSpawn (w : Half) : Except DecodeErr Instr :=
  match (fSub w).toNat with
  | 0 => mbz ((fMod w).extractLsb' 3 1 == 0) (.ok (.spawn ((fMod w).getLsbD 2) ((fMod w).extractLsb' 0 2) (fRs2 w) (fRs1 w) (fRd w)))
  | 1 => mbz ((fMod w) == 0 && fRs2 w == 0) (.ok (.joini (fRs1 w) (fRd w)))
  | 2 => mbz ((fMod w) == 0) (.ok (.join (fRs2 w) (fRs1 w) (fRd w)))
  | 3 => mbz ((fMod w) == 0 && fRs2 w == 0) (.ok (.termq (fRs1 w) (fRd w)))
  | _ => .error .reserved

/-- The guest group, C-space major 0x3E (R52). -/
def decGuest (w : Half) : Except DecodeErr Instr :=
  match (fSub w).toNat with
  | 0 => mbz ((fMod w) == 0 && fRs2 w == 0 && fRd w == 0) (.ok (.xpost (fRs1 w)))
  | 1 => mbz ((fMod w) == 0 && fRs2 w == 0) (.ok (.xqry (fRs1 w) (fRd w)))
  | _ => .error .reserved

/-- `LI` and `LI.h`, C-space major 0x02 (R53, R155): `LI.h` is lone only. -/
def decLi (w : Half) (lone : Bool) : Except DecodeErr Instr :=
  if (fRs1 w).getLsbD 0 then
    if lone then mbz (f9 w == 0 && fRs2 w == 0 && fRs1 w == 1) (.ok (.liH (fRd w))) else .error .reserved
  else .ok (.li (f9 w ++ fRs2 w ++ (fRs1 w).extractLsb' 1 4) (fRd w))

/-- `AMO`, `CAS` and `AMOG`, C-space majors 0x12 and 0x13 (R53). -/
def decAmo (d : Bool) (w : Half) : Except DecodeErr Instr :=
  let h := (f9 w).extractLsb' 0 3
  let r := ordOf ((f9 w).extractLsb' 3 2)
  if fF4 w == 10 then .ok (.cas d r h (fRs2 w) (fRs1 w) (fRd w))
  else if fF4 w == 11 then .ok (.amog d r h (fRs2 w) (fRs1 w) (fRd w))
  else needs (amoOf (fF4 w)) (fun o => .amo d o r h (fRs2 w) (fRs1 w) (fRd w))

/-- `FENCE`, C-space major 0x14 (R53). -/
def decFence (w : Half) : Except DecodeErr Instr :=
  mbz ((f9 w).extractLsb' 0 3 == 0 && fRs2 w == 0 && fRs1 w == 0 && fRd w == 0)
    (both (scopeOf ((f9 w).extractLsb' 6 3)) (fun s => needs (fenceOf ((f9 w).extractLsb' 3 3)) (fun k => .fence s k)))

/-- The CSR instructions, C-space major 0x15 (R53). -/
def decCsr (w : Half) : Except DecodeErr Instr :=
  let c := f9 w ++ (fRs2 w).extractLsb' 2 3
  match ((fRs2 w).extractLsb' 0 2).toNat with
  | 1 => .ok (.csrrw c (fRs1 w) (fRd w))
  | 2 => .ok (.csrrs c (fRs1 w) (fRd w))
  | 3 => .ok (.csrrc c (fRs1 w) (fRd w))
  | _ => .error .reserved

/-- Handle instructions, C-space major 0x16 (R53). -/
def decHandle (w : Half) : Except DecodeErr Instr :=
  let hs := (f9 w).extractLsb' 0 3
  let hd := (f9 w).extractLsb' 3 3
  match ((f9 w).extractLsb' 6 3).toNat with
  | 0 => mbz (hs == 0 && fRs2 w == 0 && fRd w == 0) (.ok (.hld hd (fRs1 w)))
  | 1 => mbz (hd == 0 && fRs2 w == 0) (.ok (.hgive hs (fRs1 w) (fRd w)))
  | 2 => mbz (hd == 0 && fRs2 w == 0) (.ok (.hqry hs (fRs1 w) (fRd w)))
  | _ => .error .reserved

/-- `WATCH`, C-space major 0x21 (R53). -/
def decWatch (w : Half) : Except DecodeErr Instr :=
  mbz ((f9 w).extractLsb' 0 2 == 0) (needs (watchOf ((f9 w).extractLsb' 3 3))
    (fun c => .watch ((f9 w).extractLsb' 6 3) c ((f9 w).getLsbD 2) (fRs2 w) (fRs1 w) (fRd w)))

/-- Vector loads and stores, C-space major 0x28 (R53, R278). -/
def decVMem (w : Half) : Except DecodeErr Instr :=
  let h := (f9 w).extractLsb' 6 3
  let t := (f9 w).extractLsb' 0 4
  match ((f9 w).extractLsb' 4 2).toNat with
  | 0 => mbz (fRs2 w == 0) (needs (tagOf t.toNat) (fun t => .vld h t (fRs1 w) (fRd w)))
  | 1 => mbz (fRs2 w == 0 && t == 0) (.ok (.vst h (fRs1 w) (fRd w)))
  | 2 => needs (tagOf t.toNat) (fun t => .vldx h t (fRs2 w) (fRs1 w) (fRd w))
  | _ => mbz (t == 0) (.ok (.vstx h (fRs2 w) (fRs1 w) (fRd w)))

/-- A C-space word (R49, R51): major opcode, selector, fields that must be zero. Bits [1:0], W and L, are the bundle's. -/
def rawC (w : Half) (lone : Bool) : Except DecodeErr Instr :=
  match (fMaj w).toNat with
  | 0x01 => decImm w
  | 0x02 => decLi w lone
  | 0x03 => .ok (.lpc (f9 w ++ fRs2 w ++ fRs1 w) (fRd w))
  | 0x04 => .ok (.jal (f9 w ++ fRs2 w ++ fRs1 w) (fRd w))
  | 0x05 => mbz (fRs2 w == 0) (.ok (.jalr (f9 w) (fRs1 w) (fRd w)))
  | 0x06 => .ok (.beq (f9 w ++ fRd w) (fRs2 w) (fRs1 w))
  | 0x07 => .ok (.bne (f9 w ++ fRd w) (fRs2 w) (fRs1 w))
  | 0x08 => .ok (.blt (f9 w ++ fRd w) (fRs2 w) (fRs1 w))
  | 0x09 => .ok (.bge (f9 w ++ fRd w) (fRs2 w) (fRs1 w))
  | 0x0A => .ok (.bltn (f9 w ++ fRd w) (fRs2 w) (fRs1 w))
  | 0x0B => .ok (.bgen (f9 w ++ fRd w) (fRs2 w) (fRs1 w))
  | 0x0C => .ok (.lds (f9 w) (cmH w) (cmSz w) (fRs1 w) (fRd w))
  | 0x0D => .ok (.ldz (f9 w) (cmH w) (cmSz w) (fRs1 w) (fRd w))
  | 0x0E => .ok (.st (f9 w) (cmH w) (cmSz w) (fRs1 w) (fRd w))
  | 0x0F => .ok (.ldp (f9 w) (cmH w) (cmSz w) (fRs1 w) (fRd w))
  | 0x10 => .ok (.stp (f9 w) (cmH w) (cmSz w) (fRs1 w) (fRd w))
  | 0x11 => mbz (cmSz w == 0 && fRd w == 0) (.ok (.pf (f9 w) (cmH w) (fRs1 w)))
  | 0x12 => decAmo false w
  | 0x13 => decAmo true w
  | 0x14 => decFence w
  | 0x15 => decCsr w
  | 0x16 => decHandle w
  | 0x20 => decFrame w
  | 0x21 => decWatch w
  | 0x24 => decMessage w
  | 0x28 => decVMem w
  | 0x29 => decVCtl w
  | 0x2C => decCensus w
  | 0x30 => decMatrix w
  | 0x34 => decCopy w
  | 0x38 => decCmo w
  | 0x3A => decGraph w
  | 0x3C => decSpawn w
  | 0x3E => decGuest w
  | _ => .error .unassigned
/-- An instruction that keeps the limits on its fields. -/
def checked (r : Except DecodeErr Instr) : Except DecodeErr Instr :=
  match r with
  | .error e => .error e
  | .ok i => if i.wellFormed then .ok i else .error .badField

/-- An A-space word decoded. -/
def decodeA (w : Half) : Except DecodeErr Instr := checked (rawA w)
/-- A C-space word decoded, lone or not. -/
def decodeC (w : Half) (lone : Bool) : Except DecodeErr Instr := checked (rawC w lone)

/-! ## Encoding -/

/-- The word of an atomic (format CA). -/
def amoWord (p : Bool) (op : BitVec 4) (r : MemOrd) (h : HReg) (b a d : Reg) : Half :=
  five (op ++ ordCode r ++ h) b a d (if p then 0x13#6 else 0x12#6)

/-- The word of an instruction, with W = 0 and L = 0 (`LI.h` excepted, L is the bundle's): the encodings of R49 to R57. A step or
event has no word; it gives the all-zero word, which never executes (R40). -/
def encode : Instr → Half
  | .add w b a d => five (0#4 ++ (0#4 ++ bw w)) (b) (a) (d) 0x01#6
  | .sub w b a d => five (1#4 ++ (0#4 ++ bw w)) (b) (a) (d) 0x01#6
  | .and w b a d => five (2#4 ++ (0#4 ++ bw w)) (b) (a) (d) 0x01#6
  | .or w b a d => five (3#4 ++ (0#4 ++ bw w)) (b) (a) (d) 0x01#6
  | .xor w b a d => five (4#4 ++ (0#4 ++ bw w)) (b) (a) (d) 0x01#6
  | .andn w b a d => five (5#4 ++ (0#4 ++ bw w)) (b) (a) (d) 0x01#6
  | .sll w b a d => five (6#4 ++ (0#4 ++ bw w)) (b) (a) (d) 0x01#6
  | .srl w b a d => five (7#4 ++ (0#4 ++ bw w)) (b) (a) (d) 0x01#6
  | .sra w b a d => five (8#4 ++ (0#4 ++ bw w)) (b) (a) (d) 0x01#6
  | .slt w b a d => five (9#4 ++ (0#4 ++ bw w)) (b) (a) (d) 0x01#6
  | .sltn w b a d => five (10#4 ++ (0#4 ++ bw w)) (b) (a) (d) 0x01#6
  | .min w b a d => five (11#4 ++ (0#4 ++ bw w)) (b) (a) (d) 0x01#6
  | .max w b a d => five (12#4 ++ (0#4 ++ bw w)) (b) (a) (d) 0x01#6
  | .minn w b a d => five (13#4 ++ (0#4 ++ bw w)) (b) (a) (d) 0x01#6
  | .maxn w b a d => five (14#4 ++ (0#4 ++ bw w)) (b) (a) (d) 0x01#6
  | .mul w b a d => five (0#4 ++ (0#4 ++ bw w)) (b) (a) (d) 0x02#6
  | .mulh b a d => five (1#4 ++ (0#5)) (b) (a) (d) 0x02#6
  | .mulhn b a d => five (2#4 ++ (0#5)) (b) (a) (d) 0x02#6
  | .div w b a d => five (3#4 ++ (0#4 ++ bw w)) (b) (a) (d) 0x02#6
  | .divn w b a d => five (4#4 ++ (0#4 ++ bw w)) (b) (a) (d) 0x02#6
  | .rem w b a d => five (5#4 ++ (0#4 ++ bw w)) (b) (a) (d) 0x02#6
  | .remn w b a d => five (6#4 ++ (0#4 ++ bw w)) (b) (a) (d) 0x02#6
  | .clz w a d => five (0#4 ++ (0#4 ++ bw w)) (0#5) (a) (d) 0x03#6
  | .ctz w a d => five (1#4 ++ (0#4 ++ bw w)) (0#5) (a) (d) 0x03#6
  | .popc w a d => five (2#4 ++ (0#4 ++ bw w)) (0#5) (a) (d) 0x03#6
  | .bswap w a d => five (3#4 ++ (0#4 ++ bw w)) (0#5) (a) (d) 0x03#6
  | .sextOp sz a d => five (4#4 ++ (0#2 ++ sz ++ 0#1)) (0#5) (a) (d) 0x03#6
  | .zextOp sz a d => five (5#4 ++ (0#2 ++ sz ++ 0#1)) (0#5) (a) (d) 0x03#6
  | .csel c b a d => five (0#4 ++ (c)) (b) (a) (d) 0x04#6
  | .fadd rm p b a d => five (0#4 ++ (0#1 ++ rndCode rm ++ bw p)) (b) (a) (d) 0x08#6
  | .fsub rm p b a d => five (1#4 ++ (0#1 ++ rndCode rm ++ bw p)) (b) (a) (d) 0x08#6
  | .fmul rm p b a d => five (2#4 ++ (0#1 ++ rndCode rm ++ bw p)) (b) (a) (d) 0x08#6
  | .fdiv rm p b a d => five (3#4 ++ (0#1 ++ rndCode rm ++ bw p)) (b) (a) (d) 0x08#6
  | .fsqrt rm p a d => five (4#4 ++ (0#1 ++ rndCode rm ++ bw p)) (0#5) (a) (d) 0x08#6
  | .fmin p b a d => five (5#4 ++ (0#4 ++ bw p)) (b) (a) (d) 0x08#6
  | .fmax p b a d => five (6#4 ++ (0#4 ++ bw p)) (b) (a) (d) 0x08#6
  | .feq p b a d => five (8#4 ++ (0#4 ++ bw p)) (b) (a) (d) 0x08#6
  | .flt p b a d => five (9#4 ++ (0#4 ++ bw p)) (b) (a) (d) 0x08#6
  | .fle p b a d => five (10#4 ++ (0#4 ++ bw p)) (b) (a) (d) 0x08#6
  | .fsgnj j p b a d => five (7#4 ++ (0#1 ++ sgnCode j ++ bw p)) (b) (a) (d) 0x08#6
  | .fclass p a d => five (11#4 ++ (0#4 ++ bw p)) (0#5) (a) (d) 0x08#6
  | .fmvx p a d => five (12#4 ++ (0#4 ++ bw p)) (0#5) (a) (d) 0x08#6
  | .fmvf p a d => five (13#4 ++ (0#4 ++ bw p)) (0#5) (a) (d) 0x08#6
  | .fmadd p c b a d => five (0#1 ++ bw p ++ 0#2 ++ c) (b) (a) (d) 0x09#6
  | .fmsub p c b a d => five (0#1 ++ bw p ++ 1#2 ++ c) (b) (a) (d) 0x09#6
  | .fnmadd p c b a d => five (0#1 ++ bw p ++ 2#2 ++ c) (b) (a) (d) 0x09#6
  | .fnmsub p c b a d => five (0#1 ++ bw p ++ 3#2 ++ c) (b) (a) (d) 0x09#6
  | .fcvt t n rm a d => five (cvtCode t ++ (0#1 ++ bw n ++ rndCode rm)) (0#5) (a) (d) 0x0A#6
  | .vadd x s r b a d => five (0#4 ++ (bw x ++ bw s ++ r)) (b) (a) (d) 0x10#6
  | .vsub x s r b a d => five (1#4 ++ (bw x ++ bw s ++ r)) (b) (a) (d) 0x10#6
  | .vmul x s r b a d => five (2#4 ++ (bw x ++ bw s ++ r)) (b) (a) (d) 0x10#6
  | .vmin x r b a d => five (3#4 ++ (bw x ++ 0#1 ++ r)) (b) (a) (d) 0x10#6
  | .vmax x r b a d => five (4#4 ++ (bw x ++ 0#1 ++ r)) (b) (a) (d) 0x10#6
  | .vand x r b a d => five (5#4 ++ (bw x ++ 0#1 ++ r)) (b) (a) (d) 0x10#6
  | .vor x r b a d => five (6#4 ++ (bw x ++ 0#1 ++ r)) (b) (a) (d) 0x10#6
  | .vxor x r b a d => five (7#4 ++ (bw x ++ 0#1 ++ r)) (b) (a) (d) 0x10#6
  | .vshl x r b a d => five (8#4 ++ (bw x ++ 0#1 ++ r)) (b) (a) (d) 0x10#6
  | .vshr x r b a d => five (9#4 ++ (bw x ++ 0#1 ++ r)) (b) (a) (d) 0x10#6
  | .vcmp x c b a d => five (10#4 ++ (bw x ++ 0#1 ++ vcondCode c)) (b) (a) (d) 0x10#6
  | .vabs s r a d => five (11#4 ++ (0#1 ++ bw s ++ r)) (0#5) (a) (d) 0x10#6
  | .vneg s r a d => five (12#4 ++ (0#1 ++ bw s ++ r)) (0#5) (a) (d) 0x10#6
  | .vmov x t a d => five (13#4 ++ (bw x ++ t)) (0#5) (a) (d) 0x10#6
  | .vfma c b a d => five (0#4 ++ (c)) (b) (a) (d) 0x11#6
  | .vfms c b a d => five (1#4 ++ (c)) (b) (a) (d) 0x11#6
  | .vsel c b a d => five (2#4 ++ (c)) (b) (a) (d) 0x11#6
  | .vdot c b a d => five (3#4 ++ (c)) (b) (a) (d) 0x11#6
  | .vrsum e s r a d => five (0#4 ++ (bw e ++ bw s ++ r)) (0#5) (a) (d) 0x12#6
  | .vrmax e a d => five (1#4 ++ (bw e ++ 0#4)) (0#5) (a) (d) 0x12#6
  | .vrmin e a d => five (2#4 ++ (bw e ++ 0#4)) (0#5) (a) (d) 0x12#6
  | .vscan s r a d => five (3#4 ++ (0#1 ++ bw s ++ r)) (0#5) (a) (d) 0x12#6
  | .vbmax e a d => five (4#4 ++ (bw e ++ 0#4)) (0#5) (a) (d) 0x12#6
  | .vexp2 rm a d => five (0#4 ++ (0#2 ++ rndCode rm)) (0#5) (a) (d) 0x13#6
  | .vlog2 rm a d => five (1#4 ++ (0#2 ++ rndCode rm)) (0#5) (a) (d) 0x13#6
  | .vrcp rm a d => five (2#4 ++ (0#2 ++ rndCode rm)) (0#5) (a) (d) 0x13#6
  | .vrsq rm a d => five (3#4 ++ (0#2 ++ rndCode rm)) (0#5) (a) (d) 0x13#6
  | .vcvt t r a d => five (0#4 ++ (0#1 ++ tagBits t)) (0#2 ++ r) (a) (d) 0x14#6
  | .vtag t a d => five (1#4 ++ (0#1 ++ tagBits t)) (0#5) (a) (d) 0x14#6
  | .vqnt f s b a d => five (2#4 ++ (bxfCode f ++ s)) (b) (a) (d) 0x14#6
  | .vext b a d => five (3#4 ++ (0#5)) (b) (a) (d) 0x14#6
  | .vperm b a d => five (4#4 ++ (0#5)) (b) (a) (d) 0x14#6
  | .addi w i a d => five (i) ((if w then 8#5 else 0#5)) (a) (d) 0x01#6
  | .andi i a d => five (i) (1#5) (a) (d) 0x01#6
  | .ori i a d => five (i) (2#5) (a) (d) 0x01#6
  | .xori i a d => five (i) (3#5) (a) (d) 0x01#6
  | .slli w i a d => five (i) ((if w then 12#5 else 4#5)) (a) (d) 0x01#6
  | .srli w i a d => five (i) ((if w then 13#5 else 5#5)) (a) (d) 0x01#6
  | .srai w i a d => five (i) ((if w then 14#5 else 6#5)) (a) (d) 0x01#6
  | .slti i a d => five (i) (7#5) (a) (d) 0x01#6
  | .li i d => five (i.extractLsb' 9 9) (i.extractLsb' 4 5) (i.extractLsb' 0 4 ++ 0#1) (d) 0x02#6
  | .liH d => five (0#9) (0#5) (1#5) (d) 0x02#6
  | .lpc i d => five (i.extractLsb' 10 9) (i.extractLsb' 5 5) (i.extractLsb' 0 5) (d) 0x03#6
  | .jal i d => five (i.extractLsb' 10 9) (i.extractLsb' 5 5) (i.extractLsb' 0 5) (d) 0x04#6
  | .jalr i a d => five (i) (0#5) (a) (d) 0x05#6
  | .beq i b a => five (i.extractLsb' 5 9) (b) (a) (i.extractLsb' 0 5) 0x06#6
  | .bne i b a => five (i.extractLsb' 5 9) (b) (a) (i.extractLsb' 0 5) 0x07#6
  | .blt i b a => five (i.extractLsb' 5 9) (b) (a) (i.extractLsb' 0 5) 0x08#6
  | .bge i b a => five (i.extractLsb' 5 9) (b) (a) (i.extractLsb' 0 5) 0x09#6
  | .bltn i b a => five (i.extractLsb' 5 9) (b) (a) (i.extractLsb' 0 5) 0x0A#6
  | .bgen i b a => five (i.extractLsb' 5 9) (b) (a) (i.extractLsb' 0 5) 0x0B#6
  | .lds i h z a d => five (i) (h ++ z) (a) (d) 0x0C#6
  | .ldz i h z a d => five (i) (h ++ z) (a) (d) 0x0D#6
  | .st i h z a d => five (i) (h ++ z) (a) (d) 0x0E#6
  | .ldp i h z a d => five (i) (h ++ z) (a) (d) 0x0F#6
  | .stp i h z a d => five (i) (h ++ z) (a) (d) 0x10#6
  | .pf i h a => five (i) (h ++ 0#2) (a) (0#5) 0x11#6
  | .amo p o r h b a d => amoWord p (amoCode o) r h b a d
  | .cas p r h b a d => amoWord p 10#4 r h b a d
  | .amog p r h b a d => amoWord p 11#4 r h b a d
  | .fence sc k => five (scopeBits sc ++ fenceCode k ++ 0#3) (0#5) (0#5) (0#5) 0x14#6
  | .csrrw c a d => five (c.extractLsb' 3 9) (c.extractLsb' 0 3 ++ 1#2) (a) (d) 0x15#6
  | .csrrs c a d => five (c.extractLsb' 3 9) (c.extractLsb' 0 3 ++ 2#2) (a) (d) 0x15#6
  | .csrrc c a d => five (c.extractLsb' 3 9) (c.extractLsb' 0 3 ++ 3#2) (a) (d) 0x15#6
  | .hld e a => five (0#3 ++ e ++ 0#3) (0#5) (a) (0#5) 0x16#6
  | .hgive h a d => five (1#3 ++ 0#3 ++ h) (0#5) (a) (d) 0x16#6
  | .hqry h a d => five (2#3 ++ 0#3 ++ h) (0#5) (a) (d) 0x16#6
  | .post b a => five (0#5 ++ (0#4)) (b) (a) (0#5) 0x20#6
  | .endTask => five (1#5 ++ (0#4)) (0#5) (0#5) (0#5) 0x20#6
  | .ends b a => five (2#5 ++ (0#4)) (b) (a) (0#5) 0x20#6
  | .claim a => five (3#5 ++ (0#4)) (0#5) (a) (0#5) 0x20#6
  | .unclaim a => five (4#5 ++ (0#4)) (0#5) (a) (0#5) 0x20#6
  | .ecall => five (5#5 ++ (0#4)) (0#5) (0#5) (0#5) 0x20#6
  | .ebreak => five (6#5 ++ (0#4)) (0#5) (0#5) (0#5) 0x20#6
  | .eret => five (8#5 ++ (0#4)) (0#5) (0#5) (0#5) 0x20#6
  | .fkill a => five (9#5 ++ (0#4)) (0#5) (a) (0#5) 0x20#6
  | .migr b a d => five (10#5 ++ (0#4)) (b) (a) (d) 0x20#6
  | .send b a d => five (0#5 ++ (0#4)) (b) (a) (d) 0x24#6
  | .reply a d => five (1#5 ++ (0#4)) (0#5) (a) (d) 0x24#6
  | .bindH b a d => five (2#5 ++ (0#4)) (b) (a) (d) 0x24#6
  | .unbind a d => five (3#5 ++ (0#4)) (0#5) (a) (d) 0x24#6
  | .swaph b a d => five (4#5 ++ (0#4)) (b) (a) (d) 0x24#6
  | .vclaim q b a d => five (0#5 ++ (0#3 ++ bw q)) (b) (a) (d) 0x29#6
  | .vfree => five (1#5 ++ (0#4)) (0#5) (0#5) (0#5) 0x29#6
  | .vsbind a d => five (2#5 ++ (0#4)) (0#5) (a) (d) 0x29#6
  | .vsfree d => five (3#5 ++ (0#4)) (0#5) (0#5) (d) 0x29#6
  | .solicit b a d => five (0#5 ++ (0#4)) (b) (a) (d) 0x2C#6
  | .respond a => five (1#5 ++ (0#4)) (0#5) (a) (0#5) 0x2C#6
  | .cbar a d => five (2#5 ++ (0#4)) (0#5) (a) (d) 0x2C#6
  | .tilereg a d => five (3#5 ++ (0#4)) (0#5) (a) (d) 0x2C#6
  | .tiledel a d => five (4#5 ++ (0#4)) (0#5) (a) (d) 0x2C#6
  | .tilemove b a d => five (5#5 ++ (0#4)) (b) (a) (d) 0x2C#6
  | .censq a d => five (6#5 ++ (0#4)) (0#5) (a) (d) 0x2C#6
  | .cpy q a d => five (0#5 ++ (0#3 ++ bw q)) (0#5) (a) (d) 0x34#6
  | .cpyst a d => five (1#5 ++ (0#4)) (0#5) (a) (d) 0x34#6
  | .cpoll a d => five (2#5 ++ (0#4)) (0#5) (a) (d) 0x34#6
  | .bseal b a d => five (3#5 ++ (0#4)) (b) (a) (d) 0x34#6
  | .bopen b a d => five (4#5 ++ (0#4)) (b) (a) (d) 0x34#6
  | .llcfg a d => five (5#5 ++ (0#4)) (0#5) (a) (d) 0x34#6
  | .cflush r h b a d => five (0#5 ++ (bw r ++ h)) (b) (a) (d) 0x38#6
  | .cclean r h b a d => five (1#5 ++ (bw r ++ h)) (b) (a) (d) 0x38#6
  | .cinv r h b a d => five (2#5 ++ (bw r ++ h)) (b) (a) (d) 0x38#6
  | .grrun a d => five (0#5 ++ (0#4)) (0#5) (a) (d) 0x3A#6
  | .grsig a d => five (1#5 ++ (0#4)) (0#5) (a) (d) 0x3A#6
  | .grcan a d => five (2#5 ++ (0#4)) (0#5) (a) (d) 0x3A#6
  | .grqry a d => five (3#5 ++ (0#4)) (0#5) (a) (d) 0x3A#6
  | .spawn y p b a d => five (0#5 ++ (0#1 ++ bw y ++ p)) (b) (a) (d) 0x3C#6
  | .joini a d => five (1#5 ++ (0#4)) (0#5) (a) (d) 0x3C#6
  | .join b a d => five (2#5 ++ (0#4)) (b) (a) (d) 0x3C#6
  | .termq a d => five (3#5 ++ (0#4)) (0#5) (a) (d) 0x3C#6
  | .xpost a => five (0#5 ++ (0#4)) (0#5) (a) (0#5) 0x3E#6
  | .xqry a d => five (1#5 ++ (0#4)) (0#5) (a) (d) 0x3E#6
  | .watch h c p b a d => five (h ++ vwCode c ++ bw p ++ 0#2) (b) (a) (d) 0x21#6
  | .vld h t a d => five (h ++ 0#2 ++ tagBits t) (0#5) (a) (d) 0x28#6
  | .vst h a d => five (h ++ 1#2 ++ 0#4) (0#5) (a) (d) 0x28#6
  | .vldx h t b a d => five (h ++ 2#2 ++ tagBits t) (b) (a) (d) 0x28#6
  | .vstx h b a d => five (h ++ 3#2 ++ 0#4) (b) (a) (d) 0x28#6
  | .mcfg a => five (0#5 ++ 0#3 ++ 0#1) (0#5) (a) (0#5) 0x30#6
  | .mbld b a d => five (0#5 ++ 1#3 ++ 0#1) (b) (a) (d) 0x30#6
  | .mgang c q b a d => five (c ++ 2#3 ++ bw q) (b) (a) (d) 0x30#6
  | .mdrain c q b a d => five (c ++ 3#3 ++ bw q) (b) (a) (d) 0x30#6
  | .mstat a d => five (0#5 ++ 4#3 ++ 0#1) (0#5) (a) (d) 0x30#6
  | .mcancel a d => five (0#5 ++ 5#3 ++ 0#1) (0#5) (a) (d) 0x30#6
  | .mzero q a d => five (0#5 ++ 6#3 ++ bw q) (0#5) (a) (d) 0x30#6
  | _ => 0

/-! ## Bundles (R32-R37) -/

/-- The canonical no-op word of either space (R61). -/
def nopWord : Half := 0x00000004

/-- Whether word 0 of a lone bundle holds an instruction that accepts a literal (R35), by its selectors. -/
def acceptsLit (w : Half) : Bool :=
  let m := (fMaj w).toNat
  let s := (fRs2 w).toNat
  (m == 1 && (s ≤ 3 || s == 7 || s == 8)) || (2 ≤ m && m ≤ 4) || (6 ≤ m && m ≤ 0x11)

/-- The short field that a literal replaces (R35) is zero. -/
def shortZero (w : Half) : Bool :=
  match (fMaj w).toNat with
  | 0x02 => f9 w == 0 && fRs2 w == 0 && (fRs1 w).extractLsb' 1 4 == 0
  | 0x03 => f9 w == 0 && fRs2 w == 0 && fRs1 w == 0
  | 0x04 => f9 w == 0 && fRs2 w == 0 && fRs1 w == 0
  | 0x01 => f9 w == 0
  | m => if m ≤ 0x0B then f9 w == 0 && fRd w == 0 else f9 w == 0

/-- The instructions that want the A-space no-op beside them (R37): `END`, `ENDS`, `ERET`, `FKILL`, `MIGR`. -/
def needsNop : Instr → Bool
  | .endTask => true
  | .ends _ _ => true
  | .eret => true
  | .fkill _ => true
  | .migr _ _ _ => true
  | _ => false

/-- A bundle-level fault of a bundle (R34, R37). -/
def bundleFault (w0 w1 : Half) : Bool :=
  if w0.getLsbD 0 then
    if acceptsLit w0 then !shortZero w0 else w1 != 0
  else
    match decodeC w0 false with
    | .ok i => needsNop i && w1 != nopWord
    | .error _ => false

/-- Instructions of the A-space (R54), by their encoding: no C-space word has them. -/
def Instr.inA (i : Instr) : Bool :=
  match decodeA (encode i) with
  | .ok j => i == j
  | .error _ => false

/-- The word of an instruction as it stands alone in the opcode table: `LI.h` with L set. -/
def encodeTable (i : Instr) : Half :=
  match i with
  | .liH _ => encode i ||| 1
  | _ => encode i

/-- The instruction of a word as the opcode table numbers its bits: a word with W or L set is C-space; otherwise the
A-space is tried first, then the C-space (log entry 5). -/
def tableSlot (w : Half) : Option (Bool × Instr) :=
  let c := match decodeC w (w.getLsbD 0) with
    | .ok i => some (false, i)
    | .error _ => none
  if w.extractLsb' 0 2 != 0 then c
  else match decodeA w with
    | .ok i => some (true, i)
    | .error _ => c

/-- The instruction that the decoder reads from a slot word of the opcode table; no other length is a slot word. -/
def decodeTableWord (nbits w : Nat) : Option Instr :=
  if nbits ≤ 32 then (tableSlot (BitVec.ofNat 32 w)).map (fun p => p.2) else none

end Sys2Proof
end

