-- ==== Sys2Proof/Config.lean ====
section
/-! DEFINITION. Free values: constants with no body for what the spec leaves open (log entry 6). Each is applied to the
counter `fv` of the state, so that two uses need not agree; nothing can be proved about any of their values. -/

namespace Sys2Proof.Config

/-- The data that an uncorrectable error leaves (R219, R407), and every other 64-bit value the spec does not state. -/
opaque freeWord : Nat → BitVec 64
/-- The next state of a core's 16-bit LFSR, whose polynomial the spec does not give (R466). -/
opaque lfsrStep : BitVec 16 → BitVec 16
/-- The choice that a state of the LFSR stands for (R466). -/
opaque lfsrPick : BitVec 16 → Nat
/-- The 64 sets that a home agent samples, by its endpoint and a number below 64 (R131). -/
opaque sampledSet : Nat → Nat → Nat
/-- The flits that a core's outbound response buffer holds beyond the eight of one packet (R242). -/
opaque responseRoom : Nat
/-- OCCUP of a router from its free dateline slots and free escape slots, whose places in the word the spec does not give (R261). -/
opaque occupWord : Nat → Nat → BitVec 64
/-- Bytes whose content the spec does not state: certificates, digests, signatures, identity (R523, R524). -/
opaque freeByte : Nat → Nat → BitVec 8

end Sys2Proof.Config
end

