-- ==== Sys2Proof/Machine/Float.lean ====
section
/-! DEFINITION. Number formats, rounding and flags (03_numbers.md R77-R105): exact values, one rounding, the IEEE operations. -/

namespace Sys2Proof.Machine

/-- An IEEE binary format of R77: exponent bits and fraction bits. -/
structure Fmt where
  ebits : Nat
  mbits : Nat
  deriving DecidableEq, Repr

/-- FP64 of R77. -/
abbrev Fmt.f64 : Fmt := Fmt.mk 11 52
/-- FP32 of R77. -/
abbrev Fmt.f32 : Fmt := Fmt.mk 8 23
/-- FP16 of R77. -/
abbrev Fmt.f16 : Fmt := Fmt.mk 5 10
/-- BF16 of R77. -/
abbrev Fmt.bf16 : Fmt := Fmt.mk 8 7

/-- The bias of a format. -/
def Fmt.bias (f : Fmt) : Int := 2 ^ (f.ebits - 1) - 1
/-- The exponent of the smallest normal. -/
def Fmt.emin (f : Fmt) : Int := 1 - f.bias
/-- The width of a format in bits. -/
def Fmt.width (f : Fmt) : Nat := f.ebits + f.mbits + 1
/-- The canonical quiet NaN (R79). -/
def Fmt.nan (f : Fmt) : Nat := ((2 ^ f.ebits - 1) <<< f.mbits) + 2 ^ (f.mbits - 1)
/-- The sign bit as a number. -/
def Fmt.signBit (f : Fmt) (neg : Bool) : Nat := if neg then 2 ^ (f.ebits + f.mbits) else 0
/-- Infinity. -/
def Fmt.inf (f : Fmt) (neg : Bool) : Nat := f.signBit neg + ((2 ^ f.ebits - 1) <<< f.mbits)
/-- The largest finite value. -/
def Fmt.maxFinite (f : Fmt) (neg : Bool) : Nat := f.inf neg - 1

/-- The flag bits of `FlagSet`. -/
abbrev flSAT : FlagSet := 32
abbrev flNV : FlagSet := 16
abbrev flDZ : FlagSet := 8
abbrev flOF : FlagSet := 4
abbrev flUF : FlagSet := 2
abbrev flNX : FlagSet := 1

/-- An exact value: a NaN, an infinity, or (-1)^neg * man * 2^exp. -/
inductive FVal where
  | nan (signalling : Bool)
  | inf (neg : Bool)
  | fin (neg : Bool) (man : Nat) (exp : Int)
  deriving DecidableEq, Repr

/-- The value of an encoding (R77; subnormals honoured). -/
def Fmt.decode (f : Fmt) (bits : Nat) : FVal :=
  let frac := bits % 2 ^ f.mbits
  let e := (bits >>> f.mbits) % 2 ^ f.ebits
  let neg := (bits >>> (f.ebits + f.mbits)) % 2 == 1
  if e == 2 ^ f.ebits - 1 then
    if frac == 0 then .inf neg else .nan (frac < 2 ^ (f.mbits - 1))
  else if e == 0 then .fin neg frac (f.emin - f.mbits)
  else .fin neg (frac + 2 ^ f.mbits) ((e : Int) - f.bias - f.mbits)

/-- Whether the mode of R86 takes the member of larger magnitude: `odd` is the lower member's last bit,
`half` compares the discarded part with one half. -/
def roundUp (mode : BitVec 3) (neg odd : Bool) (exact : Bool) (half : Ordering) : Bool :=
  if exact then false
  else match mode.toNat with
    | 0 => half == .gt || (half == .eq && odd)
    | 1 => false
    | 2 => neg
    | 3 => !neg
    | _ => half != .lt

/-- `man * 2^exp` rounded under `mode` to a multiple of `2^q`: the multiple's count and whether it is inexact. -/
def roundQuantum (mode : BitVec 3) (neg : Bool) (man : Nat) (exp q : Int) : Nat × Bool :=
  if q ≤ exp then (man <<< (exp - q).toNat, false)
  else
    let sh := (q - exp).toNat
    let n := man >>> sh
    let r := man - (n <<< sh)
    let up := roundUp mode neg (n % 2 == 1) (r == 0) (compare (2 * r) (2 ^ sh))
    (if up then n + 1 else n, r != 0)

/-- The number of bits of a natural number. -/
def bitLen (n : Nat) : Nat := if n == 0 then 0 else Nat.log2 n + 1

/-- What overflow gives (R87). -/
def overflowValue (f : Fmt) (mode : BitVec 3) (neg : Bool) : Nat :=
  match mode.toNat with
  | 1 => f.maxFinite neg
  | 2 => if neg then f.inf true else f.maxFinite false
  | 3 => if neg then f.maxFinite true else f.inf false
  | _ => f.inf neg

/-- `round` of R76 on a finite value (R86, R87, R80). A zero keeps the sign `neg`. -/
def roundFin (f : Fmt) (mode : BitVec 3) (neg : Bool) (man : Nat) (exp : Int) : Nat × FlagSet :=
  if man == 0 then (f.signBit neg, 0)
  else
    let e : Int := exp + bitLen man - 1
    let q : Int := max (e - f.mbits) (f.emin - f.mbits)
    let (n, inexact) := roundQuantum mode neg man exp q
    let nx : FlagSet := if inexact then flNX else 0
    -- tininess after rounding, with the exponent unbounded (R80)
    let (nu, _) := roundQuantum mode neg man exp (e - f.mbits)
    let tiny := e < f.emin && !(e == f.emin - 1 && nu == 2 ^ (f.mbits + 1))
    let uf : FlagSet := if tiny && inexact then flUF else 0
    let enc : Nat :=
      if n < 2 ^ f.mbits then n
      else ((q + f.mbits + f.bias).toNat <<< f.mbits) + (n - 2 ^ f.mbits)
    if enc ≥ (2 ^ f.ebits - 1) <<< f.mbits then (overflowValue f mode neg, flOF ||| flNX)
    else (f.signBit neg + enc, nx ||| uf)

/-- `round` of R76 on any exact value. A NaN value is canonical (R79); its NV is decided by the operation. -/
def roundVal (f : Fmt) (mode : BitVec 3) : FVal → Nat × FlagSet
  | .nan _ => (f.nan, 0)
  | .inf neg => (f.inf neg, 0)
  | .fin neg man exp => roundFin f mode neg man exp

/-- Whether a value is a signalling NaN (R79). -/
def FVal.isSig : FVal → Bool
  | .nan s => s
  | _ => false
/-- Whether a value is a NaN. -/
def FVal.isNan : FVal → Bool
  | .nan _ => true
  | _ => false
/-- Whether a value is a zero. -/
def FVal.isZero : FVal → Bool
  | .fin _ man _ => man == 0
  | _ => false
/-- The sign of a value; a NaN has none. -/
def FVal.neg : FVal → Bool
  | .nan _ => false
  | .inf n => n
  | .fin n _ _ => n
/-- The value with the opposite sign. -/
def FVal.negate : FVal → FVal
  | .nan s => .nan s
  | .inf n => .inf !n
  | .fin n m e => .fin (!n) m e

/-- A signed integer count of `2^e` for a finite value, with `e` at most the value's own exponent. -/
def scaledInt (neg : Bool) (man : Nat) (exp e : Int) : Int :=
  let m : Int := man <<< (exp - e).toNat
  if neg then -m else m

/-- A finite value from a signed count of `2^e`; an exact zero takes the sign `zneg`. -/
def finOfInt (n e : Int) (zneg : Bool) : FVal :=
  if n == 0 then .fin zneg 0 0 else .fin (n < 0) n.natAbs e

/-- The exact sum of two values under `mode` (R86: the sign of an exact zero), with whether it is invalid. -/
def addVal (mode : BitVec 3) : FVal → FVal → FVal × Bool
  | .nan _, _ => (.nan false, false)
  | _, .nan _ => (.nan false, false)
  | .inf a, .inf b => if a == b then (.inf a, false) else (.nan false, true)
  | .inf a, _ => (.inf a, false)
  | _, .inf b => (.inf b, false)
  | .fin na ma ea, .fin nb mb eb =>
    let e := min ea eb
    let zneg := if na == nb then na else mode == 2
    (finOfInt (scaledInt na ma ea e + scaledInt nb mb eb e) e zneg, false)

/-- The exact product, with whether it is invalid. -/
def mulVal : FVal → FVal → FVal × Bool
  | .nan _, _ => (.nan false, false)
  | _, .nan _ => (.nan false, false)
  | .inf a, b => if b.isZero then (.nan false, true) else (.inf (a != b.neg), false)
  | a, .inf b => if a.isZero then (.nan false, true) else (.inf (a.neg != b), false)
  | .fin na ma ea, .fin nb mb eb => (.fin (na != nb) (ma * mb) (ea + eb), false)

/-- NV when any input is signalling or the operation is invalid (R79). -/
def nvFlag (b : Bool) : FlagSet := if b then flNV else 0

/-- `round(a + b)` (R175). -/
def fAdd (f : Fmt) (mode : BitVec 3) (a b : Nat) : Nat × FlagSet :=
  let x := f.decode a; let y := f.decode b
  let (v, inv) := addVal mode x y
  let (r, fl) := roundVal f mode v
  (r, fl ||| nvFlag (inv || x.isSig || y.isSig))

/-- The encoding with its sign bit inverted. -/
def fNegBits (f : Fmt) (b : Nat) : Nat := b ^^^ 2 ^ (f.ebits + f.mbits)

/-- `round(a - b)` (R175). -/
def fSub (f : Fmt) (mode : BitVec 3) (a b : Nat) : Nat × FlagSet := fAdd f mode a (fNegBits f b)

/-- `round(a * b)` (R175). -/
def fMul (f : Fmt) (mode : BitVec 3) (a b : Nat) : Nat × FlagSet :=
  let x := f.decode a; let y := f.decode b
  let (v, inv) := mulVal x y
  let (r, fl) := roundVal f mode v
  (r, fl ||| nvFlag (inv || x.isSig || y.isSig))

/-- The quotient of two finite values as a value that rounds as the exact one does: a last bit stands for the rest. -/
def divFin (p : Nat) (ma : Nat) (ea : Int) (mb : Nat) (eb : Int) : Nat × Int :=
  let sh := p + 4 + bitLen mb
  let n := ma <<< sh
  let q := n / mb
  (2 * q + (if n % mb == 0 then 0 else 1), ea - eb - sh - 1)

/-- The exact quotient for a precision of `p` bits, with its flags NV and DZ. -/
def divVal (p : Nat) : FVal → FVal → FVal × FlagSet
  | .nan _, _ => (.nan false, 0)
  | _, .nan _ => (.nan false, 0)
  | .inf a, .inf _ => (.nan a, flNV)
  | .inf a, .fin nb _ _ => (.inf (a != nb), 0)
  | .fin na _ _, .inf b => (.fin (na != b) 0 0, 0)
  | .fin na ma ea, .fin nb mb eb =>
    if mb == 0 then (if ma == 0 then (.nan false, flNV) else (.inf (na != nb), flDZ))
    else let (m, e) := divFin p ma ea mb eb; (.fin (na != nb) m e, 0)

/-- `round(a / b)` (R175). -/
def fDiv (f : Fmt) (mode : BitVec 3) (a b : Nat) : Nat × FlagSet :=
  let x := f.decode a; let y := f.decode b
  let (v, fv) := divVal f.mbits x y
  let (r, fl) := roundVal f mode v
  (r, fl ||| fv ||| nvFlag (x.isSig || y.isSig))

/-- The integer square root, bit by bit from bit `k - 1` down. -/
def isqrtFrom : Nat → Nat → Nat → Nat
  | 0, _, r => r
  | k + 1, n, r => let t := r + 2 ^ k; isqrtFrom k n (if t * t ≤ n then t else r)
/-- The integer square root. -/
def isqrt (n : Nat) : Nat := isqrtFrom (bitLen n / 2 + 1) n 0

/-- The square root of a finite value of precision `p`, a last bit standing for the rest. -/
def sqrtFin (p : Nat) (m : Nat) (e : Int) : Nat × Int :=
  let sh0 := 2 * (p + 4)
  let sh := if (e - sh0) % 2 == 0 then sh0 else sh0 + 1
  let n := m <<< sh
  let r := isqrt n
  (2 * r + (if r * r == n then 0 else 1), (e - sh) / 2 - 1)

/-- `round(sqrt a)` (R175). -/
def fSqrt (f : Fmt) (mode : BitVec 3) (a : Nat) : Nat × FlagSet :=
  match f.decode a with
  | .nan s => (f.nan, nvFlag s)
  | .inf false => (f.inf false, 0)
  | .inf true => (f.nan, flNV)
  | .fin neg m e =>
    if m == 0 then (f.signBit neg, 0)
    else if neg then (f.nan, flNV)
    else let (r, e') := sqrtFin f.mbits m e; roundFin f mode false r e'

/-- `round(± a * b ± c)` once (R97, R179); NV for `0 * infinity` whatever the addend holds (R79). -/
def fMulAdd (f : Fmt) (mode : BitVec 3) (negProd negC : Bool) (a b c : Nat) : Nat × FlagSet :=
  let x := f.decode a; let y := f.decode b; let z := f.decode c
  let (p, inv1) := mulVal x y
  let (v, inv2) := addVal mode (if negProd then p.negate else p) (if negC then z.negate else z)
  let (r, fl) := roundVal f mode v
  (r, fl ||| nvFlag (inv1 || inv2 || x.isSig || y.isSig || z.isSig))

/-- Numerical comparison of two values that are not NaNs. -/
def cmpVal : FVal → FVal → Ordering
  | .inf a, .inf b => if a == b then .eq else if a then .lt else .gt
  | .inf a, _ => if a then .lt else .gt
  | _, .inf b => if b then .gt else .lt
  | .fin na ma ea, .fin nb mb eb =>
    let e := min ea eb
    compare (scaledInt na ma ea e) (scaledInt nb mb eb e)
  | _, _ => .eq

/-- The smaller (`max = false`) or larger operand of R176, copied exactly, -0 below +0. -/
def fMinMax (f : Fmt) (isMax : Bool) (a b : Nat) : Nat × FlagSet :=
  let x := f.decode a; let y := f.decode b
  let nv := nvFlag (x.isSig || y.isSig)
  if x.isNan && y.isNan then (f.nan, nv)
  else if x.isNan then (b, nv)
  else if y.isNan then (a, nv)
  else
    let c := match cmpVal x y with
      | .eq => if x.neg == y.neg then Ordering.eq else if x.neg then .lt else .gt
      | o => o
    (if isMax then (if c == .lt then b else a) else (if c == .gt then b else a), nv)

/-- `FEQ` of R176. -/
def fEq (f : Fmt) (a b : Nat) : Bool × FlagSet :=
  let x := f.decode a; let y := f.decode b
  if x.isNan || y.isNan then (false, nvFlag (x.isSig || y.isSig)) else (cmpVal x y == .eq, 0)
/-- `FLT` of R176. -/
def fLt (f : Fmt) (a b : Nat) : Bool × FlagSet :=
  let x := f.decode a; let y := f.decode b
  if x.isNan || y.isNan then (false, flNV) else (cmpVal x y == .lt, 0)
/-- `FLE` of R176. -/
def fLe (f : Fmt) (a b : Nat) : Bool × FlagSet :=
  let x := f.decode a; let y := f.decode b
  if x.isNan || y.isNan then (false, flNV) else (cmpVal x y != .gt, 0)

/-- The class bit of R177. -/
def fClass (f : Fmt) (a : Nat) : Nat :=
  match f.decode a with
  | .nan s => if s then 8 else 9
  | .inf n => if n then 0 else 7
  | .fin n m e =>
    if m == 0 then (if n then 3 else 4)
    else if m < 2 ^ f.mbits && e == f.emin - f.mbits then (if n then 2 else 5)
    else if n then 1 else 6

/-- An integer format of R81: signed or natural, of `width` bits. Its least and greatest values. -/
def intRange (signed : Bool) (width : Nat) : Int × Int :=
  if signed then (-(2 ^ (width - 1)), 2 ^ (width - 1) - 1) else (0, 2 ^ width - 1)

/-- A value rounded to an integer under the mode, and whether that changed it. -/
def roundInt (mode : BitVec 3) (neg : Bool) (man : Nat) (exp : Int) : Int × Bool :=
  let (n, ix) := roundQuantum mode neg man exp 0
  (if neg then -(n : Int) else n, ix)

/-- Conversion of a value to an integer format (R88). -/
def valToInt (mode : BitVec 3) (signed : Bool) (width : Nat) (v : FVal) : Int × FlagSet :=
  let (lo, hi) := intRange signed width
  match v with
  | .nan _ => (0, flNV)
  | .inf n => (if n then lo else hi, flNV)
  | .fin neg man exp =>
    let (n, ix) := roundInt mode neg man exp
    if n < lo then (lo, flNV) else if n > hi then (hi, flNV) else (n, if ix then flNX else 0)

/-- Conversion of an integer to a format (R88). -/
def intToF (f : Fmt) (mode : BitVec 3) (n : Int) : Nat × FlagSet :=
  roundFin f mode (n < 0) n.natAbs 0

/-- Conversion between formats: one rounding; a NaN is canonical and raises NV only when signalling (R180). -/
def fConvert (src dst : Fmt) (mode : BitVec 3) (a : Nat) : Nat × FlagSet :=
  let x := src.decode a
  let (r, fl) := roundVal dst mode x
  (r, fl ||| nvFlag x.isSig)

end Sys2Proof.Machine
end

