-- ==== Sys2Proof/Machine/Event.lean ====
section
/-! DEFINITION. What steps and events act on: packets, requests and internal operations (95_what_each_step_holds.md). -/

namespace Sys2Proof

/-- A release (R197): what the flit carries, and where it goes; `fm` is the mode of the frame that it comes from (R233). -/
structure Release where
  srcDev : BitVec 22
  srcEp : Nat
  recIdx : BitVec 8
  dst : Nat
  dstDev : Option (BitVec 22)
  prio : BitVec 3
  asid : BitVec 16
  gen : BitVec 16
  status : BitVec 16
  detail : BitVec 16
  fm : Bool
  deriving DecidableEq, Repr

/-- A handle register or a handle carried by a request (R112, R186): the words of `HQRY`, and the entry it came from. -/
structure Handle where
  base : Word
  bound : Word
  w2 : Word
  w3 : Word
  asid : BitVec 16
  index : Nat
  deriving DecidableEq, Repr

/-- The value of a result. -/
inductive ResVal where
  | word (v : Word)
  | lanes (tag : Tag) (l : List Half)
  | handle (h : Handle)
  | grant (lanes : Nat) (gmap : BitVec 16) (borrow : Bool)
  deriving DecidableEq, Repr

/-- Cache maintenance operations (R415). -/
inductive CmoKind where
  | flush | clean | inv
  deriving DecidableEq, Repr

/-- What an access does at its owning port (R119, R167-R169); a cache maintenance instruction lists the lines not yet
acknowledged and the dirty acknowledgements so far (R414); a prefetch asks for its line (R163). -/
inductive AccOp where
  | load (n : Nat)
  | store (bytes : List Byte)
  | amo (op : AmoOp) (n : Nat) (b : Word)
  | cas (n : Nat) (expected new : Word)
  | amog (n : Nat) (operand : Word)
  | cmo (k : CmoKind) (lines : List Nat) (dirty : Nat)
  | pf
  deriving DecidableEq, Repr

/-- One access of a frame on its way to its owning port: who issued it, the port, the address there, and the result
that waits for it. `part` is its byte offset within a result made of several accesses, and in a REMOTE `STP` the size of one of its two
elements (R236); `noalloc` and `pin` say how a GLOBAL line allocates (R406); `prio` is the level of who asks (R233). -/
structure Access where
  core : Nat
  win : Nat
  fid : Nat
  asid : BitVec 16
  id : Nat
  space : BitVec 3
  owner : Nat
  addr : Nat
  res : Option Nat
  part : Nat
  noalloc : Bool
  pin : Bool
  op : AccOp
  prio : Nat
  deriving DecidableEq, Repr

/-- A monitor arm request (R213): the word, the condition, and the release to send. -/
structure ArmReq where
  owner : Nat
  space : BitVec 3
  addr : Nat
  d : Bool
  cond : WatchCond
  comparand : Word
  rel : Release
  deriving DecidableEq, Repr

/-- An active message (R248, R249) with the result that waits for its DELIVERY. -/
structure ActiveMsg where
  srcDev : BitVec 22
  src : Nat
  dst : Nat
  dstDev : Option (BitVec 22)
  asid : BitVec 16
  prio : BitVec 3
  fm : Bool
  control : Word
  body : List Word
  win : Nat
  fid : Nat
  uid : Option Nat
  deriving DecidableEq, Repr

/-- What a ready-FIFO entry holds (R205): the release, the pulled record, the descriptor words, the read status, and,
for a delivery, the handler slot and the sender to reply to (R249, R251); for a responder, its census and entry (R345); for a
spawned child, its PATH and its join's scope (R457). -/
structure Entry where
  rel : Release
  record : List Word
  d0 : Word
  d1 : Word
  d2 : Word
  d3 : Word
  descStat : Nat
  lineStat : Nat
  slot : Option (Nat × Nat)
  reply : Option (BitVec 22 × Nat × Nat)
  census : Option (Nat × Nat)
  path : Word
  jscope : Nat
  deriving DecidableEq, Repr

/-- A frame's fault (R38, R215): cause, value, bundle and start-trap mark. -/
structure PFault where
  cause : BitVec 6
  value : Word
  pc : Word
  st : Bool
  deriving DecidableEq, Repr

/-- One firing of a graph node, or one member of it (R436-R438): its engine, slot, generation, node and TRIES, and the record slot that the
member was released from, by which its done message is known; the engine's endpoint for an operation that it requested. -/
structure Firing where
  engine : Nat
  slot : Nat
  gen : Nat
  node : Nat
  tries : Nat
  part : Nat
  deriving DecidableEq, Repr

/-- A fault report (R222) to a task's origin. -/
structure FaultReport where
  core : Nat
  okind : BitVec 4
  otag : BitVec 24
  gen : BitVec 16
  asid : BitVec 16
  ecause : Word
  eval : Word
  epc : Word
  code : BitVec 16
  status : BitVec 16
  deriving DecidableEq, Repr

/-- What a copy engine asks of another device (R381): a read, a write, ownership of a destination range, its end. -/
inductive LinkOp
  | read
  | write (bytes : List Byte)
  | claim
  | claimEnd
  deriving DecidableEq, Repr
/-- A request of a copy engine to another device (R381): the engine and its transfer there, the ASID, the virtual address and how
many bytes from it on, and whether the handle's POLICY is Stream (R114). -/
structure LinkReq where
  srcDev : BitVec 22
  dev : BitVec 22
  engine : Nat
  tid : Nat
  asid : BitVec 16
  addr : Nat
  n : Nat
  op : LinkOp
  noalloc : Bool
  deriving DecidableEq, Repr

/-- A census request (R341): the block, the ASID, the asking core and where its result goes, the successor, the id once LIVE;
`origin` names the device that asks and its id there when the census comes over Fjarlink. -/
structure Solicit where
  words : List Word
  asid : BitVec 16
  asker : Nat
  win : Nat
  fid : Nat
  uid : Option Nat
  rel : Option Release
  origin : Option (BitVec 22 × Nat)
  id : Nat
  fire : Option Firing
  deriving DecidableEq, Repr

/-- An answer to a census (R347): NRESP, NMISS, NFAULT, the flags and the payload. -/
structure Answer where
  nresp : Nat
  nmiss : Nat
  nfault : Nat
  flags : FlagSet
  payload : List Half
  deriving DecidableEq, Repr

/-- A tile on its way to another core (R356): source and its entry, destination, its base, its entry once reserved, the tile's
key, ASID, length, kind word and USER, the successor, the move's name, and the level of its frame. -/
structure TileMove where
  src : Nat
  entry : Nat
  dst : Nat
  base : Nat
  dentry : Option Nat
  key : Word
  asid : BitVec 16
  len : Nat
  kind : Word
  user : Word
  rel : Option Release
  id : Nat
  prio : Nat
  deriving DecidableEq, Repr

/-- A barrier contribution (R363): the node of the scope, the ASID, word 0 of the block, the value, the core with the offset of
its block, the successor, and the result that waits. -/
structure BarReq where
  node : Nat
  asid : BitVec 16
  word0 : Word
  value : Half
  core : Nat
  off : Nat
  rel : Option Release
  win : Nat
  fid : Nat
  uid : Option Nat
  deriving DecidableEq, Repr

/-- What crosses Fjarlink (R260). `census` and `censusAnswer` name the device they go to; `other` is a packet of a class and KIND that no
layout of R234 gives, or that its endpoint does not take. -/
inductive FjPacket where
  | active (m : ActiveMsg)
  | release (r : Release)
  | pull (r : Release)
  | record (r : Release) (words : List Word)
  | delivery (m : ActiveMsg) (status : Nat)
  | census (dev : BitVec 22) (q : Solicit)
  | censusAnswer (dev : BitVec 22) (id place : Nat) (a : Option Answer)
  | linkRequest (q : LinkReq)
  | linkAnswer (q : LinkReq) (status : Nat) (bytes : List Byte)
  | other (cls kind : Nat) (srcDev : BitVec 22) (srcEp : Nat) (dev : BitVec 22) (dst : Nat)
  deriving DecidableEq, Repr

/-- States of a cached line (R398). -/
inductive LState where
  | m | o | e | s | i
  deriving DecidableEq, Repr

/-- Snoop types (R400). -/
inductive SnpType where
  | snpS | snpInv | snpCur | snpCln | backInv
  deriving DecidableEq, Repr

/-- The kinds of request a home takes (R400). -/
inductive HomeKind where
  | rds | rdo | upg | wb | claim | claimWrite | claimEnd | cmo (k : CmoKind) | armReq (q : ArmReq)
  deriving DecidableEq, Repr

/-- A request to a home agent (R400): who asks (agent id, 512 for none) and where the answer goes, the line, the ONCE bit,
data with byte mask and LAST, the claim's range and transfer, how it allocates (R406), the requester's own tag, the level of the frame
that caused it (R233), and whether a trace ring has already taken it (R417). -/
structure HomeReq where
  kind : HomeKind
  agent : Nat
  src : Nat
  asid : BitVec 16
  home : Nat
  line : Nat
  once : Bool
  data : BitVec 1024
  mask : BitVec 128
  last : Bool
  limit : Nat
  tid : Nat
  noalloc : Bool
  pin : Bool
  tag : Nat
  bad : Bool
  prio : Nat
  logged : Bool
  deriving DecidableEq, Repr

/-- What ONCE accesses and claims of an agent that caches no line are for (R381, R409, R496, R502, R509): a host read or write of BAR2,
the store of a SIGNAL, a completion entry of a queue, the next packet of a queue, an access of another device's copy engine at a port. -/
inductive OnceUse where
  | hostRead (addr : Nat)
  | hostWrite
  | signal (q packet : Nat)
  | completion (q packet : Nat)
  | packet (q packet : Nat)
  | link (port : Nat) (q : LinkReq)
  deriving DecidableEq, Repr
/-- Requests to homes made one after the other for one such use: its name, whose it is, the requests still to be made, what has been read,
and whether some of it came poisoned. -/
structure OnceOp where
  id : Nat
  owner : Nat
  todo : List HomeReq
  bytes : List Byte
  bad : Bool
  use : OnceUse
  deriving DecidableEq, Repr

/-- A copy request (R368, R391): its source endpoint and its engine, the four words, the handle copies, the ASID, the
successor as fixed at issue, the frame and result that wait, the barrier it counts in, its name in the core's FIFO, and, for a request that no core issued,
the firing or the host queue and packet that it completes, and the level of who asks (R233). -/
structure CopyReq where
  src : Nat
  engine : Nat
  words : List Word
  sh : Handle
  dh : Handle
  asid : BitVec 16
  rel : Option Release
  win : Nat
  fid : Nat
  uid : Option Nat
  bar : Option Nat
  tag : Nat
  fire : Option Firing
  host : Option (Nat × Nat)
  prio : Nat
  deriving DecidableEq, Repr

/-- A request to a bedrock controller (R385, R391): the groups of a slab, the frame's mode and ASID, the successor, where the
answer goes; `go` is the later word that the instruction took effect and its release condition holds; `host` names a queue and packet;
`reached` are the groups that have reached their state since. -/
structure BedReq where
  close : Bool
  slab : Nat
  groups : BitVec 16
  fm : Bool
  asid : BitVec 16
  rel : Option Release
  src : Nat
  win : Nat
  fid : Nat
  id : Nat
  go : Bool
  host : Option (Nat × Nat)
  reached : BitVec 16
  deriving DecidableEq, Repr

/-- A deque entry (R457): the child's release and record, its PATH, the join it belongs to (index, core, JSCOPE), DOM and H, and
its spawn ordinal. `fire` is the node of a graph engine's push (R435). -/
structure Child where
  rel : Release
  record : List Word
  path : Word
  jscope : Nat
  jcore : Nat
  jidx : Nat
  nj : Bool
  dom : Nat
  hashed : Bool
  ordinal : Nat
  deriving DecidableEq, Repr

/-- A join message (R465): the child's core, the counter, the ASID, the contribution (`none` for the identity) and the fault
flag; `arm` is no message: the release that a `JOIN` performs is done; `prio` is the level of the frame that ended. -/
structure JoinMsg where
  src : Nat
  core : Nat
  idx : Nat
  asid : BitVec 16
  value : Option Word
  flt : Bool
  arm : Bool
  prio : Nat
  deriving DecidableEq, Repr

/-- A guest job (R478-R481): its place in arrival order, its table entry and reuse count once it has one, state by the codes of
R480, the packet, the submitting endpoint, what its completion releases or completes, whether firmware has cancelled it, and whether it received a translation fault. -/
structure GuestJob where
  seq : Nat
  entry : Nat
  reuse : Nat
  st : Nat
  prio : Nat
  asid : BitVec 16
  words : List Word
  src : Nat
  rel : Option Release
  fire : Option Firing
  cancelled : Bool
  faulted : Bool
  deriving DecidableEq, Repr

/-- A state-access window operation (R526): the frame that started it, and the address and data latched. -/
structure WinOp where
  ep : Nat
  win : Nat
  fid : Nat
  addr : Word
  data : Word
  deriving DecidableEq, Repr

/-- A register write: through the window, or by the host in BAR0 with its size in bytes (R498, R526). -/
inductive RegWrite where
  | window (q : WinOp)
  | bar0 (off size : Nat) (v : Word)
  deriving DecidableEq, Repr

/-- A read of counters that clears them: through the window, or by the host in BAR0. -/
inductive RegRead where
  | window (q : WinOp)
  | bar0 (off : Nat)
  deriving DecidableEq, Repr

/-- An event: one constructor per row of the opcode table that is no slot instruction, with its operands. -/
inductive Event where
  -- results and the outbound queue (R41-R44, R172), code (R194)
  | fixedResultWriteback (ep win uid : Nat)
  | variableResultWriteback (ep win fid uid : Nat) (val : ResVal) (fl : FlagSet) (poison : Bool)
  | accessLeavesQueue (ep id : Nat)
  | codeFill (ep : Nat) (asid : BitVec 16) (va : Word)
  -- remote access packets (R236), releases (R200, R235)
  | load (a : Access)
  | store (a : Access)
  | atomic (a : Access)
  | arm (q : ArmReq)
  | armack (q : ArmReq) (refused : Bool)
  | pull (r : Release)
  | record (r : Release) (words : List Word)
  | data (a : Access) (bytes : List Byte) (poison : Bool)
  | release (r : Release)
  | releaseArrival (ep : Nat) (e : Entry)
  -- the frame unit (R204-R229)
  | framePush (ep : Nat)
  | fifoRingMove (ep level : Nat)
  | framePop (ep : Nat)
  | refillComplete (ep : Nat)
  | trapEntry (ep : Nat)
  | frameLost (ep win : Nat)
  | migrationCommit (ep : Nat)
  | forwardPacket (k : Nat)
  | starvationReport (ep level : Nat)
  -- messages and the network (R241-R260)
  | active (m : ActiveMsg)
  | delivery (m : ActiveMsg) (status : Nat)
  | handlerCommit (ep handler : Nat)
  | escapeMove (k router : Nat)
  | routerPacketDiscard (k : Nat)
  | fjarlinkPacket (port : Nat) (p : FjPacket)
  -- streams (R284)
  | streamFill (ep win j : Nat)
  | streamWrite (ep win j : Nat)
  -- matrix array (R309-R326)
  | slotLoadDone (geode slot seq : Nat)
  | slotWrite (engine tid geode slot col off : Nat) (bytes : List Byte)
  | slotWriteAck (engine tid n : Nat)
  | gangFormation (geode : Nat) (seq : Option Nat)
  | passStart (geode : Nat)
  | passStep (geode : Nat)
  | drainJobStart (geode : Nat)
  | drainJobDone (geode : Nat)
  -- census (R341-R363)
  | solicitRequest (q : Solicit)
  | censusLive
  | epochMarkApply (ep mark : Nat)
  | solicitScan (ep asId : Nat) (q : Solicit)
  | coreAnswer (ep asId census : Nat)
  | answerFold (node census child : Nat) (a : Option Answer)
  | remoteCensus (q : Solicit)
  | censusResultWrite (census : Nat)
  | censusComplete (census : Nat)
  | tileReserve (m : TileMove)
  | tileCommit (m : TileMove)
  | tileCommitArrival (m : TileMove) (stamp : Nat) (sv : Bool)
  | barrierContribution (q : BarReq)
  -- copy engines and bedrock (R373-R391)
  | copyRequest (q : CopyReq)
  | copyAcceptance (q : CopyReq) (tid : Nat)
  | copyDeferral (q : CopyReq)
  | copyReady (ep : Nat) (entry : Option Nat)
  | transferBegin (engine tid : Nat)
  | transferComplete (engine tid : Nat)
  | transferFault (engine tid kind addr : Nat)
  | bedrockRequest (q : BedReq)
  | bedrockAnswer (q : BedReq) (code : Nat)
  | groupSealed (slab group : Nat)
  | groupOpened (slab group : Nat)
  | refreshWindow
  | carveoutUpdate (home core launch minw maxw : Nat)
  | carveoutAck (core : Nat)
  | carveoutSample (home : Nat)
  -- coherence (R400-R416)
  | rds (q : HomeReq)
  | rdo (q : HomeReq)
  | upg (q : HomeReq)
  | wb (q : HomeReq)
  | rangeClaim (q : HomeReq)
  | claimwrite (q : HomeReq)
  | claimend (q : HomeReq)
  -- `by'` is the level and the ASID of the request that causes a snoop (R233, R400)
  | snoop (home agent line : Nat) (ty : SnpType) (by' : Nat × BitVec 16)
  | snpresp (home agent line : Nat) (held : LState) (data : Option (BitVec 1024)) (poison noalloc pin : Bool) (by' : Nat × BitVec 16)
  | coherentData (q : HomeReq) (grant : LState) (data : BitVec 1024) (poison : Bool)
  | homeAck (q : HomeReq) (dirty : Bool)
  | cmo (q : HomeReq)
  | transactionTaken (home : Nat)
  | homeRetry (q : HomeReq)
  | replayTimeout (port : Nat)
  | snoopApply (ep : Nat)
  | lineDrop (ep line : Nat)
  | pageWalkDone (ep : Nat) (asid : BitVec 16) (va : Nat)
  | handleEntryRead (ep win : Nat) (asid : BitVec 16) (index : Nat)
  | hostAccessRequest (a : Access)
  | nonPostedReadCompletion (a : Access) (bytes : List Byte) (poison : Bool)
  -- graph engine (R433-R449)
  | graphStart (slot gen slab phase : Nat)
  | graphGo (slot gen slab : Nat)
  | nodeFire (slab : Nat)
  | token (slab slot gen : Nat) (edge : Word) (src : Option Nat)
  | nodeDone (f : Firing) (core status detail : Nat)
  | firingCompletion (f : Firing) (status detail : Nat)
  | cancelWalkStep (slot gen sl : Nat) (todo level seen : List Nat) (cone ended : Bool)
  | instanceEnd (slot gen : Nat) (owner : Option Nat)
  | gangWatchdog (f : Firing)
  | eventResend (slab : Nat)
  | censusResubmit (q : Solicit)
  -- spawn (R461-R471)
  | dequePush (ep : Nat) (c : Child)
  | pushAck (r : Release)
  | joinMessage (m : JoinMsg)
  | stealAttempt (ep : Nat)
  | stealRequest (thief victim : Nat)
  | stealGrant (thief victim : Nat) (c : Option Child)
  | terminationWave (ep : Nat)
  | waveAnswer (ep child : Nat) (idle : BitVec 16) (sent recv : List Nat)
  | terminationReport (slot : Nat)
  -- guest socket (R480-R492)
  | guestSubmission (j : GuestJob)
  | jobDelivery
  | preemptionAnswer (level : Nat)
  | guestCompletion (job gst code : Nat) (va : Word)
  | translationRequest (job : Nat) (va : Word) (write atomic : Bool)
  | invalidationAnswer (grant : Nat)
  | poisonReport (line : Nat)
  | guestIdentity (vendor part credits modules watts : Nat)
  | trainingTimeout (modules : Nat)
  | dutyTimeout (reason : Nat)
  | powerReport (watts : Nat)
  -- host port and front end (R496-R509)
  | tailDoorbell (q : Nat) (v : BitVec 32)
  | cheadDoorbell (q : Nat) (v : BitVec 32)
  | queueEnable (q : Nat)
  | queueDestroy (q : Nat)
  | doorbellEvent (q : Nat) (chead : Bool) (v : BitVec 32)
  | queueControlEvent (q off : Nat) (v : Word)
  | queueRead (q : Nat)
  | queueData (q packet : Nat) (words : List Word) (poison : Bool)
  | completionWrite (q packet status detail : Nat)
  | completionAck (q : Nat)
  | registerStateUpdate (q : Nat)
  | launchRoot (q : Nat)
  | launchGraph (q : Nat)
  | queueCopy (q : Nat)
  | signal (q : Nat)
  | waitQueue (q : Nat)
  | bedrockOpen (q : Nat)
  | bedrockSeal (q : Nat)
  | swapAsid (q : Nat)
  | quantumExpiry
  | packetPrefetch (q k : Nat)
  | bar2Read (addr n : Nat)
  | bar2Write (addr : Nat) (bytes : List Byte)
  -- the module (R515-R523)
  | moduleReset
  | deviceIdAssign (id : BitVec 22)
  | throttleEvaluation (watts temp die : Nat)
  | thermalTrip
  | lmScrub (ep corrected : Nat)
  | getVersion
  | getCapabilities
  | negotiateAlgorithms
  | getDigests
  | getCertificate (off n : Nat)
  | challenge (nonce : List Byte)
  | getMeasurements (index : Nat) (nonce : List Byte)
  -- the state-access window (R4, R525, R526)
  | sawRead (q : WinOp)
  | sawDone (q : WinOp) (err : Nat)
  | registerWrite (w : RegWrite)
  | clearOnRead (r : RegRead)
  | hcinv (q : WinOp)
  | tlbinv (q : WinOp) (range : Option Word)
  | icinv (q : WinOp)
  | corereset (q : WinOp)
  | gfclear (q : WinOp)
  | recbusyClear (q : WinOp)
  | monitorFree (q : WinOp)
  | lquotaWrite (q : WinOp)
  | cmaskWrite (q : WinOp)
  | slotstEmpty (q : WinOp)
  | settagFree (q : WinOp)
  | svclear (q : WinOp)
  | censend (q : WinOp)
  | barfree (q : WinOp)
  | cancel (q : WinOp)
  | rrctlWrite (q : WinOp)
  | rrpush (q : WinOp)
  | rrpop (q : WinOp)
  | slotend (q : WinOp)
  | joinctrFree (q : WinOp)
  | tslotFree (q : WinOp)
  | gctlFence (q : WinOp)
  | gctlRetrain (q : WinOp)
  | jobcancel (q : WinOp)
  deriving DecidableEq, Repr

end Sys2Proof
end

