-- ==== Sys2Proof/Machine/State.lean ====
section
/-! DEFINITION. The state of the module as plain data: every piece of state the spec gives (INVENTORY.md, State), the
model's own fields, and the machine right after reset. -/

namespace Sys2Proof.Machine

/-- A sparse map by number: keys strictly rising. -/
abbrev SMap (α : Type) := List (Nat × α)

/-- The value at a key, or the default of an unlisted key. -/
def SMap.get {α : Type} (d : α) : SMap α → Nat → α
  | [], _ => d
  | (i, v) :: m, k => if i == k then v else SMap.get d m k

/-- The value listed at a key. -/
def SMap.find {α : Type} : SMap α → Nat → Option α
  | [], _ => none
  | (i, v) :: m, k => if i == k then some v else SMap.find m k

/-- The map with one key set; the keys stay in rising order. -/
def SMap.put {α : Type} : SMap α → Nat → α → SMap α
  | [], k, v => [(k, v)]
  | (i, w) :: m, k, v =>
    if k < i then (k, v) :: (i, w) :: m else if k == i then (k, v) :: m else (i, w) :: SMap.put m k v

/-- The map without one key. -/
def SMap.del {α : Type} (m : SMap α) (k : Nat) : SMap α := m.filter (fun p => p.1 != k)

/-- The state of a window (R223), with its code. -/
inductive FState where
  | free | running | parked | preempted | trapped | ending | lost | faulting
  deriving DecidableEq, Repr

/-- Why a frame is parked or held (R11). -/
inductive Hold where
  | none | results | queue | answer | refill | streamEmpty (j : Nat) | streamFull (j : Nat) | copyFifo
  deriving DecidableEq, Repr

/-- Where a result goes when it is written back. -/
inductive Dst where
  | none
  | x (r : Reg) (signed : Bool) (n : Nat)
  | f (r : Reg)
  | h (r : HReg)
  | v (r : Reg) (tag : Tag)
  | csr (n : BitVec 12)
  | lanes (rd : Reg)
  deriving DecidableEq, Repr

/-- An outstanding result (R41-R44): `due` is the cycle from which a fixed-latency result is visible, `none` for a
variable one; `order` is its place in issue order; `parts` gathers the pieces of a remote vector load; `dead` marks a value
that a younger write-back has overtaken, `bad` one of whose pieces one came poisoned (R219); `sid` names the write stream that
it enters, 0 for none (R284). -/
structure Result where
  uid : Nat
  order : Nat
  dst : Dst
  due : Option Nat
  val : ResVal
  flags : FlagSet
  parts : List (Nat × List Byte)
  need : Nat
  dead : Bool
  bad : Bool
  sid : Nat
  deriving DecidableEq, Repr

/-- An entry of a stream (R284): its image, the result that it is, and whether what was read holds an uncorrectable error (R219). -/
structure StreamEnt where
  uid : Nat
  bytes : List Byte
  bad : Bool
  deriving DecidableEq, Repr

/-- A stream binding of `v28` to `v31` (R282-R285): the descriptor words, the next step to be consumed or produced, the
fetched entries of a read stream (head first) or the unwritten entries of a write stream (oldest first), and the name of the binding. -/
structure Stream where
  bound : Bool
  write : Bool
  w0 : Word
  w1 : Word
  w2 : Word
  pos : Nat
  buf : List StreamEnt
  sid : Nat
  deriving DecidableEq, Repr

/-- What a task was started for besides its record: the responder's open row (R346). -/
structure Responder where
  census : Nat
  entry : Nat
  partIdx : Nat
  responded : Bool
  deriving DecidableEq, Repr

/-- What a bundle held at issue for an answer, or for a place in the copy FIFO, has read of its frame's registers (R11, R36); `v` holds the lanes of `v0` to `v31`, `succ` the
successor as it was fixed then (R199). -/
structure Latch where
  x : Vector Word 32
  f : Vector Word 16
  h : Vector Handle 8
  tags : Vector Tag 32
  fcsr : Word
  poisonX : BitVec 32
  poisonF : BitVec 16
  poisonH : BitVec 8
  poisonV : BitVec 32
  v : List (List Half)
  succ : Option Release
  deriving DecidableEq, Repr

/-- One register window (R189, R192, R231, R301). `spilling` says that a spill of its rows waits for its results and streams (R268). -/
structure Frame where
  st : FState
  remembered : FState
  trapFrame : Bool
  fid : Nat
  pc : Word
  x : Vector Word 32
  f : Vector Word 16
  h : Vector Handle 8
  tags : Vector Tag 32
  streams : Vector Stream 4
  fcsr : Word
  level : BitVec 3
  asid : BitVec 16
  vlen : Word
  spilled : Bool
  spilling : Bool
  ecause : Word
  eval : Word
  epc : Word
  sawctl : Word
  sawaddr : Word
  sawdata : Word
  rel : Release
  record : List Word
  desc : List Word
  descStat : Nat
  lineStat : Nat
  segBase : Nat
  segEnd : Nat
  poisonX : BitVec 32
  poisonF : BitVec 16
  poisonH : BitVec 8
  poisonV : BitVec 32
  outs : List Result
  pending : Option PFault
  hold : Hold
  waiting : Bool
  answer : Option (List Word)
  latch : Option Latch
  path : Word
  ordinal : BitVec 64
  slot : Option (Nat × Nat)
  reply : Option (BitVec 22 × Nat × Nat)
  responder : Option Responder
  mdesc : Option (List Word)
  arrayDone : Bool
  jscope : Nat
  deriving DecidableEq, Repr

/-- An empty handle register: V = 0 (R115). -/
def Handle.empty : Handle := Handle.mk 0 0 0 0 0 0
/-- A release of nothing, the content of an unused field. -/
def Release.empty : Release := Release.mk 0 0 0 0 none 0 0 0 0 0 false
/-- An unbound stream. -/
def Stream.unbound : Stream := Stream.mk false false 0 0 0 0 [] 0

/-- A FREE window (every register of R192 and R231 zero). -/
def Frame.free : Frame where
  st := .free
  remembered := .free
  trapFrame := false
  fid := 0
  pc := 0
  x := Vector.replicate 32 0
  f := Vector.replicate 16 0
  h := Vector.replicate 8 Handle.empty
  tags := Vector.replicate 32 .raw
  streams := Vector.replicate 4 Stream.unbound
  fcsr := 0
  level := 0
  asid := 0
  vlen := 0
  spilled := false
  spilling := false
  ecause := 0
  eval := 0
  epc := 0
  sawctl := 0
  sawaddr := 0
  sawdata := 0
  rel := Release.empty
  record := []
  desc := []
  descStat := 0
  lineStat := 0
  segBase := 0
  segEnd := 0
  poisonX := 0
  poisonF := 0
  poisonH := 0
  poisonV := 0
  outs := []
  pending := none
  hold := .none
  waiting := false
  answer := none
  latch := none
  path := 0
  ordinal := 0
  slot := none
  reply := none
  responder := none
  mdesc := none
  arrayDone := false
  jscope := 0

/-- What an entry of the outbound access queue is (R172, R203): an access with its ordering, a fence, or a release that
waits for the frame's earlier covered accesses and then sends `events`. -/
inductive QItem where
  | access (a : Access) (ord : MemOrd)
  | fence (kind : FenceKind) (scope : Scope)
  | release (scope : Scope) (events : List (Nat × Nat × Nat × Event))
  deriving DecidableEq, Repr

/-- An entry of the outbound access queue. It stays listed, with `left`, until it is performed. Accesses of one instruction share
`grp`, and one entry of R172; with `seqd` they leave in order (R162). -/
structure QEnt where
  id : Nat
  fid : Nat
  win : Nat
  item : QItem
  left : Bool
  grp : Nat
  seqd : Bool
  deriving DecidableEq, Repr

/-- A write stream of a frame, unbound with entries still to be written (R271, R286); after a `VSFREE` they go before later LOCAL
accesses of the frame, those named from `since` on. -/
structure Closing where
  fid : Nat
  win : Nat
  stream : Stream
  first : Bool
  since : Nat
  deriving DecidableEq, Repr

/-- An armed monitor (R213, R230). -/
structure Monitor where
  idx : Nat
  q : ArmReq
  deriving DecidableEq, Repr

/-- A handler entry (R249): state 0 EMPTY, 1 BOUND, 2 SWAPPING; the results that wait for a commit. -/
structure Handler where
  kind : Word
  asid : BitVec 16
  state : BitVec 2
  head : Nat
  rxlog2 : Nat
  rxbase : Nat
  busy : BitVec 64
  staged : Word
  waiters : List (Nat × Nat × Nat)
  deriving DecidableEq, Repr

/-- An EMPTY handler entry. -/
def Handler.empty : Handler := Handler.mk 0 0 0 0 0 0 0 0 []

/-- A line of a core's instruction cache (R148), 128 bytes. -/
structure ILine where
  asid : BitVec 16
  va : Nat
  words : List Word
  deriving DecidableEq, Repr

/-- A migration under way (R226): destination, and the release to send at the end. -/
structure Migration where
  dst : Nat
  rel : Release
  lost : Bool
  deriving DecidableEq, Repr

/-- A cached line of a memory core (R398), and how the access that brought it lets the LLC allocate it (R406). -/
structure CLine where
  st : LState
  data : BitVec 1024
  poison : Bool
  noalloc : Bool
  pin : Bool
  deriving DecidableEq, Repr

/-- The data cache of a memory core (R366, R402, R405): lines by physical line address, accesses that wait for a grant,
the write-back buffer, and the snoops answered but not yet applied. -/
structure DCache where
  lines : SMap CLine
  pend : List (Access × Nat × Bool × Bool)
  wbuf : SMap CLine
  snoops : List (Nat × SnpType)
  deriving DecidableEq, Repr
/-- An empty data cache. -/
def DCache.reset : DCache := DCache.mk [] [] [] []

/-- A trace ring (R417-R424): RRCTL, the entries (head first), the arrivals held in the reorder buffer, DIVERGED, the next
SEQ and RRPUSH0. -/
structure TraceRing where
  ctl : Word
  entries : List (Word × Word)
  rob : List (Nat × Event)
  diverged : Bool
  seq : Nat
  push0 : Word
  deriving DecidableEq, Repr
/-- A trace ring with its mode off. -/
def TraceRing.reset : TraceRing := TraceRing.mk 0 [] [] false 0 0

/-- A TLB entry (R125): ASID, page base, page bits and the leaf entry. -/
structure TlbEntry where
  asid : BitVec 16
  page : Nat
  bits : Nat
  pte : Word
  deriving DecidableEq, Repr

/-- A line of an LLC slice (R396, R407); `pin` says that it lies in a way of the carve-out (R129). -/
structure LLine where
  data : BitVec 1024
  dirty : Bool
  poison : Bool
  pin : Bool
  deriving DecidableEq, Repr

/-- A snoop-filter entry (R399): state 1 S, 2 EX, 3 O; owner; up to three sharers, or the coarse vector. -/
structure SfEntry where
  line : Nat
  state : Nat
  owner : Nat
  ptrs : List Nat
  coarse : Option (BitVec 17)
  deriving DecidableEq, Repr

/-- A transaction in progress at a home (R401, R403): the request, the (agent, line) pairs whose SnpResp is awaited, the
states they answered, whether dirty data came, and the lines that are BUSY with it. A back-invalidation (R408) is a
transaction with `victim`, whose request waits. -/
structure Txn where
  q : HomeReq
  waiting : List (Nat × Nat)
  answers : List (Nat × LState)
  dirtySeen : Bool
  got : Option (BitVec 1024)
  poison : Bool
  lines : List Nat
  victim : Option Nat
  deriving DecidableEq, Repr

/-- A range claim (R410). -/
structure ClaimRec where
  base : Nat
  limit : Nat
  prog : Nat
  agent : Nat
  tid : Nat
  accepted : Bool
  deriving DecidableEq, Repr

/-- A home agent with its LLC slice (R396-R424, R129-R131). -/
structure Home where
  llc : SMap LLine
  sf : List SfEntry
  txns : List Txn
  buf : List HomeReq
  recallq : List HomeReq
  claims : List ClaimRec
  monitors : List Monitor
  binvcnt : Nat
  retrycnt : Nat
  snpcnt : Nat
  trace : TraceRing
  carve : Nat
  carveMin : Nat
  carveMax : Nat
  pinMiss : Nat
  ordMiss : Nat
  lastPin : Nat
  lastOrd : Nat
  deriving DecidableEq, Repr
/-- A home agent right after reset. -/
def Home.reset : Home := Home.mk [] [] [] [] [] [] [] 0 0 0 TraceRing.reset 0 0 0 0 0 0 0

/-- A leaf of the termination tree (R469, R470): its copy of the slot table, and what it sent and received per slot. -/
structure Leaf where
  tmap : Vector (BitVec 32) 16
  sent : Vector Nat 16
  recv : Vector Nat 16
  deriving DecidableEq, Repr
/-- A leaf with no slot. -/
def Leaf.reset : Leaf := Leaf.mk (Vector.replicate 16 0) (Vector.replicate 16 0) (Vector.replicate 16 0)

/-- A grant of the guest (R484, R485): its index, the pages it maps, its permissions, its job's ASID, whether an invalidation
of it is outstanding, and whether its page is NS (R123). -/
structure Grant where
  idx : Nat
  page : Nat
  size : Nat
  pa : Nat
  write : Bool
  atomic : Bool
  asid : BitVec 16
  inval : Bool
  ns : Bool
  deriving DecidableEq, Repr
/-- An entry of the guest fault log (R484). -/
structure GuestFault where
  job : Nat
  kind : Nat
  asid : BitVec 16
  va : Word
  deriving DecidableEq, Repr
/-- The guest socket (R476-R494): state by the codes of R487, fence reason, EN, identity, power, the job table with the count of
reuses of each entry, the pending pre-emption request, grants, fault log and FENCECNT; `hot` after a THROTTLE, and `tlbops` the
window commands that wait for an invalidation to be answered; `draws` the last ten reports of draw, newest first. The record of R477
shows what was known at boot: `vendor`, `part`, `jobcred`, `watts`, and in `bmods` the UCIe modules; `credits` are the guest's own. -/
structure Guest where
  state : Nat
  reason : Nat
  en : Bool
  vendor : Nat
  part : Nat
  credits : Nat
  jobcred : Nat
  modules : Nat
  watts : Nat
  cap : Nat
  draws : List Nat
  bmods : Nat
  hot : Bool
  jobs : List GuestJob
  reuses : SMap Nat
  seq : Nat
  preempt : Option Nat
  grants : List Grant
  faults : SMap GuestFault
  faultIdx : Nat
  fencecnt : Nat
  tlbops : List (WinOp × List Nat)
  deriving DecidableEq, Repr
/-- The socket right after reset, with no guest chiplet (R487, R494). -/
def Guest.reset : Guest := Guest.mk 0 0 false 0 0 0 0 0 0 150 [] 0 false [] [] 0 none [] [] 0 0 []
/-- A tile entry (R337, R365): state 1 RESIDENT, 2 MOVING, 3 INCOMING; `peer` is the other core of a move, `moved` the bytes
acknowledged, `move` the move under way. -/
structure Tile where
  st : Nat
  key : Word
  asid : BitVec 16
  base : Nat
  len : Nat
  kind : Word
  user : Word
  stamp : Nat
  sv : Bool
  live : Nat
  removed : Bool
  peer : Nat
  moved : Nat
  move : Option TileMove
  deriving DecidableEq, Repr
/-- An open census row of a port (R347, R365): the census, the core id it answers for, counts, responders outstanding, and the
payloads with the frame that gave each, in order of `RESPOND`, and whether it has ended. -/
structure OpenRow where
  row : Nat
  q : Solicit
  asId : Nat
  nresp : Nat
  nmiss : Nat
  nfault : Nat
  left : Nat
  pays : List (Nat × List Half × Bool)
  deriving DecidableEq, Repr
/-- A census port (R337, R345-R361): directory, open rows, LASTEPOCH, solicits and marks held during a migration, and the responders'
releases that have still to arrive, one a cycle. -/
structure CensusPort where
  dir : SMap Tile
  rows : List OpenRow
  lastEpoch : Nat
  held : List Event
  spawned : List Entry
  deriving DecidableEq, Repr
/-- A census port right after reset. -/
def CensusPort.reset : CensusPort := CensusPort.mk [] [] 0 [] []
/-- A census under way at a node of the tree (R350): the children that must answer, and the answers so far. -/
structure NodeCensus where
  id : Nat
  need : List Nat
  got : SMap Answer
  deriving DecidableEq, Repr
/-- An open barrier of a node (R363). -/
structure Barrier where
  idx : Nat
  asid : BitVec 16
  word0 : Word
  joined : List BarReq
  deriving DecidableEq, Repr
/-- A node of the census tree: geode combiner, slab root or module root (R350, R363). -/
structure Combiner where
  under : List NodeCensus
  bars : List Barrier
  deriving DecidableEq, Repr
/-- A node with nothing under way. -/
def Combiner.reset : Combiner := Combiner.mk [] []
/-- A census at the module root (R362): its slot, 2 LIVE or 3 WRITING, the request, the result's answer and the unreachable
mask, the stores awaited; the slab roots and devices that answered, once all have. -/
structure CensusSlot where
  slot : Nat
  st : Nat
  q : Solicit
  answer : Answer
  unreach : Nat
  acks : Nat
  roots : Nat
  deriving DecidableEq, Repr
/-- The module census root (R343, R344): NEXTCID, the LIVE and WRITING censuses, the queue, and the releases of barriers that
wait for their result store, by access. -/
structure CensusRoot where
  nextId : Nat
  slots : List CensusSlot
  queue : List Solicit
  stores : List (Nat × Option Release × Nat)
  deriving DecidableEq, Repr
/-- The module census root right after reset. -/
def CensusRoot.reset : CensusRoot := CensusRoot.mk 0 [] [] []

/-- An entry of a core's copy FIFO (R373): whether its release condition holds, and whether it has been sent. -/
structure CopyEnt where
  id : Nat
  q : CopyReq
  ready : Bool
  sent : Bool
  deriving DecidableEq, Repr
/-- A copy barrier (R380). -/
structure CopyBar where
  count : Nat
  done : Bool
  flt : Bool
  deriving DecidableEq, Repr
/-- The copy state of a core (R373, R380): FIFO, barriers, ROT. -/
structure CopyPort where
  fifo : List CopyEnt
  bars : Vector CopyBar 32
  rot : Nat
  deriving DecidableEq, Repr
/-- Copy state right after reset. -/
def CopyPort.reset : CopyPort := CopyPort.mk [] (Vector.replicate 32 (CopyBar.mk 0 false false)) 0
/-- A join counter (R459, R460): state 0 FREE, 1 OPEN, 2 ARMED; `word` is the continuation's successor word, `rdy` whether the
release that `JOIN` performs is done. -/
structure JoinCtr where
  st : Nat
  rdy : Bool
  flt : Bool
  jscope : Nat
  op : Nat
  asid : BitVec 16
  pending : Nat
  value : Word
  word : Word
  cont : Option Release
  deriving DecidableEq, Repr
/-- A FREE join counter. -/
def JoinCtr.free : JoinCtr := JoinCtr.mk 0 false false 0 0 0 0 0 0 none
/-- A core's spawn unit (R457-R467, R475): the deque, oldest first, each entry with its place in the overflow ring when it lies
there; DQCFG, STEALCFG, STEALCNT, the steal attempts since idle, the LFSR (its reset value is log entry
4's), the victims of the attempt under way (the first is being asked; 4096 and 4097 stand for a draw in the slab and in another), the
join counters. -/
structure SpawnUnit where
  deque : List (Child × Option Nat)
  cfg : Word
  steal : Word
  granted : Nat
  received : Nat
  attempts : Nat
  lfsr : BitVec 16
  victims : List Nat
  joins : Vector JoinCtr 64
  deriving DecidableEq, Repr
/-- A spawn unit right after reset (R475). -/
def SpawnUnit.reset : SpawnUnit := SpawnUnit.mk [] 0 0x0000004000080001 0 0 0 0 [] (Vector.replicate 64 JoinCtr.free)
/-- A termination slot (R469, R471): state 0 FREE, 1 RUNNING, 2 DONE; ASID and DET; waves since the last change; the last wave's
sums and whether it found every leaf idle; the host queue and packet of its launch, and the fault it reports (R504). -/
structure TSlot where
  st : Nat
  asid : BitVec 16
  det : Bool
  waves : Nat
  idle : Bool
  sent : Nat
  recv : Nat
  host : Option (Nat × Nat)
  fault : Option (Nat × Nat)
  deriving DecidableEq, Repr
/-- A FREE termination slot. -/
def TSlot.free : TSlot := TSlot.mk 0 0 false 0 false 0 0 none none
/-- A wave gathering at a node of the termination tree (R471): the nodes whose answers are awaited, the idle bits, the sums. -/
structure Wave where
  left : List Nat
  idle : BitVec 16
  sent : List Nat
  recv : List Nat
  deriving DecidableEq, Repr
/-- The termination tree (R471): the slots at the module root, and the waves under way by node endpoint. -/
structure Termination where
  slots : Vector TSlot 16
  waves : SMap Wave
  deriving DecidableEq, Repr
/-- The termination tree right after reset. -/
def Termination.reset : Termination := Termination.mk (Vector.replicate 16 TSlot.free) []

/-- A busy record slot of a graph engine (R435): the record, the target core, the node and slot it fires. -/
structure RecSlot where
  words : List Word
  target : Nat
  node : Nat
  slot : Nat
  deriving DecidableEq, Repr
/-- An undelivered node event of a graph engine (R446): its name, body and ASID, and whether an attempt is out. -/
structure NodeEvent where
  id : Nat
  words : List Word
  asid : BitVec 16
  out : Bool
  deriving DecidableEq, Repr
/-- A graph engine (R425-R456): record slots, READY nodes in order (slot, generation, node), undelivered events, GEFEROUTE, STALECNT, WDOGCNT, NODESEL, and its termination leaf. -/
structure Graph where
  recs : SMap RecSlot
  ready : List (Nat × Nat × Nat)
  events : List NodeEvent
  feroute : Word
  stale : Nat
  wdogcnt : Nat
  nodesel : Word
  leaf : Leaf
  deriving DecidableEq, Repr
/-- A graph engine right after reset (R456). -/
def Graph.reset : Graph := Graph.mk [] [] [] 0 0 0 0 Leaf.reset
/-- A node's entry (R431, R447) as its engine holds it: state, firings done, TRIES, CANC, RAN, the last fault, one-shot tokens
missing, port counts; for a firing, the members not yet done, the streaming deliveries not yet applied, whether one was refused,
whether the gang has formed, whether the firing repeats a faulted one, and a fault that waits for room for its event. -/
structure NodeEnt where
  st : Nat
  firings : Nat
  tries : Nat
  canc : Bool
  ran : Bool
  fstatus : Nat
  fdetail : Nat
  missing : Nat
  ports : List Nat
  members : List Nat
  awaited : Nat
  refused : Bool
  formed : Bool
  again : Bool
  fault : Option (Nat × Nat)
  deriving DecidableEq, Repr
/-- A graph instance slot (R430, R448): state 0 FREE, 1 LIVE, 2 ENDING; GEN; the words of its run block; its successor or the host
packet it completes; the state area of the run before; whether the area is to be initialised; the table as read; the engines whose
validation, or final counts once nodes fire, the master awaits; the engines that own nodes; whether the table broke the rules; whether
nodes fire (R433); the entries of this generation that the state area held when the slot became LIVE (R432). -/
structure Inst where
  st : Nat
  gen : Nat
  asid : BitVec 16
  words : List Word
  succ : Option Release
  host : Option (Nat × Nat)
  prevArea : Option Word
  fresh : Bool
  hdr : List Word
  recs : SMap (List Word)
  edges : List Word
  nodes : SMap NodeEnt
  acks : List Nat
  owners : List Nat
  broken : Bool
  went : Bool
  held : SMap (List Word)
  deriving DecidableEq, Repr
/-- A FREE slot of generation 0. -/
def Inst.reset : Inst := Inst.mk 0 0 0 [] none none none false [] [] [] [] [] [] false false []
/-- A live launch (R130): its queue and packet in one number, its ASID, and its carve-out pair; oldest first in the list. -/
structure Launch where
  id : Nat
  asid : BitVec 16
  minw : Nat
  maxw : Nat
  deriving DecidableEq, Repr

/-- A host queue (R500-R506): the RW registers; TAIL and CHEAD as last accepted and as last written; firmware's view of STATE by the
codes of R505, SLOT, DONE, the next packet to dispatch, the packets dispatched and not completed, the packet in dispatch with its
words, a WAIT_QUEUE that holds dispatch (packet, queue, N), when it became WAITING and when it was MAPPED, whether its slot is
to be taken back; the completions written; and the fields the host reads. -/
structure Queue where
  qbase : Word
  cbase : Word
  en : Bool
  log2 : Nat
  inten : Bool
  vec : Nat
  asid : BitVec 16
  tail : Nat
  chead : Nat
  st : Nat
  slot : Option Nat
  done : Nat
  next : Nat
  inflight : List (Nat × Word)
  cur : Option (Nat × List Word)
  waits : Option (Nat × Nat × Nat)
  waitSeq : Nat
  mapSeq : Nat
  epoch : Nat
  evict : Bool
  written : Nat
  vState : Nat
  vSlot : Option Nat
  vDone : Nat
  deriving DecidableEq, Repr
/-- A DISABLED queue (R501). -/
def Queue.reset : Queue := Queue.mk 0 0 false 4 false 0 0 0 0 0 none 0 0 [] none none 0 0 0 false 0 0 none 0
/-- What a copy of the boot marker says (R513): SEQ and SLOT. -/
structure Marker where
  seq : Nat
  slot : Nat
  deriving DecidableEq, Repr
/-- An image or the configuration table in flash (R513): the public key and signature of its header, 64 bytes each, its IMGSEQ, the trap
entry and version it carries, whether it faults at start, and its bytes with the physical addresses that they are copied to (R515). -/
structure Image where
  key : List Byte
  sig : List Byte
  imgseq : Nat
  trapvec : Word
  version : Nat
  faults : Bool
  segs : List (Nat × List Byte)
  deriving DecidableEq, Repr
/-- The configuration table (R510). -/
structure ConfigTable where
  header : Image
  cols : List (Nat × Nat × Nat)
  roles : SMap Nat
  feroute : Nat
  quantum : Nat
  starve : Nat
  fixedId : Option (BitVec 22)
  deriving DecidableEq, Repr
/-- Flash and fuses (R513, R523, R524, R28): what the module reads at boot, the marker copies as their 128 bytes and the fused hash of the
public key among it, with the routing tables that firmware sets and the ports
and lanes that train (R515, R517; log entry 42). -/
structure Flash where
  marker0 : List Byte
  marker1 : List Byte
  keyHash : List Byte
  imageA : Image
  imageB : Image
  config : ConfigTable
  minSeq : Nat
  serial : Word
  i3c : Nat
  idhash : List Byte
  certs : List Byte
  guest : Bool
  geoen : BitVec 512
  bedoff : BitVec 64
  regionrt : SMap Nat
  localrt : SMap Nat
  links : List (Nat × Nat)
  deriving DecidableEq, Repr
/-- An erased image. -/
def Image.blank : Image := Image.mk [] [] 0 0 0 false []
/-- The configuration table of the defaults (R510). -/
def ConfigTable.default : ConfigTable := ConfigTable.mk Image.blank (List.replicate 4 (7, 0, 2)) [] 56 100 0 none
/-- Blank flash: nothing verifies; no guest chiplet; every geode and bedrock group enabled. -/
def Flash.blank : Flash :=
  Flash.mk [] [] [] Image.blank Image.blank ConfigTable.default 0 0 0 [] [] false (BitVec.allOnes 512) 0 [] [] []
/-- The front end and host port (R499, R501, R505-R511). -/
structure FrontEnd where
  boot : Nat
  bslot : Nat
  cfgdef : Bool
  booterr : Nat
  dberr : Nat
  bar2err : Nat
  queues : SMap Queue
  seq : Nat
  epoch : Nat
  vActive : Nat
  quantum : Nat
  fecore : Nat
  roles : SMap Nat
  msix : SMap Byte
  msixPend : List Nat
  markerSeq : Nat
  fwversion : Nat
  links : List (Nat × Nat)
  deriving DecidableEq, Repr
/-- The front end right after reset (R499). -/
def FrontEnd.reset : FrontEnd := FrontEnd.mk 0 0 false 0 0 0 [] 0 0 0 100 56 [] [] [] 0 0 []
/-- What belongs to the module as a whole (R510-R526): the firmware column, the map that Fjarlink ports apply (R246), the routing
tables of Fjarlink, power registers, CECNT, TLBRANGE, whether the module has tripped, flash. -/
structure Package where
  slabcol : Word
  cols : Word
  portmap : BitVec 512
  regionrt : SMap Nat
  localrt : SMap Nat
  pwrcap : Nat
  pwrnow : Nat
  throt : Nat
  temp : Nat
  die : Nat
  cecnt : Nat
  tlbrange : Word
  tripped : Bool
  flash : Flash
  deriving DecidableEq, Repr
/-- The module right after reset (R521, R525; log entry 4). -/
def Package.reset : Package := Package.mk 0x40404040 0x7777 0 [] [] 2400 0 0 0 0 0 0 false Flash.blank

/-- A piece of a transfer's destination, physically contiguous: offset within the request, physical address, bytes, and whether its
page is NS. -/
structure Extent where
  off : Nat
  pa : Nat
  len : Nat
  ns : Bool
  deriving DecidableEq, Repr
/-- A claim of a transfer (R410): its home, its range. -/
structure ClaimReq where
  home : Nat
  base : Nat
  limit : Nat
  deriving DecidableEq, Repr
/-- An accepted transfer (R374): slot, identifier, whether ACTIVE and begun, bytes written, destination extents, the claims to
send, those held, the ClaimEnds awaited, whether an answer is awaited, and how it ends once it stops (status, detail). -/
structure Transfer where
  slot : Nat
  id : Nat
  active : Bool
  begun : Bool
  q : CopyReq
  off : Nat
  dmap : List Extent
  toClaim : List ClaimReq
  held : List ClaimReq
  ends : Nat
  busy : Bool
  stop : Option (Nat × Nat)
  deriving DecidableEq, Repr
/-- A fault log entry (R376, R392). -/
structure FaultEnt where
  id : Nat
  kind : Nat
  addr : Nat
  off : Nat
  asid : BitVec 16
  deriving DecidableEq, Repr
/-- A copy engine (R367-R376, R391, R392): transfers, next identifier, bytes written, fault log of 64 and its next index, the
cores it deferred and where its round robin stands, TLB. -/
structure Engine where
  xfers : List Transfer
  nextId : Nat
  bytes : Nat
  log : SMap FaultEnt
  logIdx : Nat
  deferred : List Nat
  rr : Nat
  tlb : List TlbEntry
  deriving DecidableEq, Repr
/-- A copy engine right after reset. -/
def Engine.reset : Engine := Engine.mk [] 0 0 [] 0 [] 0 []

/-- A bedrock group (R383, R395): state (0 OPEN, 1 SEALING, 2 SEALED, 3 OPENING), transfers begun and incomplete, B loads reading,
owner ASID, disabled. -/
structure BGroup where
  st : Nat
  begun : Nat
  loads : Nat
  owner : BitVec 16
  disabled : Bool
  deriving DecidableEq, Repr
/-- A group right after reset: OPEN. -/
def BGroup.reset : BGroup := BGroup.mk 0 0 0 0 false

/-- What a slab shares: the handle cache (R117), the walk cache (R125), the bedrock groups and the controller's pending
seals and opens (R383-R385). -/
structure Slab where
  hcache : List (BitVec 16 × Nat × List Word)
  walks : List (BitVec 16 × Nat × Word)
  groups : SMap BGroup
  bedops : List BedReq
  deriving DecidableEq, Repr
def Slab.reset : Slab := Slab.mk [] [] [] []

/-- Where a slot load reads from (R308, R382). -/
inductive LoadSrc where
  | lm (core off : Nat)
  | bedrock (addr : Nat)
  | copy (engine tid : Nat)
  deriving DecidableEq, Repr

/-- A load of a mica slot, waiting or under way (R308-R310); `ready` once its release condition holds, `started` once it
reads its bedrock groups. -/
structure SlotLoad where
  seq : Nat
  bfmt : Nat
  src : LoadSrc
  rel : Option Release
  ready : Bool
  started : Bool
  deriving DecidableEq, Repr

/-- A mica slot (R309): whether a finished load fills it, its format, and the loads accepted and not finished, oldest first.
Its state EMPTY, LOADING, LOADPEND or READY follows from these and from its readers. -/
structure Slot where
  full : Bool
  bfmt : Nat
  loads : List SlotLoad
  deriving DecidableEq, Repr

/-- A member's registration, or the `MDRAIN` of a slice (R316, R324); `arrived` once the accesses that its start covers have been
performed (R141). -/
structure Registration where
  seq : Nat
  core : Nat
  word : Word
  desc : List Word
  level : BitVec 3
  asid : BitVec 16
  q : Bool
  scale : Half
  succ : Option Release
  win : Nat
  fid : Nat
  arrived : Bool
  fire : Option Firing
  deriving DecidableEq, Repr

/-- A formed pass (R320-R333): its place in the work order, its entry, its state by the codes of R333, the slices enabled at
its formation, the next step, its members, and whether it has read a mica word with an uncorrectable error (R522). -/
structure Pass where
  pid : Nat
  entry : Nat
  state : Nat
  mask : BitVec 8
  step : Nat
  members : List Registration
  bad : Bool
  deriving DecidableEq, Repr

/-- A drain job (R323, R324): its place in the work order, the pass it ends (`none` for an `MDRAIN`), the mask delivered,
whether the slice is freed after it, the slices that drain together. -/
structure DrainJob where
  seq : Nat
  pid : Option Nat
  mask : BitVec 8
  free : Bool
  members : List Registration
  deriving DecidableEq, Repr

/-- A row zeroing that waits for its turn in work order (R312, R328). -/
structure ZeroJob where
  seq : Nat
  core : Nat
  word : Word
  tag : BitVec 3 × BitVec 16
  free : Bool
  ep : Nat
  win : Nat
  fid : Nat
  uid : Option Nat
  deriving DecidableEq, Repr

/-- An accumulator set (R311, R103): tag, live slices, I32 slices, flags per slice, and the priority and ASID that SETTAG reads while the set is
untagged (R334, R4: what the last write of it left). -/
structure AccSet where
  tag : Option (BitVec 3 × BitVec 16)
  live : BitVec 8
  i32 : BitVec 8
  flags : Vector FlagSet 8
  shown : BitVec 3 × BitVec 16
  deriving DecidableEq, Repr

/-- The matrix array of a geode (R302-R334). `acc` holds element (set, row, column) at (128 set + row) 64 + column,
`accBad` names the elements that hold an uncorrectable error (R522), and `ends` holds members that have ended, with STATUS and DETAIL,
before the accesses that their start covers were performed (R141). -/
structure MArray where
  cmask : BitVec 8
  sets : Vector AccSet 4
  acc : SMap Half
  accBad : List Nat
  ends : List (Registration × Nat × Nat)
  slots : SMap Slot
  regs : List Registration
  passes : List Pass
  drains : List DrainJob
  dready : List DrainJob
  draining : Option DrainJob
  zeros : List ZeroJob
  seq : Nat
  passcnt : Nat
  preemptcnt : Nat
  deriving DecidableEq, Repr

/-- A FREE accumulator set. -/
def AccSet.freeSet : AccSet := AccSet.mk none 0 0 (Vector.replicate 8 0) (0, 0)
/-- An EMPTY slot. -/
def Slot.empty : Slot := Slot.mk false 0 []
/-- The array right after reset (R334). -/
def MArray.reset : MArray := MArray.mk 0xFF (Vector.replicate 4 AccSet.freeSet) [] [] [] [] [] [] [] [] none [] 0 0 0

/-- A task core or memory core: frame unit, message unit, queues and ports (R189-R231, R249-R261). `code` is FUSTAT.CORE
without FREE-RESERVED, which IDLE and NOPLACE give (R230). -/
structure Core where
  code : BitVec 3
  noplace : Bool
  wins : Vector Frame 8
  trapvec : Word
  spregion : Word
  trapseg : Word
  ringcfg : Word
  fwd : Word
  starve : Word
  recbusy : BitVec 256
  fifo : Vector (List Entry) 8
  ringHead : Vector Nat 8
  ring : Vector (List Entry) 8
  ceiling : Vector Word 64
  claims : List Nat
  monitors : List Monitor
  oq : List QEnt
  push : List Entry
  closing : List Closing
  mig : Option Migration
  icache : List ILine
  feroute : Word
  fwhmask : Word
  refcnt : Nat
  mail : List Nat
  fwmap : BitVec 512
  handlers : Vector Handler 64
  census : CensusPort
  copy : CopyPort
  spawn : SpawnUnit
  leaf : Leaf
  trace : TraceRing
  dcache : DCache
  tlb : List TlbEntry
  deriving DecidableEq, Repr

/-- A core right after reset (the Reset columns of R230, R261, R475). -/
def Core.reset : Core where
  code := 0
  noplace := false
  wins := Vector.replicate 8 Frame.free
  trapvec := 0
  spregion := 0x0007400000040000
  trapseg := 0x400
  ringcfg := 0x0000002000074000
  fwd := 0
  starve := 0
  recbusy := 0
  fifo := Vector.replicate 8 []
  ringHead := Vector.replicate 8 0
  ring := Vector.replicate 8 []
  ceiling := Vector.replicate 64 0
  claims := []
  monitors := []
  oq := []
  push := []
  closing := []
  mig := none
  icache := []
  feroute := 0
  fwhmask := 0x8000000000000000
  refcnt := 0
  mail := []
  fwmap := 0
  handlers := Vector.replicate 64 Handler.empty
  census := CensusPort.reset
  copy := CopyPort.reset
  spawn := SpawnUnit.reset
  leaf := Leaf.reset
  trace := TraceRing.reset
  dcache := DCache.reset
  tlb := []

/-- A held bank of the vector pool (R262, R300). -/
structure Bank where
  group : Nat
  bank : Nat
  core : Nat
  level : Nat
  deriving DecidableEq, Repr

/-- A geode: vector pool (R262-R300), flag OR tree (R92), matrix array (R302-R334), router (R261); `follow` lists the
class, source and destination of packets that go to escape at the router behind an earlier one (R243). -/
structure Geode where
  lquota : Word
  lendlock : BitVec 8
  banks : List Bank
  gborrow : BitVec 16
  spillcnt : Nat
  refillcnt : Nat
  rows : SMap Half
  sticky : FlagSet
  array : MArray
  escxfer : Nat
  dlcross : Nat
  follow : List (Nat × Nat × Nat)
  deriving DecidableEq, Repr

/-- A geode right after reset. -/
def Geode.reset : Geode where
  lquota := 0x0202020202020202
  lendlock := 0
  banks := []
  gborrow := 0
  spillcnt := 0
  refillcnt := 0
  rows := []
  sticky := 0
  array := MArray.reset
  escxfer := 0
  dlcross := 0
  follow := []

/-- Where a packet stands at its router (R237-R242): in an injection buffer; in a channel of an input port, whose links run in
direction `dir` (0 and 1 the row ring by rising and falling column, 2 and 3 the column ring by row), on VC0, VC1 or, as 2, on escape;
or in its destination's ejection buffer. -/
inductive Chan where
  | inject
  | link (dir vc : Nat)
  | eject
  deriving DecidableEq, Repr

/-- A packet in flight or an internal operation under way (R232-R243): its class (4 for an internal operation), its
endpoints, the router (a module geode) and channel it is in, the cycle since when, the cycles it has been blocked at its channel's head,
and what happens when it arrives. -/
structure Msg where
  cls : Nat
  src : Nat
  dst : Nat
  rt : Nat
  ch : Chan
  since : Nat
  wait : Nat
  ev : Event
  deriving DecidableEq, Repr

/-- Where an uncorrectable error strikes (R522): a register or vector row of a window, an 8-byte word of `mem`, a line of an LLC slice
or of a data cache, a snoop-filter entry, an element of an accumulator set; or a correctable error in any structure. -/
inductive Upset where
  | xreg (ep win r : Nat)
  | freg (ep win r : Nat)
  | hreg (ep win r : Nat)
  | vreg (ep win r : Nat)
  | word (key : Nat)
  | llc (line : Nat)
  | cached (ep line : Nat)
  | filter (line : Nat)
  | corrected
  | element (geode k : Nat)
  deriving DecidableEq, Repr

/-- What firmware writes after boot, by no register of the spec: an image slot (0 A, 1 B) or a marker copy of flash, whole or cut off by
a power loss (R514), or an entry of REGIONRT or LOCALRT (R517). -/
inductive FirmwareWrite where
  | image (slot : Nat) (img : Image)
  | marker (copy : Nat) (bytes : List Byte)
  | region (entry port : Nat)
  | locals (entry port : Nat)
  deriving DecidableEq, Repr

/-- A turn of the agenda: which agent moves next, or an outside input, an uncorrectable error, or a write of firmware. -/
inductive Turn where
  | deliver (k : Nat)
  | input (ev : Event)
  | issue (ep : Nat)
  | upset (u : Upset)
  | firmware (w : FirmwareWrite)
  | tick
  deriving DecidableEq, Repr

/-- How the bundle being issued ended so far. -/
inductive Stop where
  | go | fault | held
  deriving DecidableEq, Repr

/-- The bundle being issued (R32, R36): core, window, address, words, and whether it is lone. -/
structure Issue where
  ep : Nat
  win : Nat
  pc : Word
  w0 : Half
  w1 : Half
  lone : Bool
  order : Nat
  stop : Stop
  deriving DecidableEq, Repr

/-- What leaves the module, or reaches front-end firmware as an event of its own kind. -/
inductive OutMsg where
  | machineCheck (dev : BitVec 22) (src : Nat) (code : Nat)
  | badKind (dev : BitVec 22) (src kind : Nat)
  | fault (r : FaultReport)
  | starvation (core level : Nat)
  | ringFull (core level : Nat)
  | lostRecord (core : Nat) (r : Release)
  | halted (core : Nat)
  | fjarlink (port : Nat) (dev : BitVec 22) (p : FjPacket) (wire : List Byte)
  | drain (port : Nat)
  | guest (ev : Event)
  | hostRead (a : Access)
  | hostWrite (addr : Nat) (bytes : List Byte)
  | bar2Data (addr : Nat) (bytes : List Byte)
  | bar0Data (off : Nat) (v : Word)
  | msix (vec : Nat) (addr : Word) (data : Half)
  | spdm (code : Nat) (bytes : List Byte)
  | guestJob (words : List Word)
  | guestPreempt (level : Nat)
  | guestCancel (job : Nat)
  | guestGrant (job : Nat) (g : Grant)
  | guestFault (job kind : Nat) (va : Word)
  | guestInval (grant : Nat)
  | guestThrottle
  | guestRailOff
  deriving DecidableEq, Repr

/-- The whole module. `bad` names the 8-byte words of `mem` that hold an uncorrectable error (R522), by place / 8. -/
structure State where
  now : Nat
  turn : Nat
  cur : Nat
  iss : Issue
  agenda : List Turn
  ev : Option Event
  net : List Msg
  fv : Nat
  uid : Nat
  outbox : List OutMsg
  mem : List Host.Cell
  bad : List Nat
  cores : SMap Core
  geodes : SMap Geode
  homes : SMap Home
  slabs : SMap Slab
  engines : SMap Engine
  nodes : SMap Combiner
  census : CensusRoot
  sched : Nat
  launches : List Launch
  once : List OnceOp
  guest : Guest
  graphs : SMap Graph
  insts : SMap Inst
  term : Termination
  fe : FrontEnd
  pkg : Package
  asidtab : Word
  devId : BitVec 22
  didv : Bool
  deriving DecidableEq, Repr

/-- The machine right after reset. -/
def State.reset : State where
  now := 0
  turn := 0
  cur := 0
  iss := Issue.mk 0 0 0 0 0 false 0 .go
  agenda := []
  ev := none
  net := []
  fv := 0
  uid := 0
  outbox := []
  mem := []
  bad := []
  cores := []
  geodes := []
  homes := []
  slabs := []
  engines := []
  nodes := []
  census := CensusRoot.reset
  sched := 0
  launches := []
  once := []
  guest := Guest.reset
  graphs := []
  insts := []
  term := Termination.reset
  fe := FrontEnd.reset
  pkg := Package.reset
  asidtab := 0
  devId := 0
  didv := false

/-- Faults: the machine stops. -/
inductive Fault where
  /-- Raised by no meaning: the module has no access that stops it. -/
  | none
  deriving DecidableEq, Repr

/-- Refusals. -/
inductive Refusal where
  /-- An instruction rejected by name in exec's arm (safe: nothing is claimed about it). -/
  | notModelled (mnemonic : String)
  deriving DecidableEq, Repr

end Sys2Proof.Machine
end

