-- ==== Sys2Proof/Machine/Memory.lean ====
section
/-! DEFINITION. Memory: one list of bytes over every memory of the module, in canonical form (04_memory.md R106-R110,
06_frame_unit.md R190, 09_matrix_array.md R303). An unlisted byte reads as 0 (log entry 3). -/

namespace Sys2Proof.Machine

/-- The place of byte `off` of the LM of an endpoint (R190). -/
def lmKey (ep off : Nat) : Nat := ep * 2 ^ 19 + off
/-- The place of a byte of DRAM, by device physical address (R108). -/
def dramKey (pa : Nat) : Nat := 2 ^ 53 + pa
/-- The place of a byte of bedrock, by slab and byte (R109). -/
def bedKey (slab off : Nat) : Nat := 2 ^ 54 + slab * 2 ^ 32 + off
/-- The place of a byte of a geode's mica B store (R303). -/
def micaKey (geode off : Nat) : Nat := 2 ^ 55 + geode * 2 ^ 22 + off

/-- The byte at a place; an unlisted place reads as 0. -/
def memGet : List Host.Cell → Nat → Byte
  | [], _ => 0
  | (i, b) :: m, k => if i == k then b else memGet m k

/-- Memory with one byte written, in canonical form: places strictly rising, no byte equal to 0 listed. -/
def memSet : List Host.Cell → Nat → Byte → List Host.Cell
  | [], k, v => if v == 0 then [] else [(k, v)]
  | (i, b) :: m, k, v =>
    if k < i then (if v == 0 then (i, b) :: m else (k, v) :: (i, b) :: m)
    else if k == i then (if v == 0 then m else (k, v) :: m)
    else (i, b) :: memSet m k v

/-- The canonical form from a place on: places strictly rising and at least `lo`, no byte 0 listed. -/
def memWfFrom : Nat → List Host.Cell → Bool
  | _, [] => true
  | lo, (i, b) :: m => decide (lo ≤ i) && b != 0 && memWfFrom (i + 1) m

/-- The canonical form of memory. -/
def Memory.wf (m : List Host.Cell) : Bool := memWfFrom 0 m

/-- `n` bytes from a place on. -/
def memRead (m : List Host.Cell) (k : Nat) : Nat → List Byte
  | 0 => []
  | n + 1 => memGet m k :: memRead m (k + 1) n

/-- Bytes written from a place on. -/
def memWrite : List Host.Cell → Nat → List Byte → List Host.Cell
  | m, _, [] => m
  | m, k, b :: l => memWrite (memSet m k b) (k + 1) l

/-- Memory with the `n` bytes from `hi` on replaced by those from `lo` on. -/
def memMove (m : List Host.Cell) (lo hi n : Nat) : List Host.Cell :=
  m.filter (fun c => c.1 < hi) ++ (m.filter (fun c => lo ≤ c.1 && c.1 < lo + n)).map (fun c => (c.1 - lo + hi, c.2))
    ++ m.filter (fun c => hi + n ≤ c.1)

/-- The number that `n` bytes from a place hold. -/
def memNat (m : List Host.Cell) (k n : Nat) : Nat := ofBytes (memRead m k n)

/-- The 8-byte word at a place. -/
def memWord (m : List Host.Cell) (k : Nat) : Word := BitVec.ofNat 64 (memNat m k 8)

/-- LM bytes of an endpoint. -/
def State.lmRead (s : State) (ep off n : Nat) : List Byte := memRead s.mem (lmKey ep off) n
/-- The 8-byte word at an LM offset of an endpoint. -/
def State.lmWord (s : State) (ep off : Nat) : Word := memWord s.mem (lmKey ep off)
/-- Whether any 8-byte word that `n` bytes from a place touch holds an uncorrectable error (R522). -/
def memBad (bad : List Nat) (k n : Nat) : Bool := bad.any (fun w => k < 8 * w + 8 && 8 * w < k + n)
/-- The offset from `k` of the first such word of `n` bytes. -/
def firstBad (bad : List Nat) (k n : Nat) : Nat :=
  (bad.filter (fun w => k < 8 * w + 8 && 8 * w < k + n)).foldl (fun m w => Nat.min m (8 * w - k)) n
/-- The words with an uncorrectable error after a write of `n` bytes from a place: a word written whole is good again. -/
def badAfter (bad : List Nat) (k n : Nat) : List Nat := bad.filter (fun w => !(k ≤ 8 * w && 8 * w + 8 ≤ k + n))
/-- Bytes written from a place on. -/
def State.poke (s : State) (k : Nat) (l : List Byte) : State :=
  { s with mem := memWrite s.mem k l, bad := badAfter s.bad k l.length }
/-- LM bytes written: no monitor, no trace. -/
def State.lmPoke (s : State) (ep off : Nat) (l : List Byte) : State := s.poke (lmKey ep off) l
/-- Whether LM bytes of an endpoint hold an uncorrectable error. -/
def State.lmBad (s : State) (ep off n : Nat) : Bool := memBad s.bad (lmKey ep off) n

end Sys2Proof.Machine
end

