-- ==== Sys2Proof/Machine/Ops.lean ====
section
/-! DEFINITION. The named operations over registers, windows, results, packets and traps, shared by every meaning: the
current frame, results and their write-back (02_bundles.md R41-R48), raising a fault, taking a trap and returning from it
(06_frame_unit.md R215-R221), selection and thresholds (R206, R207). -/

namespace Sys2Proof.Machine

/-! ## Cores, geodes, windows -/

/-- A core by endpoint. -/
def State.core (s : State) (ep : Nat) : Core := s.cores.get Core.reset ep
/-- The state with one core replaced. -/
def State.setCore (s : State) (ep : Nat) (c : Core) : State := { s with cores := s.cores.put ep c }
/-- The state with one core changed. -/
def State.modCore (s : State) (ep : Nat) (g : Core → Core) : State := s.setCore ep (g (s.core ep))
/-- A geode by module geode number (slab x 128 + geode). -/
def State.geode (s : State) (g : Nat) : Geode := s.geodes.get Geode.reset g
/-- The state with one geode replaced. -/
def State.setGeode (s : State) (g : Nat) (v : Geode) : State := { s with geodes := s.geodes.put g v }
/-- The state with one geode changed. -/
def State.modGeode (s : State) (g : Nat) (k : Geode → Geode) : State := s.setGeode g (k (s.geode g))

/-- The class of an endpoint (R16): 0 task core, 1 memory core, 2 copy engine, 3 slab agent. -/
def epClass (ep : Nat) : Nat := ep / 4096 % 4
/-- Whether an endpoint is a memory core. -/
def isMemCore (ep : Nat) : Bool := epClass ep == 1
/-- Whether an endpoint is a core, whose message unit has buffers of the sizes of R242. -/
def coreEp (ep : Nat) : Bool := ep < 8192
/-- The slab of an endpoint (R14, R16). -/
def epSlab (ep : Nat) : Nat := ep / 1024 % 4
/-- The module geode number of a task core (R14). -/
def epGeode (ep : Nat) : Nat := ep % 4096 / 8
/-- The endpoint of a memory core. -/
def memCoreEp (slab ch : Nat) : Nat := 4096 + slab * 1024 + ch
/-- The endpoint of a copy engine. -/
def copyEp (slab ch : Nat) : Nat := 8192 + slab * 1024 + ch
/-- The endpoint of a slab agent. -/
def agentEp (slab agent : Nat) : Nat := 12288 + slab * 1024 + agent
/-- The host port agent (R16, R495). -/
def hostEp : Nat := agentEp 0 0x81
/-- Whether an endpoint number is listed in R16. -/
def epValid (ep : Nat) : Bool :=
  match epClass ep with
  | 0 => true
  | 1 => ep % 1024 < 32
  | 2 => ep % 1024 < 32
  | _ =>
    let a := ep % 1024
    a ≤ 2 || a == 5 || (0x20 ≤ a && a ≤ 0x3F) || ((a == 3 || a == 4 || a == 0x81) && epSlab ep == 0)
      || (a == 0x80 && epSlab ep == 3)

/-- Window `w` of a core. -/
def Core.win (c : Core) (w : Nat) : Frame := vget Frame.free c.wins w
/-- A core with window `w` replaced. -/
def Core.setWin (c : Core) (w : Nat) (f : Frame) : Core := { c with wins := vset c.wins w f }
/-- A window of the module. -/
def State.frame (s : State) (ep w : Nat) : Frame := (s.core ep).win w
/-- The state with one window replaced. -/
def State.setFrame (s : State) (ep w : Nat) (f : Frame) : State := s.setCore ep ((s.core ep).setWin w f)
/-- The state with one window changed. -/
def State.modFrame (s : State) (ep w : Nat) (g : Frame → Frame) : State := s.setFrame ep w (g (s.frame ep w))

/-- The frame whose bundle is being issued. -/
def State.cf (s : State) : Frame := s.frame s.iss.ep s.iss.win
/-- The state with the issuing frame replaced. -/
def State.setCf (s : State) (f : Frame) : State := s.setFrame s.iss.ep s.iss.win f
/-- The state with the issuing frame changed. -/
def State.modCf (s : State) (g : Frame → Frame) : State := s.setCf (g s.cf)
/-- The issuing core. -/
def State.cc (s : State) : Core := s.core s.iss.ep
/-- Whether a frame is F-mode: priority 6 or 7 (R193). -/
def Frame.fm (f : Frame) : Bool := f.level.toNat ≥ 6

/-! ## Registers -/

/-- `x[r]`; `x0` reads as zero (R62). -/
def Frame.getX (f : Frame) (r : Reg) : Word := if r == 0 then 0 else vget 0 f.x r.toNat
/-- A frame with `x[r]` written; a write to `x0` is discarded. -/
def Frame.putX (f : Frame) (r : Reg) (v : Word) : Frame :=
  if r == 0 then f else { f with x := vset f.x r.toNat v }
/-- `f[r]`. -/
def Frame.getF (f : Frame) (r : Reg) : Word := vget 0 f.f r.toNat
/-- A frame with `f[r]` written. -/
def Frame.putF (f : Frame) (r : Reg) (v : Word) : Frame := { f with f := vset f.f r.toNat v }
/-- `h[r]`. -/
def Frame.getH (f : Frame) (r : HReg) : Handle := vget Handle.empty f.h r.toNat
/-- A frame with `h[r]` written. -/
def Frame.putH (f : Frame) (r : HReg) (v : Handle) : Frame := { f with h := vset f.h r.toNat v }
/-- The tag of `v[r]`. -/
def Frame.getTag (f : Frame) (r : Reg) : Tag := vget .raw f.tags r.toNat
/-- A frame with the tag of `v[r]` written. -/
def Frame.putTag (f : Frame) (r : Reg) (t : Tag) : Frame := { f with tags := vset f.tags r.toNat t }
/-- The stream of `v[28 + j]`. -/
def Frame.stream (f : Frame) (j : Nat) : Stream := vget Stream.unbound f.streams j
/-- A frame with a stream replaced. -/
def Frame.putStream (f : Frame) (j : Nat) (t : Stream) : Frame := { f with streams := vset f.streams j t }

/-- `x[r]` of the issuing frame. -/
def State.xr (s : State) (r : Reg) : Word := s.cf.getX r
/-- `f[r]` of the issuing frame. -/
def State.fr (s : State) (r : Reg) : Word := s.cf.getF r

/-- The handle `h0` of a core: its own LM (R115). Its index is that of no table entry. -/
def handleH0 : Handle := Handle.mk 0 0x80000 0 0x187 0 4096
/-- The handle `h1` of a frame: its scratchpad segment, FRAME bytes (R115, R191). Its index is that of no table entry. -/
def handleH1 (base bytes : Nat) : Handle := Handle.mk (BitVec.ofNat 64 base) (BitVec.ofNat 64 bytes) 0 0x187 0 4096

/-- What a bundle reads of its frame's registers (R36), with the lanes of its vector registers given. -/
def Frame.latched (f : Frame) (v : List (List Half)) : Latch :=
  Latch.mk f.x f.f f.h f.tags f.fcsr f.poisonX f.poisonF f.poisonH f.poisonV v none
/-- What stands after something changed that was tried on an old reading: the change, where `new` differs from what was `read`, else
what is there `now`. -/
def overRead {α : Type} [DecidableEq α] (read now new : α) : α := if new = read then now else new
/-- A frame with the registers that its held bundle has read. -/
def Frame.underLatch (f : Frame) : Frame :=
  match f.latch with
  | none => f
  | some l => { f with
      x := l.x, f := l.f, h := l.h, tags := l.tags, fcsr := l.fcsr
      poisonX := l.poisonX, poisonF := l.poisonF, poisonH := l.poisonH, poisonV := l.poisonV }
/-- The frame after a held bundle has been tried on what it has read: `f` as it was before, `g` as the bundle left it. The marks of
vector registers and the tags that the bundle changed (heads of streams, `VSBIND`, `VFREE`) stay changed. -/
def Frame.overLatch (f g : Frame) : Frame :=
  match f.latch with
  | none => g
  | some l =>
    let d := l.poisonV ^^^ g.poisonV
    { g with
      x := f.x, f := f.f, h := f.h, fcsr := f.fcsr
      tags := Vector.ofFn (fun (k : Fin 32) => overRead (l.tags.get k) (f.tags.get k) (g.tags.get k))
      poisonX := f.poisonX, poisonF := f.poisonF, poisonH := f.poisonH, poisonV := (f.poisonV &&& ~~~d) ||| (g.poisonV &&& d)
      latch := if g.st == .parked then g.latch else none }

/-- The poison mark of a register is set when `p`, cleared otherwise (R219). -/
def markBit {n : Nat} (m : BitVec n) (i : Nat) (p : Bool) : BitVec n :=
  if p then m ||| BitVec.ofNat n (2 ^ i) else m &&& ~~~(BitVec.ofNat n (2 ^ i))

/-- The LANES field of VLEN, the frame's lane count N (R272). -/
def Frame.nLanes (f : Frame) : Nat := fld f.vlen 0 9
/-- The group map of VLEN (R272). -/
def Frame.gmap (f : Frame) : Nat := fld f.vlen 16 16
/-- The groups of a group map in rising order (R262). -/
def groupsOf (gmap : Nat) : List Nat := (List.range 16).filter (fun g => (gmap >>> g) % 2 == 1)

/-! ## Vector rows (R262) -/

/-- The bank that the frame of level `p` on geode core `c` holds in group `g`. -/
def Geode.bankOf (gd : Geode) (c p g : Nat) : Option Nat :=
  (gd.banks.find? (fun b => b.group == g && b.core == c && b.level == p)).map Bank.bank

/-- The row-map key of lane `l` of row `r` of group `g` (R300). -/
def rowKey (g r l : Nat) : Nat := (128 * g + r) * 16 + l

/-- The key of lane `i` of register `r` of a frame, when the frame's bank of that group is held (R262). -/
def laneKey (gd : Geode) (c p gmap r i : Nat) : Option Nat :=
  match (groupsOf gmap)[i / 16]? with
  | none => none
  | some g => (gd.bankOf c p g).map (fun k => rowKey g (32 * k + r) (i % 16))

/-- The lanes of a vector register, `n` of them. -/
def Geode.readV (gd : Geode) (c p gmap r n : Nat) : List Half :=
  (List.range n).map (fun i => match laneKey gd c p gmap r i with | none => 0 | some k => gd.rows.get 0 k)

/-- The geode with lanes of a register written, from lane `i` on. -/
def Geode.writeVFrom (gd : Geode) (c p gmap r : Nat) : Nat → List Half → Geode
  | _, [] => gd
  | i, v :: l =>
    let gd' := match laneKey gd c p gmap r i with
      | none => gd
      | some k => { gd with rows := gd.rows.put k v }
    gd'.writeVFrom c p gmap r (i + 1) l

/-- LANES of a frame's descriptor (R194); 0 for a trap frame. -/
def Frame.descLanes (f : Frame) : Nat := fld (f.desc.getD 1 0) 32 9
/-- FRAME of a frame's descriptor (R194). -/
def Frame.descFrame (f : Frame) : Nat := fld (f.desc.getD 1 0) 0 19
/-- The place in a frame's spill reserve of lane `i` of register `r` (R191, R268). -/
def Frame.spillOff (f : Frame) (r i : Nat) : Nat := f.segBase + f.descFrame + 4 * (f.descLanes * r + i)

/-! ## Network and the queue of operations -/

/-- The place of Fjarlink port `p` in the network is `fjPlace + p`; no endpoint number of R16. `fjPlace + 31` stands for no route. -/
def fjPlace : Nat := 16384
/-- The place that the host's own requests come from. -/
def hostBus : Nat := 16448
/-- The slab and geode that a Fjarlink port attaches to (R516). -/
def fjGeode (p : Nat) : Nat × Nat :=
  if p < 10 then (p / 5, [3, 35, 67, 99, 123].getD (p % 5) 3) else ((p - 2) / 4, [3, 35, 67, 99].getD ((p - 2) % 4) 3)
/-- The router that an endpoint attaches to (R16, R237, R476, R495, R516): its slab and geode. -/
def attachedTo (ep : Nat) : Nat × Nat :=
  let sl := epSlab ep
  if ep == 16448 then (0, 63)
  else match ep / 4096 with
  | 0 => (epGeode ep / 128, epGeode ep % 128)
  | 1 => (sl, 4 * (ep % 32))
  | 2 => (sl, 4 * (ep % 32) + 1)
  | 3 =>
    let a := ep % 1024
    (sl, if 0x20 ≤ a && a ≤ 0x3F then 4 * (a - 0x20) + 2 else if a == 0x80 then 127 else if a == 0x81 then 63 else 0)
  | 4 => fjGeode (ep - 16384)
  | _ => (ep % 4096 / 128, ep % 128)
/-- The module geode of the router that an endpoint attaches to. -/
def routerOf (ep : Nat) : Nat := (attachedTo ep).1 * 128 + (attachedTo ep).2

/-- The device a packet is for. -/
def fjTo (own : BitVec 22) : FjPacket → BitVec 22
  | .active m => m.dstDev.getD own
  | .release r => r.dstDev.getD own
  | .pull r => r.srcDev
  | .record r _ => r.dstDev.getD own
  | .delivery m _ => m.srcDev
  | .census d _ => d
  | .censusAnswer d _ _ _ => d
  | .linkRequest q => q.dev
  | .linkAnswer q _ _ => q.srcDev
  | .other _ _ _ _ d _ => d
/-- The Fjarlink port toward a device (R517); none when its entry is 31. -/
def State.fjPort (s : State) (d : BitVec 22) : Option Nat :=
  let p := if d.toNat / 1024 != s.devId.toNat / 1024 then s.pkg.regionrt.get 31 (d.toNat / 1024)
    else s.pkg.localrt.get 31 (d.toNat % 1024)
  if p == 31 then none else some p
/-- SRCDEV of a release: zero while the device id is unassigned (R197). -/
def State.srcDev (s : State) : BitVec 22 := if s.didv then s.devId else 0

/-- Where a packet goes on this device: one for another device to the port that its route names (R238). -/
def State.exitOf (s : State) (dst : Nat) (ev : Event) : Nat × Event :=
  match ev with
  | .fjarlinkPacket _ p =>
    if dst == fjPlace then
      let k := (s.fjPort (fjTo s.srcDev p)).getD 31
      (fjPlace + k, .fjarlinkPacket k p)
    else (dst, ev)
  | _ => (dst, ev)
/-- A packet as it is injected at an endpoint `at`. -/
def State.msgAt (s : State) (ep cls src dst : Nat) (ev : Event) : Msg :=
  let e := s.exitOf dst ev
  Msg.mk cls src e.1 (routerOf (if ep == fjPlace + 31 then dst else ep)) .inject s.now 0 e.2
/-- An internal operation as it is begun. -/
def Msg.op (ev : Event) : Msg := Msg.mk 4 0 0 0 .inject 0 0 ev
/-- A packet injected by its source endpoint. -/
def State.send (s : State) (cls src dst : Nat) (ev : Event) : State := { s with net := s.net ++ [s.msgAt src cls src dst ev] }
/-- An internal operation begun. -/
def State.later (s : State) (ev : Event) : State := { s with net := s.net ++ [Msg.op ev] }
/-- An internal operation begun unless it is already under way. -/
def State.laterOnce (s : State) (ev : Event) : State := if s.net.any (fun m => m.cls == 4 && m.ev == ev) then s else s.later ev
/-- Something leaves the module. -/
def State.out (s : State) (m : OutMsg) : State := { s with outbox := s.outbox ++ [m] }
/-- A machine check of this device reported to the front end. -/
def State.machineCheck (s : State) (src code : Nat) : State := s.out (.machineCheck s.devId src code)
/-- A machine check that names an agent of a device (R229, R247). -/
def State.machineCheckOf (s : State) (dev : BitVec 22) (src code : Nat) : State :=
  s.out (.machineCheck (if dev == s.srcDev then s.devId else dev) src code)
/-- A fresh name. -/
def State.fresh (s : State) : Nat × State := (s.uid, { s with uid := s.uid + 1 })
/-- A packet that its destination cannot serve yet waits at the head of its ejection buffer, so that none of its triple overtakes it
(R242, R243). -/
def State.requeue (s : State) (cls src dst : Nat) (ev : Event) : State :=
  { s with net := Msg.mk cls src dst (routerOf dst) .eject 0 0 ev :: s.net }
/-- How a release leaves: to its target, or to a Fjarlink port when it names another device (R235, R260). -/
def relEvent (r : Release) : Nat × Nat × Nat × Event :=
  match r.dstDev with
  | none => (2, r.srcEp, r.dst, .release r)
  | some _ => (2, r.srcEp, fjPlace, .fjarlinkPacket 31 (.release r))
/-- A release sent to its target by the agent at an endpoint; its source fields name the core of its record (R235). -/
def State.sendRelease (s : State) (ep : Nat) (r : Release) : State :=
  let e := relEvent r
  { s with net := s.net ++ [s.msgAt ep e.1 e.2.1 e.2.2.1 e.2.2.2] }

/-! ## Monitors at an LM port (R213) -/

/-- Whether a monitor's condition holds on a word (R213): both sides reduced to the width, then extended alike. -/
def condHolds (c : WatchCond) (d : Bool) (w comparand : Word) : Bool :=
  let n := if d then 64 else 32
  match c with
  | .eq => zext n w == zext n comparand
  | .ne => zext n w != zext n comparand
  | .lt => (sext n w).slt (sext n comparand)
  | .ge => !(sext n w).slt (sext n comparand)
  | .ltn => (zext n w).ult (zext n comparand)
  | .gen => !(zext n w).ult (zext n comparand)

end Sys2Proof.Machine
namespace Sys2Proof
open Machine
/-- Whether a request's word overlaps `n` bytes from `off`. -/
def ArmReq.overlaps (q : ArmReq) (off n : Nat) : Bool := off < q.addr + (if q.d then 8 else 4) && q.addr < off + n
end Sys2Proof
namespace Sys2Proof.Machine

/-- Whether a monitor's condition holds on the word it watches, at an LM port. -/
def State.armHoldsLm (s : State) (ep : Nat) (q : ArmReq) : Bool :=
  condHolds q.cond q.d (BitVec.ofNat 64 (memNat s.mem (lmKey ep q.addr) (if q.d then 8 else 4))) q.comparand

/-- Monitors of an LM port evaluated after a write of `n` bytes at `off`: each that holds is freed and sends its release. -/
def State.fireMonitors (s : State) (ep off n : Nat) : State :=
  let c := s.core ep
  let hit := c.monitors.filter (fun m => m.q.overlaps off n && s.armHoldsLm ep m.q)
  if hit.isEmpty then s
  else
    let s := s.setCore ep { c with monitors := c.monitors.filter (fun m => !(hit.contains m)) }
    hit.foldl (fun t m => t.sendRelease ep m.q.rel) s

/-- A write at an LM owning port, of an access or of an engine: bytes stored, then the monitors (R213). -/
def State.lmWrite (s : State) (ep off : Nat) (b : List Byte) : State :=
  (s.lmPoke ep off b).fireMonitors ep off b.length

/-! ## Vector registers (R262, R268) -/

/-- The lanes of `v[r]` of a frame: in its banks, or in its spill reserve while it is spilled (R262, R268). -/
def State.vread (s : State) (ep w : Nat) (r : Reg) : List Half :=
  let f := s.frame ep w
  if f.spilled then (List.range f.nLanes).map (fun i => BitVec.ofNat 32 (memNat s.mem (lmKey ep (f.spillOff r.toNat i)) 4))
  else (s.geode (epGeode ep)).readV (ep % 8) w f.gmap r.toNat f.nLanes

/-- The state with the lanes of `v[r]` of a frame written. -/
def State.vwrite (s : State) (ep w : Nat) (r : Reg) (l : List Half) : State :=
  let f := s.frame ep w
  if f.spilled then s.lmWrite ep (f.spillOff r.toNat 0) ((l.take f.nLanes).flatMap (fun v => toBytes 4 v.toNat))
  else s.modGeode (epGeode ep) (fun gd => gd.writeVFrom (ep % 8) w f.gmap r.toNat 0 (l.take f.nLanes))

/-! ## Counters, instances, the firmware column -/

/-- The slot of a leaf whose valid entry holds an ASID (R469). -/
def Leaf.slotOf (l : Leaf) (asid : BitVec 16) : Option Nat :=
  (List.range 16).find? (fun k => (vget 0 l.tmap k).getLsbD 31 && (vget 0 l.tmap k).extractLsb' 0 16 == asid)
/-- Whether an ASID's launch is deterministic by a leaf's own copy (R469, R473). -/
def Leaf.det (l : Leaf) (asid : BitVec 16) : Bool :=
  match l.slotOf asid with
  | none => false
  | some k => (vget 0 l.tmap k).getLsbD 30
/-- A message counted in SENT (R470); the counts have 32 bits. -/
def Leaf.countSent (l : Leaf) (asid : BitVec 16) : Leaf :=
  match l.slotOf asid with
  | none => l
  | some k => { l with sent := vset l.sent k ((vget 0 l.sent k + 1) % 2 ^ 32) }
/-- A message counted in RECV (R470). -/
def Leaf.countRecv (l : Leaf) (asid : BitVec 16) : Leaf :=
  match l.slotOf asid with
  | none => l
  | some k => { l with recv := vset l.recv k ((vget 0 l.recv k + 1) % 2 ^ 32) }
/-- A core counts a message sent. -/
def State.countSent (s : State) (ep : Nat) (asid : BitVec 16) : State :=
  s.modCore ep (fun c => { c with leaf := c.leaf.countSent asid })
/-- A core counts a message received. -/
def State.countRecv (s : State) (ep : Nat) (asid : BitVec 16) : State :=
  s.modCore ep (fun c => { c with leaf := c.leaf.countRecv asid })
/-- Whether the issuing frame belongs to a deterministic launch (R469, R473). -/
def State.det (s : State) : Bool := s.cc.leaf.det s.cf.asid

/-- A graph instance slot (R430). -/
def State.inst (s : State) (slot : Nat) : Inst := s.insts.get Inst.reset slot
/-- The state with an instance slot changed. -/
def State.modInst (s : State) (slot : Nat) (k : Inst → Inst) : State := { s with insts := s.insts.put slot (k (s.inst slot)) }
/-- KIND of a node, as its engine last read its record (R426). -/
def Inst.kind (i : Inst) (n : Nat) : Nat := fld ((i.recs.get [] n).getD 0 0) 61 3
/-- The firing that a frame or a release of a graph task belongs to (R436, R439). -/
def firingOf (r : Release) (otag : Nat) : Firing :=
  Firing.mk r.srcEp (otag / 2 ^ 12 % 256) r.gen.toNat (otag % 2 ^ 12) (r.detail.toNat / 2 ^ 12) r.recIdx.toNat

/-- Whether a module geode lies in its slab's firmware column (R18, R512). -/
def State.fwGeode (s : State) (g : Nat) : Bool :=
  let sl := g / 128; let k := g % 128
  let row0 := fld s.pkg.slabcol (8 * sl + 2) 4; let n := fld s.pkg.slabcol (8 * sl + 6) 2 + 1
  k % 8 == fld s.pkg.cols (4 * sl) 3 && row0 ≤ k / 8 && k / 8 < row0 + n
/-- Whether an endpoint is a core of the firmware column. -/
def State.firmware (s : State) (ep : Nat) : Bool := epClass ep == 0 && s.fwGeode (epGeode ep)

/-- `n` bytes whose content the spec does not state (log entry 6). -/
def State.freeBytes (s : State) (n : Nat) : List Byte × State :=
  ((List.range n).map (Config.freeByte s.fv), { s with fv := s.fv + 1 })

/-- Whether an LM port refuses accesses (R229, R247): the core is vacated and its forwarding entry cleared. -/
def Core.portRefuses (c : Core) : Bool := c.code == 3 && !bitOf c.fwd 63

/-! ## Results (R41-R48) -/

/-- Whether two destinations name one register (R44). -/
def Dst.same : Dst → Dst → Bool
  | .x a _ _, .x b _ _ => a == b
  | .x a _ _, .lanes b => a == b
  | .lanes a, .x b _ _ => a == b
  | .lanes a, .lanes b => a == b
  | .f a, .f b => a == b
  | .h a, .h b => a == b
  | .v a _, .v b _ => a == b
  | .csr a, .csr b => a == b
  | _, _ => false

/-- A destination `x[rd]` that takes a whole word; `x0` takes none. -/
def dstX (rd : Reg) : Dst := if rd == 0 then .none else .x rd true 8

/-- The stream bound for writing that a destination names (R284). -/
def Frame.writeStreamOf (f : Frame) : Dst → Option Nat
  | .v r _ => if r.toNat ≥ 28 && (f.stream (r.toNat - 28)).bound && (f.stream (r.toNat - 28)).write
      then some (r.toNat - 28) else none
  | _ => none
/-- The name of the write stream that a result of an instruction issued now will enter; 0 for none. -/
def Frame.sidOf (f : Frame) (d : Dst) : Nat :=
  match f.writeStreamOf d with
  | some j => (f.stream j).sid
  | none => 0

/-- A result added to the issuing frame; its name is returned. -/
def State.addResult (s : State) (dst : Dst) (due : Option Nat) (val : ResVal) (fl : FlagSet) (need : Nat) : Nat × State :=
  let r := Result.mk s.uid s.iss.order dst due val fl [] need false false (s.cf.sidOf dst)
  (s.uid, { s.modCf (fun f => { f with outs := f.outs ++ [r] }) with uid := s.uid + 1 })

/-- A variable-latency result for `x[rd]`; none for `x0`. -/
def State.newResult (s : State) (rd : Reg) : Option Nat × State :=
  if rd == 0 then (none, s)
  else
    let (u, s) := s.addResult (dstX rd) none (.word 0) 0 1
    (some u, s)

/-- A result of fixed latency `lat` (R41): visible from cycle now + lat on. -/
def State.fixed (s : State) (dst : Dst) (val : ResVal) (fl : FlagSet) (lat : Nat) : State :=
  (s.addResult dst (some (s.now + lat)) val fl 0).2

/-- A fixed-latency result for `x[rd]`. -/
def State.fixedX (s : State) (rd : Reg) (v : Word) (lat : Nat) : State :=
  if rd == 0 then s else s.fixed (dstX rd) (.word v) 0 lat

/-- A fixed-latency result for `x[rd]` with flags. -/
def State.fixedXF (s : State) (rd : Reg) (v : Word) (fl : FlagSet) (lat : Nat) : State :=
  s.fixed (dstX rd) (.word v) fl lat

/-- A fixed-latency result for `f[rd]` with flags. -/
def State.fixedF (s : State) (rd : Reg) (v : Word) (fl : FlagSet) (lat : Nat) : State :=
  s.fixed (.f rd) (.word v) fl lat

/-- FCSR with the flags of a result ORed in (R89, R90). -/
def accrue (fcsr : Word) (fl : FlagSet) : Word :=
  fcsr ||| ((fl &&& 31).setWidth 64) ||| (if fl.getLsbD 5 then 0x100 else 0)

/-- The flags of a result reach a frame's FCSR and its geode's STICKY (R89, R92). -/
def State.accrueFlags (s : State) (ep w : Nat) (fl : FlagSet) : State :=
  if fl == 0 then s
  else
    let s := s.modFrame ep w (fun f => { f with fcsr := accrue f.fcsr fl })
    if isMemCore ep then s else s.modGeode (epGeode ep) (fun g => { g with sticky := g.sticky ||| fl })

/-- FCSR after a write of its RW fields (R90). -/
def writeFcsr (old new : Word) : Word := maskWrite 0x1FF old new

/-! ## The state-access window's start (R526) -/

/-- CLASS of a window address. -/
def winCls (q : WinOp) : Nat := fld q.addr 37 5
/-- INST of a window address. -/
def winInst (q : WinOp) : Nat := fld q.addr 23 14
/-- The byte offset of a window address. -/
def winOff (q : WinOp) : Nat := 8 * fld q.addr 3 20
/-- Whether an offset holds a counter that a read clears (RC). -/
def winRc (cls off : Nat) : Bool :=
  match cls with
  | 0 => off == 0x98
  | 1 => off == 0x18
  | 3 => off == 0x40 || off == 0x48
  | 4 => off == 0x500 || off == 0x508
  | 5 => off == 0 || off == 8
  | 6 => off == 0x18
  | 7 => off == 8 || off == 0x10 || off == 0x18
  | 9 => off == 0x10 || off == 0x18
  | 12 => off == 0x28
  | 13 => off == 0x40
  | _ => false
/-- The step that a window write is. -/
def winWrite (q : WinOp) : Event :=
  let off := winOff q
  match winCls q with
  | 0 =>
    if 0x40 ≤ off && off < 0x60 then .recbusyClear q
    else if 0x400 ≤ off && off < 0x500 && off % 16 == 0 then .monitorFree q
    else if 0x7000 ≤ off && off < 0x7800 && off % 32 == 0 && q.data == 0 then .joinctrFree q
    else if off == 0x700 then .rrctlWrite q
    else if off == 0x718 then .rrpush q
    else if off == 0x720 then .rrpop q
    else .registerWrite (.window q)
  | 2 => if off == 0x2300 then .svclear q else .registerWrite (.window q)
  | 3 => if off == 0 then .lquotaWrite q else .registerWrite (.window q)
  | 4 =>
    if off == 0 then .cmaskWrite q
    else if 8 ≤ off && off < 0x28 && !bitOf q.data 63 then .settagFree q
    else if 0x400 ≤ off && off < 0x480 then .slotstEmpty q
    else .registerWrite (.window q)
  | 6 => if off == 0x20 then .cancel q else .registerWrite (.window q)
  | 7 =>
    if off == 0x100 then .rrctlWrite q
    else if off == 0x118 then .rrpush q
    else if off == 0x120 then .rrpop q
    else .registerWrite (.window q)
  | 9 => if off == 0x48 then .slotend q else .registerWrite (.window q)
  | 10 => if off == 0x1100 then .censend q else if off == 0x1300 then .barfree q else .registerWrite (.window q)
  | 11 => if 0x2000 ≤ off && off < 0x2080 then .tslotFree q else .registerWrite (.window q)
  | 12 =>
    if off == 8 && q.data == 1 then .gctlFence q
    else if off == 8 && q.data == 2 then .gctlRetrain q
    else if off == 0x20 then .jobcancel q
    else .registerWrite (.window q)
  | _ => .registerWrite (.window q)
/-- The step that a window operation is: 0 a read, 1 a write, 2 a command (R525). -/
def winEvent (op : Nat) (q : WinOp) : Event :=
  match op with
  | 0 => if winRc (winCls q) (winOff q) then .clearOnRead (.window q) else .sawRead q
  | 1 => winWrite q
  | _ =>
    if winCls q != 13 || winInst q != 0 then .sawDone q 2
    else match winOff q with
      | 0x08 => .hcinv q
      | 0x18 => .tlbinv q none
      | 0x20 => .icinv q
      | 0x28 => .corereset q
      | 0x30 => .gfclear q
      | _ => .sawDone q 2
/-- A write of `SAWCTL` (R526): with GO the operation starts, or the write only sets ERR. -/
def State.sawWrite (s : State) (ep w : Nat) (v : Word) : State :=
  let f := s.frame ep w
  let ctl := maskWrite 0xE f.sawctl v
  let op := fld v 1 2
  if !bitOf v 0 then s.setFrame ep w { f with sawctl := ctl }
  else if bitOf ctl 10 then s.setFrame ep w { f with sawctl := setFld ctl 12 4 1 }
  else if op == 3 then s.setFrame ep w { f with sawctl := setFld ctl 12 4 2 }
  else (s.setFrame ep w { f with sawctl := setFld (setFld ctl 10 2 1) 12 4 0 }).later (winEvent op (WinOp.mk ep w f.fid f.sawaddr f.sawdata))

/-- A CSR result written to the frame's copy, or, in a trap frame, to the trapped frame's (R183, R217). -/
def State.writeCsr (s : State) (ep w : Nat) (n : BitVec 12) (v : Word) : State :=
  let f := s.frame ep w
  -- in a trap frame the trap CSRs are those of the frame below (R217)
  let tw := if f.trapFrame then ((List.range 7).reverse.find? (fun k => (s.frame ep k).st == .trapped)).getD w else w
  match n.toNat with
  | 0x001 => s.setFrame ep w { f with fcsr := writeFcsr f.fcsr v }
  | 0x100 => s.modFrame ep tw (fun t => { t with ecause := maskWrite 0x803F t.ecause v })
  | 0x101 => s.modFrame ep tw (fun t => { t with eval := v })
  | 0x102 => s.modFrame ep tw (fun t => { t with epc := v &&& ~~~7 })
  | 0x110 => s.sawWrite ep w v
  | 0x111 => s.setFrame ep w { f with sawaddr := v &&& 0x3FFFFFFFFF8 }
  | 0x112 => s.setFrame ep w { f with sawdata := v }
  | _ => s

/-- The value of a word result as its destination register takes it. -/
def extendTo (signed : Bool) (n : Nat) (v : Word) : Word := if n ≥ 8 then v else if signed then sext (8 * n) v else zext (8 * n) v

/-- A value written to its destination (R42): registers, tags, grants and CSRs. -/
def State.putDst (s : State) (ep w : Nat) (d : Dst) (val : ResVal) (poison : Bool) : State :=
  match d, val with
  | .x r sg n, .word v =>
    s.modFrame ep w (fun f => { f.putX r (extendTo sg n v) with poisonX := markBit f.poisonX r.toNat (poison && r != 0) })
  | .f r, .word v => s.modFrame ep w (fun f => { f.putF r v with poisonF := markBit f.poisonF r.toNat poison })
  | .h r, .handle h => s.modFrame ep w (fun f => { f.putH r h with poisonH := markBit f.poisonH r.toNat poison })
  | .v r _, .lanes t l =>
    (s.vwrite ep w r l).modFrame ep w
      (fun f => { f.putTag r t with poisonV := markBit f.poisonV r.toNat poison })
  | .csr n, .word v => s.writeCsr ep w n v
  | .lanes rd, .grant g gm bo =>
    let v := BitVec.ofNat 64 (g + gm.toNat * 2 ^ 16 + (if bo then 2 ^ 33 else 0))
    s.modFrame ep w (fun f =>
      { f.putX rd (BitVec.ofNat 64 g) with
        vlen := (if g == 0 then f.vlen else v), poisonX := markBit f.poisonX rd.toNat false })
  | _, _ => s

/-- What an overtaken result still does (R44): only its register value is discarded, so a grant still sets VLEN. -/
def State.putDead (s : State) (ep w : Nat) (d : Dst) (val : ResVal) : State :=
  match d, val with
  | .lanes _, .grant g gm bo =>
    if g == 0 then s
    else s.modFrame ep w (fun f => { f with vlen := BitVec.ofNat 64 (g + gm.toNat * 2 ^ 16 + (if bo then 2 ^ 33 else 0)) })
  | _, _ => s

/-- The words of a list of lanes as bytes (R274). -/
def lanesBytes (l : List Half) : List Byte := l.flatMap (fun v => toBytes 4 v.toNat)

/-- Bytes taken four at a time as lanes. -/
def bytesLanes : Nat → List Byte → List Half
  | 0, _ => []
  | n + 1, l => BitVec.ofNat 32 (ofBytes (l.take 4)) :: bytesLanes n (l.drop 4)

/-- The bytes of a BX block (R82). -/
def bxBytes : Tag → Nat
  | .bx8 => 34
  | .bx6 => 26
  | .bx4 => 18
  | _ => 0

/-- The bytes of a register's memory image for a tag and N lanes (R274, R275). -/
def imageBytes (t : Tag) (n : Nat) : Nat := if bxBytes t == 0 then 4 * n else bxBytes t * ceilDiv n 32

/-- A register's memory image (R274, R275). -/
def imageOf (t : Tag) (l : List Half) : List Byte :=
  if bxBytes t == 0 then lanesBytes l
  else (List.range (ceilDiv l.length 32)).flatMap
    (fun b => ((lanesBytes (l.drop (32 * b)) ++ List.replicate (bxBytes t) 0).take (bxBytes t)))

/-- The lanes that a memory image gives (R274, R275). -/
def lanesOf (t : Tag) (n : Nat) (img : List Byte) : List Half :=
  if bxBytes t == 0 then bytesLanes n img
  else ((List.range (ceilDiv n 32)).flatMap
    (fun b => bytesLanes 32 ((img.drop (bxBytes t * b)).take (bxBytes t)))).take n

/-- Flags that a write-back of this cycle delivers, ORed into the write of FCSR that falls in the same cycle (R48). -/
def State.flagsMeet (s : State) (ep w : Nat) (fl : FlagSet) : State :=
  let meet := fun (r : Result) => match r.val with
    | .word v => if r.dst == .csr 1 && r.due == some (s.now + 1) then { r with val := .word (accrue v fl) } else r
    | _ => r
  if fl == 0 then s else s.modFrame ep w (fun f => { f with outs := f.outs.map meet })

/-- A result enters the write stream that it was issued for (R284), bound still or unbound since (R286). -/
def State.intoStream (s : State) (ep w : Nat) (r : Result) (val : ResVal) : State :=
  match val with
  | .lanes t l =>
    if r.sid == 0 || r.dead then s
    else
      let e := StreamEnt.mk r.uid (imageOf t l) false
      match (List.range 4).find? (fun j => ((s.frame ep w).stream j).bound && ((s.frame ep w).stream j).sid == r.sid) with
      | some j =>
        (s.modFrame ep w (fun f => f.putStream j { f.stream j with buf := (f.stream j).buf ++ [e] })).later (.streamWrite ep w j)
      | none =>
        let add := fun (c : Closing) => if c.stream.sid == r.sid then { c with stream := { c.stream with buf := c.stream.buf ++ [e] } } else c
        (s.modCore ep (fun c => { c with closing := c.closing.map add })).later (.streamWrite ep w 4)
  | _ => s

/-- A result written back (R41, R44, R89): its flags accrue; its value is written unless a younger write of the same
register came first; older results for that register become dead. A result for a write stream enters the stream buffer; one that a
younger result to the register overtook does not, which the spec does not state (DESIGN CHOICE; log entry 48). -/
def State.writeBack (s : State) (ep w : Nat) (r : Result) (val : ResVal) (fl : FlagSet) (poison : Bool) : State :=
  let older := fun (q : Result) => if q.order < r.order && q.dst.same r.dst then { q with dead := true } else q
  let s := s.modFrame ep w (fun f => { f with outs := ((f.outs.filter (fun q => q.uid != r.uid)).map older) })
  let s := s.intoStream ep w r val
  let s := if r.dead then s.putDead ep w r.dst val else s.putDst ep w r.dst val poison
  s.accrueFlags ep w fl

/-- The results of a frame that are due, in the order in which they are written back: by cycle, CSR writes of a cycle
before its flags (R48), in issue order within. -/
def Frame.dueResults (f : Frame) (now : Nat) : List Result :=
  sortBy (fun r => 2 * r.due.getD 0 + (match r.dst with | .csr _ => 0 | _ => 1))
    (f.outs.filter (fun r => match r.due with | some d => d ≤ now | none => false))

/-- Every fixed-latency result of one window that is due by a cycle written back. -/
def State.settleWin (s : State) (now ep w : Nat) : State :=
  ((s.frame ep w).dueResults now).foldl (fun t r =>
    match (t.frame ep w).outs.find? (fun q => q.uid == r.uid) with
    | some q => t.writeBack ep w q q.val q.flags false
    | none => t) s

/-- Every fixed-latency result of a core that is due by a cycle written back. -/
def State.settleBy (s : State) (now ep : Nat) : State := (List.range 8).foldl (fun t w => t.settleWin now ep w) s
/-- Every due fixed-latency result of a core written back. -/
def State.settle (s : State) (ep : Nat) : State := s.settleBy s.now ep
/-- Every due fixed-latency result of the module written back (R41): what a step finds in registers, flags and the window. -/
def State.settleAll (s : State) : State := s.cores.foldl (fun t p => t.settle p.1) s

/-! ## Faults (R38-R40, R76, R215) -/

/-- `raise(cause, value)` of R76: the bundle ends with no effect, the frame becomes FAULTING, and the trap is taken when its
results are complete. -/
def State.raise (s : State) (cause : Nat) (value : Word) : State :=
  let s := s.modCf (fun f => { f with
    st := .faulting
    pc := s.iss.pc
    answer := none
    pending := some (PFault.mk (BitVec.ofNat 6 cause) value s.iss.pc false) })
  { s with iss := { s.iss with stop := .fault } }.later (.trapEntry s.iss.ep)

/-- The value of EVAL for cause 2 of the C-slot (R39). -/
def evalC (s : State) : Word := s.iss.w0.setWidth 64
/-- The value of EVAL for cause 2 of the A-slot (R39). -/
def evalA (s : State) : Word := 0x100000000 ||| s.iss.w1.setWidth 64
/-- The value of EVAL for a bundle-level cause 2 (R39). -/
def evalB (s : State) : Word := 0x200000000 ||| s.iss.w0.setWidth 64
/-- Illegal instruction in the C-slot. -/
def State.illegalC (s : State) : State := s.raise 2 (evalC s)
/-- Illegal instruction in the A-slot. -/
def State.illegalA (s : State) : State := s.raise 2 (evalA s)

/-- Whether a bundle held for a reason has read its operands already (R11, R36): one that waits for an answer, or stalls on a full copy
FIFO. -/
def Hold.hasRead : Hold → Bool
  | .answer => true
  | .copyFifo => true
  | _ => false
/-- The bundle is held at issue or the frame parked before it (R11): it issues again when the reason has ended, with what it has read
(R36). -/
def State.hold (s : State) (h : Hold) : State :=
  let s := s.modCf (fun f => { f with
    st := .parked, hold := h, pc := s.iss.pc
    latch := if h.hasRead && f.latch.isNone
      then some (f.latched (if f.nLanes == 0 then [] else (List.range 32).map (fun r => s.vread s.iss.ep s.iss.win (BitVec.ofNat 5 r))))
      else f.latch })
  { s with iss := { s.iss with stop := .held } }

/-! ## The stack of frames, thresholds and selection (R206, R207, R223) -/

/-- The top frame's window: the highest that is not FREE. -/
def Core.top (c : Core) : Option Nat := (List.range 8).reverse.find? (fun w => (c.win w).st != .free)
/-- The highest window below `w` that is not FREE. -/
def Core.below (c : Core) (w : Nat) : Option Nat := (List.range w).reverse.find? (fun k => (c.win k).st != .free)
/-- The highest ceiling among the claims held (R207). -/
def Core.claimCeil (c : Core) : Option Nat :=
  c.claims.foldl (fun acc sl => some (Nat.max (acc.getD 0) (fld (vget 0 c.ceiling sl) 0 3))) none
/-- The larger of two thresholds; `none` is below level 0. -/
def maxLevel : Option Nat → Option Nat → Option Nat
  | none, b => b
  | a, none => a
  | some a, some b => some (Nat.max a b)
/-- The threshold (R207); a frame that has been selected for a push counts as the top frame (R208). -/
def Core.threshold (c : Core) : Option Nat :=
  maxLevel (maxLevel c.top c.claimCeil) (c.push.getLast?.map (fun e => e.rel.prio.toNat))
/-- Whether a level is above the threshold. -/
def Core.above (c : Core) (p : Nat) : Bool :=
  match c.threshold with
  | none => true
  | some t => p > t
/-- Whether a level has work: a waiting release, or, with its FIFO and ring empty, a deque entry (R206, R458). -/
def Core.hasWork (c : Core) (p : Nat) : Bool :=
  !(vget [] c.fifo p).isEmpty || ((vget [] c.ring p).isEmpty && c.spawn.deque.any (fun d => d.1.rel.prio.toNat == p))
/-- The highest level above the threshold with work (R206). -/
def Core.selectable (c : Core) : Option Nat := (List.range 8).reverse.find? (fun p => c.hasWork p && c.above p)

/-! ## Deques (R457, R458) -/

/-- ENTRIES of DQCFG. -/
def SpawnUnit.ringSize (u : SpawnUnit) : Nat := fld u.cfg 32 16
/-- The LM offset of a place of the overflow ring. -/
def SpawnUnit.ringAt (u : SpawnUnit) (k : Nat) : Nat := fld u.cfg 0 19 + 128 * k
/-- Whether a deque has no room. -/
def SpawnUnit.full (u : SpawnUnit) : Bool := 64 + u.ringSize ≤ u.deque.length
/-- A deque entry in the layout of R457. -/
def childWords (c : Child) : List Word :=
  (List.range 8).map (fun k => c.record.getD k 0) ++ [c.path,
    BitVec.ofNat 64 (c.rel.asid.toNat * 2 ^ 48 + c.jscope * 2 ^ 42 + c.jcore * 2 ^ 30 + c.jidx * 2 ^ 24 + bitNat c.nj * 2 ^ 23
      + c.rel.prio.toNat * 2 ^ 20 + c.dom * 2 ^ 18 + bitNat c.hashed * 2 ^ 17 + c.ordinal % 2 ^ 16), 0, 0, 0, 0, 0, 0]
/-- A deque entry read back from the overflow ring; what the layout does not hold is kept. -/
def childOfWords (c : Child) (ws : List Word) : Child :=
  let w := fun (k : Nat) => ws.getD k 0
  { c with
    record := (List.range 8).map w, path := w 8
    rel := { c.rel with asid := BitVec.ofNat 16 (fld (w 9) 48 16), prio := BitVec.ofNat 3 (fld (w 9) 20 3),
                        gen := BitVec.ofNat 16 (fld (w 1) 32 16) }
    jscope := fld (w 9) 42 3, jcore := fld (w 9) 30 12, jidx := fld (w 9) 24 6, nj := bitOf (w 9) 23, dom := fld (w 9) 18 2
    hashed := bitOf (w 9) 17, ordinal := fld (w 9) 0 16 }
/-- A deque entry as it stands: from its place in the overflow ring, when it lies there. -/
def State.childAt (s : State) (ep : Nat) (d : Child × Option Nat) : Child :=
  match d.2 with
  | none => d.1
  | some k => childOfWords d.1 ((List.range 16).map (fun i => s.lmWord ep ((s.core ep).spawn.ringAt k + 8 * i)))
/-- The state with a spawn unit changed. -/
def State.modSpawn (s : State) (ep : Nat) (k : SpawnUnit → SpawnUnit) : State := s.modCore ep (fun c => { c with spawn := k c.spawn })
/-- Deque entries whose place in the overflow ring holds an uncorrectable error are lost, and the front end is told (R205, R522). -/
def State.dequeLost (s : State) (ep : Nat) : State :=
  let bad := fun (d : Child × Option Nat) => match d.2 with
    | none => false
    | some k => s.lmBad ep ((s.core ep).spawn.ringAt k) 128
  let gone := (s.core ep).spawn.deque.filter bad
  if gone.isEmpty then s
  else gone.foldl (fun t d => t.out (.lostRecord ep d.1.rel)) (s.modSpawn ep (fun u => { u with deque := u.deque.filter (fun d => !bad d) }))
/-- The oldest overflow entries move into the 64 hardware places that are free. -/
def State.dequeFill (s : State) (ep : Nat) : State :=
  let u := (s.core ep).spawn
  let low := (u.deque.take 64).map (fun d => (s.childAt ep d, (none : Option Nat)))
  s.modSpawn ep (fun u => { u with deque := low ++ u.deque.drop 64 })
/-- An entry pushed at the newest end (R457): into a hardware place, or the lowest free place of the overflow ring. -/
def State.dequeAdd (s : State) (ep : Nat) (c : Child) : State :=
  let u := (s.core ep).spawn
  let s := s.modSpawn ep (fun u => { u with attempts := 0 })
  if u.deque.length < 64 then s.modSpawn ep (fun u => { u with deque := u.deque ++ [(c, none)] })
  else
    let k := ((List.range u.ringSize).find? (fun k => !u.deque.any (fun d => d.2 == some k))).getD 0
    (s.lmWrite ep (u.ringAt k) ((childWords c).flatMap (fun w => toBytes 8 w.toNat))).modSpawn ep
      (fun u => { u with deque := u.deque ++ [(c, some k)] })
/-- The last element of a list that a test holds for, and the list without it. -/
def takeLast {α : Type} (f : α → Bool) (l : List α) : Option (α × List α) :=
  match l.reverse.find? f, l.reverse.findIdx? f with
  | some a, some i => some (a, (l.reverse.eraseIdx i).reverse)
  | _, _ => none
/-- What a deque entry is when selection takes it (R458): its reads of the descriptor and entry line follow (read status 3); 16 for
NJ, else 8 + JSCOPE, marks a spawned child. -/
def entryOfChild (c : Child) : Entry :=
  Entry.mk c.rel c.record 0 0 0 0 3 0 none none none c.path (if c.nj then 16 else 8 + c.jscope)

/-- Selection (R206, R458): the oldest release of the highest ready level above the threshold, or the newest deque entry of that
level, is taken for a push. Pushes already selected stay in front of it (R208). -/
def State.select (s : State) (ep : Nat) : State :=
  let s := s.dequeLost ep
  let c := s.core ep
  if c.code != 0 then s
  else match c.selectable with
    | none => s
    | some p =>
      match vget [] c.fifo p with
      | [] => match takeLast (fun d => d.1.rel.prio.toNat == p) c.spawn.deque with
        | none => s
        | some (d, l) =>
          let e := entryOfChild (s.childAt ep d)
          ((s.setCore ep { c with spawn := { c.spawn with deque := l }, push := c.push ++ [e] }).dequeFill ep).later (.framePush ep)
      | e :: l =>
        let s := (s.setCore ep { c with fifo := vset c.fifo p l, push := c.push ++ [e] }).later (.framePush ep)
        if (vget [] c.ring p).isEmpty then s else s.later (.fifoRingMove ep p)

/-- What a frame that is top again takes up: its trap, its pop, the read streams it had dropped (R224, R285). -/
def State.resume (s : State) (ep w : Nat) (st : FState) : State :=
  let s := (List.range 4).foldl (fun t j =>
    let x := (t.frame ep w).stream j
    if x.bound && !x.write then t.later (.streamFill ep w j) else t) s
  match st with
  | .faulting => s.later (.trapEntry ep)
  | .ending => s.later (.framePop ep)
  | _ => s

/-- The claims of window `w` released (R204, R222). -/
def Core.dropClaims (c : Core) (w : Nat) : Core :=
  let mine := c.claims.filter (fun sl => fld (vget 0 c.ceiling sl) 8 3 == w)
  { c with
    claims := c.claims.filter (fun sl => !mine.contains sl)
    ceiling := mine.foldl (fun t sl => vset t sl (setFld (vget 0 t sl) 11 1 0)) c.ceiling }

end Sys2Proof.Machine
end

