-- ==== Sys2Proof/Machine/Translate.lean ====
section
/-! DEFINITION. Homes of lines, reading device memory, and translation (04_memory.md R108, R110-R112, R122-R126;
12_home_agents.md R396, R397). -/

namespace Sys2Proof.Machine

/-- A slab. -/
def State.slab (s : State) (k : Nat) : Slab := s.slabs.get Slab.reset k
/-- The state with one slab changed. -/
def State.modSlab (s : State) (k : Nat) (g : Slab → Slab) : State := { s with slabs := s.slabs.put k (g (s.slab k)) }
/-- A home agent by endpoint. -/
def State.home (s : State) (ep : Nat) : Home := s.homes.get Home.reset ep
/-- The state with one home replaced. -/
def State.setHome (s : State) (ep : Nat) (h : Home) : State := { s with homes := s.homes.put ep h }
/-- The state with one home changed. -/
def State.modHome (s : State) (ep : Nat) (g : Home → Home) : State := s.setHome ep (g (s.home ep))

/-- The slab that owns a physical address (R108). -/
def paSlab (pa : Nat) : Nat := pa / 0x2000000000
/-- Whether a physical address is populated: below 96 GiB of a slab's range (R108). -/
def paPopulated (pa : Nat) : Bool := pa < 0x8000000000 && pa % 0x2000000000 < 0x1800000000
/-- The line of a physical address (R396). -/
def lineOf (pa : Nat) : Nat := pa / 128 * 128
/-- The home agent's endpoint of a physical address (R396). -/
def homeOf (pa : Nat) : Nat :=
  agentEp (paSlab pa) (0x20 + (((pa / 2 ^ 7) % 32) ^^^ ((pa / 2 ^ 12) % 32)))
/-- The set of a line within its slice (R396). -/
def lineSet (pa : Nat) : Nat := pa / 2 ^ 17 % 4096

/-- The agent id of a caching endpoint (R397); 512 for an endpoint with none. -/
def agentId (ep : Nat) : Nat :=
  match epClass ep with
  | 1 => 32 * epSlab ep + ep % 32
  | 2 => 128 + 32 * epSlab ep + ep % 32
  | 3 => if ep % 1024 == 0x80 then 256 else 512
  | _ => 512
/-- The endpoint of an agent id (R397). -/
def agentEpOf (a : Nat) : Nat :=
  if a < 128 then memCoreEp (a / 32) (a % 32)
  else if a < 256 then copyEp ((a - 128) / 32) (a % 32)
  else agentEp 3 0x80

/-- The 128 bytes of a DRAM line as a number. -/
def State.dramLine (s : State) (line : Nat) : BitVec 1024 := BitVec.ofNat 1024 (memNat s.mem (dramKey line) 128)
/-- A line's data as its home sees it: the LLC, else DRAM (R401). -/
def State.homeLine (s : State) (line : Nat) : BitVec 1024 :=
  match (s.home (homeOf line)).llc.find line with
  | some l => l.data
  | none => s.dramLine line

/-- The snoop-filter entry of a line (R399). -/
def Home.sfOf (h : Home) (line : Nat) : Option SfEntry := h.sf.find? (fun e => e.line == line)

/-- The data of a line held dirty or exclusively by a memory core that the home records as owner (R401). -/
def State.ownerLine (s : State) (line : Nat) : Option CLine :=
  match (s.home (homeOf line)).sfOf line with
  | some e =>
    if e.state != 1 && e.owner < 128 then
      let d := (s.core (agentEpOf e.owner)).dcache
      match d.lines.find line with
      | some c => if c.st == .i || c.st == .s then d.wbuf.find line else some c
      | none => d.wbuf.find line
    else none
  | none => none

/-- A line's current data: the owner's when one exists, else the LLC's, else DRAM's (R401, R409). -/
def State.peekLine (s : State) (line : Nat) : BitVec 1024 :=
  match s.ownerLine line with
  | some c => c.data
  | none => s.homeLine line

/-- `n` bytes of a line from byte `o` on. -/
def lineBytes (d : BitVec 1024) (o n : Nat) : List Byte := toBytes n (d.toNat >>> (8 * o))

/-- A line with bytes from `o` on replaced. -/
def linePut (d : BitVec 1024) (o : Nat) (l : List Byte) : BitVec 1024 :=
  let m := (2 ^ (8 * l.length) - 1) <<< (8 * o)
  BitVec.ofNat 1024 ((d.toNat &&& (2 ^ 1024 - 1 - m)) ||| (ofBytes l <<< (8 * o)))

/-- An aligned 8-byte word of device memory, current data. -/
def State.paWord (s : State) (pa : Nat) : Word :=
  BitVec.ofNat 64 (ofBytes (lineBytes (s.peekLine (lineOf pa)) (pa % 128) 8))

/-- `n` words of device memory from an aligned address on. -/
def State.paWords (s : State) (pa n : Nat) : List Word := (List.range n).map (fun i => s.paWord (pa + 8 * i))

/-- Bytes of device memory, current data, that may cross lines. -/
def State.paBytes (s : State) (pa n : Nat) : List Byte :=
  (List.range n).flatMap (fun i => lineBytes (s.peekLine (lineOf (pa + i))) ((pa + i) % 128) 1)

/-! ## ASID descriptors and walks -/

/-- Word `i` of an ASID's descriptor (R111). -/
def State.asidWord (s : State) (asid : BitVec 16) (i : Nat) : Word :=
  s.paWord (s.asidtab.toNat + 32 * asid.toNat + 8 * i)

/-- Whether an ASID's descriptor is usable: V set, no reserved bit, HTCOUNT 1 to 4096 (R111). -/
def State.asidOk (s : State) (asid : BitVec 16) : Bool :=
  let w0 := s.asidWord asid 0; let w1 := s.asidWord asid 1; let w2 := s.asidWord asid 2; let w3 := s.asidWord asid 3
  bitOf w0 0 && zeroField w0 52 12 && zeroField w0 1 4 && zeroField w1 13 51 && zeroField w2 52 12 && zeroField w2 0 18
    && w3 == 0 && 1 ≤ fld w1 0 13 && fld w1 0 13 ≤ 4096

/-- How a translation ends (R108, R124). -/
inductive TRes where
  | ok (pa : Nat) (ns : Bool)
  | pageFault
  | unpopulated
  deriving DecidableEq, Repr

/-- What an access needs of a leaf (R123). -/
inductive Need where
  | read | write | atomic
  deriving DecidableEq, Repr

/-- The page sizes in bits (R123). -/
def pageBits (size : Nat) : Nat :=
  match size with
  | 0 => 12 | 1 => 14 | 2 => 16 | 3 => 18 | 4 => 21 | 5 => 25 | 6 => 30 | _ => 34

/-- Whether a leaf size is listed for a level (R122). -/
def sizeAtLevel (level size : Nat) : Bool :=
  match level with
  | 1 => size == 6 || size == 7
  | 2 => size == 4 || size == 5
  | 3 => size ≤ 3
  | _ => false

/-- The index bits of a level: low bit and width (R122). -/
def levelBits (level : Nat) : Nat × Nat :=
  match level with
  | 0 => (42, 15)
  | 1 => (30, 12)
  | 2 => (21, 9)
  | _ => (12, 9)

/-- The alignment of a level's table (R122). -/
def tableAlign (level : Nat) : Nat :=
  match level with
  | 0 => 2 ^ 18
  | 1 => 2 ^ 15
  | _ => 2 ^ 12

/-- Whether a leaf permits an access (R123, R124). -/
def leafPermits (pte : Word) (need : Need) : Bool :=
  match need with
  | .read => true
  | .write => bitOf pte 2
  | .atomic => bitOf pte 3

/-- The physical address a leaf gives (R123). -/
def leafAddr (pte : Word) (bits va : Nat) : Nat :=
  (fld pte 12 40 * 4096) / 2 ^ bits * 2 ^ bits + va % 2 ^ bits

/-- A finished walk: its end, the leaf to cache, and the entries read. -/
structure Walk where
  leaf : Option TlbEntry
  res : TRes
  read : List (Nat × Word)
  deriving DecidableEq, Repr

/-- A walk from level `4 - k` with the table at `tab` (R122-R125): the slab's walk cache answers first. -/
def State.walkFrom (s : State) (sl : Nat) (asid : BitVec 16) (va : Nat) (need : Need) : Nat → Nat → List (Nat × Word) → Walk
  | 0, _, rd => Walk.mk none .pageFault rd
  | k + 1, tab, rd =>
    let level := 3 - k
    let (lo, n) := levelBits level
    let pa := tab + 8 * ((va >>> lo) % 2 ^ n)
    if !paPopulated pa then Walk.mk none .unpopulated rd
    else
      let pte := match (s.slab sl).walks.find? (fun e => e.1 == asid && e.2.1 == pa) with
        | some e => e.2.2
        | none => s.paWord pa
      let rd := rd ++ [(pa, pte)]
      if !bitOf pte 0 || !zeroField pte 52 9 || !zeroField pte 6 6 || bitOf pte 4 then Walk.mk none .pageFault rd
      else if bitOf pte 1 then
        let size := fld pte 61 3
        if !sizeAtLevel level size || !leafPermits pte need then Walk.mk none .pageFault rd
        else
          let bits := pageBits size
          let a := leafAddr pte bits va
          let e := TlbEntry.mk asid (va / 2 ^ bits * 2 ^ bits) bits pte
          if paPopulated a then Walk.mk (some e) (.ok a (bitOf pte 5)) rd else Walk.mk none .unpopulated rd
      else if fld pte 61 3 != 0 || bitOf pte 5 || bitOf pte 3 || bitOf pte 2 then Walk.mk none .pageFault rd
      else
        let next := fld pte 12 40 * 4096
        if level == 3 || next % tableAlign (level + 1) != 0 then Walk.mk none .pageFault rd
        else s.walkFrom sl asid va need k next rd

/-- A walk of an ASID's tables (R122-R124). An address with a bit above bit 56, which four levels and a 4 KiB page do not reach, is a page
fault; the spec does not say so (DESIGN CHOICE; log entry 52). -/
def State.walk (s : State) (sl : Nat) (asid : BitVec 16) (va : Nat) (need : Need) : Walk :=
  if va ≥ 2 ^ 57 then Walk.mk none .pageFault []
  else s.walkFrom sl asid va need 4 (fld (s.asidWord asid 2) 18 34 * 2 ^ 18) []

/-- A translation through a TLB, then the walkers (R125). -/
def State.translate (s : State) (tlb : List TlbEntry) (sl : Nat) (asid : BitVec 16) (va : Nat) (need : Need) : Walk :=
  match tlb.find? (fun e => e.asid == asid && e.page == va / 2 ^ e.bits * 2 ^ e.bits) with
  | some e =>
    if !leafPermits e.pte need then Walk.mk none .pageFault []
    else
      let a := leafAddr e.pte e.bits va
      if paPopulated a then Walk.mk none (.ok a (bitOf e.pte 5)) [] else Walk.mk none .unpopulated []
  | none => s.walk sl asid va need

/-- The walk cache keeps at most 16K entries, the oldest leaving first (R125). -/
def Slab.noteWalk (b : Slab) (asid : BitVec 16) (rd : List (Nat × Word)) : Slab :=
  let add := rd.filter (fun p => !(b.walks.any (fun e => e.1 == asid && e.2.1 == p.1)))
  let l := b.walks ++ add.map (fun p => (asid, p.1, p.2))
  { b with walks := l.drop (l.length - 16384) }

/-- A TLB with an entry filled; it keeps 256 (R125). -/
def tlbFill (tlb : List TlbEntry) (e : Option TlbEntry) : List TlbEntry :=
  match e with
  | none => tlb
  | some e => let l := tlb ++ [e]; l.drop (l.length - 256)

/-- What a walk for a core leaves cached. -/
def State.noteWalk (s : State) (ep : Nat) (w : Walk) (asid : BitVec 16) : State :=
  (s.modSlab (epSlab ep) (fun b => b.noteWalk asid w.read)).modCore ep (fun c => { c with tlb := tlbFill c.tlb w.leaf })

/-! ## Code (R148, R194) -/

/-- How a read of code space ends: its words, or status 1 (translation failed) or 2 (unpopulated), as R205 codes them. -/
def State.codeRead (s : State) (ep : Nat) (asid : BitVec 16) (va n : Nat) : Nat × List Word :=
  match (s.walk (epSlab ep) asid va .read).res with
  | .ok pa _ => (0, s.paWords (pa / 8 * 8) n)
  | .pageFault => (1, [])
  | .unpopulated => (2, [])

/-- The instruction-cache line size of the model, in bytes (log entry 7). -/
def ilineBytes : Nat := 128

/-- The line of a core's instruction cache that holds a code address. -/
def Core.iline (c : Core) (asid : BitVec 16) (va : Nat) : Option ILine :=
  c.icache.find? (fun l => l.asid == asid && l.va == va / ilineBytes * ilineBytes)

/-- An instruction-cache fill (R194); the cache keeps 32 KiB (R148). -/
def State.fillCode (s : State) (ep : Nat) (asid : BitVec 16) (va : Nat) : Nat × State :=
  let base := va / ilineBytes * ilineBytes
  match s.codeRead ep asid base (ilineBytes / 8) with
  | (0, ws) =>
    (0, s.modCore ep (fun c =>
      let l := c.icache.filter (fun l => !(l.asid == asid && l.va == base)) ++ [ILine.mk asid base ws]
      { c with icache := l.drop (l.length - 32768 / ilineBytes) }))
  | (k, _) => (k, s)

end Sys2Proof.Machine
end

