-- ==== Sys2Proof/Machine/Access.lean ====
section
/-! DEFINITION. Accesses: the checks at the source (04_memory.md R119-R121), what an access does at its owning port
(05_task_core.md R161-R169), monitors (06_frame_unit.md R213), the outbound access queue and its ordering (R133-R136, R170-R173)
and the completion of results (02_bundles.md R43). -/

namespace Sys2Proof.Machine

/-! ## Operations on the bytes of a location -/

/-- A signed reading of `n` bytes. -/
def asInt (n v : Nat) : Int := (BitVec.ofNat (8 * n) v).toInt

/-- The new value of an `AMO` (R167); `fadd` rounds RNE and raises no flag (R99). -/
def amoNew (op : AmoOp) (n old b : Nat) : Nat :=
  match op with
  | .add => (old + b) % 2 ^ (8 * n)
  | .andOp => old &&& b
  | .orOp => old ||| b
  | .xorOp => old ^^^ b
  | .min => if asInt n b < asInt n old then b else old
  | .max => if asInt n old < asInt n b then b else old
  | .minn => if b < old then b else old
  | .maxn => if old < b then b else old
  | .swap => b
  | .fadd => (fAdd (if n == 4 then .f32 else .f64) 0 old b).1

/-- The chunk that an `AMOG` claims: its count and start (R169). -/
def amogChunk (operand : Word) (w : Nat) : Nat × Nat :=
  let n := fld operand 32 32
  let d := Nat.max 1 (fld operand 16 16)
  let m := Nat.max 1 (fld operand 0 16)
  let i := w % 2 ^ 32
  if i ≥ n then (0, i)
  else
    let rem := n - i
    (Nat.min rem (Nat.max m (ceilDiv rem d)), i)

/-- The word an `AMOG` leaves behind, when its count is not zero (R169). -/
def amogNew (n w c : Nat) : Nat :=
  let lo := (w % 2 ^ 32 + c) % 2 ^ 32
  if n == 8 then lo + ((w / 2 ^ 32 + 1) % 2 ^ 32) * 2 ^ 32 else lo

end Sys2Proof.Machine
namespace Sys2Proof
open Machine
/-- The bytes an access touches. -/
def AccOp.size : AccOp → Nat
  | .load n => n
  | .store b => b.length
  | .amo _ n _ => n
  | .cas n _ _ => n
  | .amog n _ => n
  | .cmo _ _ _ => 1
  | .pf => 1

/-- An access on the bytes of its location: the bytes it stores, if any, and the bytes it answers with (R161, R167-R169). -/
def AccOp.apply (op : AccOp) (cur : List Byte) : Option (List Byte) × List Byte :=
  match op with
  | .load _ => (none, cur)
  | .store b => (some b, [])
  | .amo o n b => (some (toBytes n (amoNew o n (ofBytes cur) (b.toNat % 2 ^ (8 * n)))), cur)
  | .cas n e v => (if ofBytes cur == e.toNat % 2 ^ (8 * n) then some (toBytes n v.toNat) else none, cur)
  | .amog n opd =>
    let (c, i) := amogChunk opd (ofBytes cur)
    (if c == 0 then none else some (toBytes n (amogNew n (ofBytes cur) c)), toBytes 8 (c * 2 ^ 32 + i))
  | .cmo _ _ _ => (none, cur)
  | .pf => (none, [])

/-- Whether an access reads its location for its frame. -/
def AccOp.reads : AccOp → Bool
  | .store _ => false
  | .pf => false
  | .cmo k _ _ => k != .inv
  | _ => true
/-- Whether an access counts as a store: a store or an atomic (R120). -/
def AccOp.stores : AccOp → Bool
  | .load _ => false
  | .pf => false
  | .cmo k _ _ => k == .inv
  | _ => true
end Sys2Proof
namespace Sys2Proof.Machine

/-! ## At an LM port -/

/-- An access performed at an LM owning port in one indivisible step (R162, R167); the bytes it answers with, and whether they are
poisoned: an uncorrectable error in what it reads is a machine check, its data a free value, and an atomic then writes nothing
(R219, R522; log entry 61). -/
def State.lmPerform (s : State) (ep off : Nat) (op : AccOp) : State × List Byte × Bool :=
  let (w, r) := op.apply (s.lmRead ep off op.size)
  if op.reads && s.lmBad ep off op.size then
    let (b, s) := (s.machineCheck ep 7).freeBytes r.length
    (s, b, true)
  else match w with
  | none => (s, r, false)
  | some b => (s.lmWrite ep off b, r, false)

/-! ## Completion of results (R43) -/

/-- The value that the bytes of an answer give a destination. -/
def Frame.valOf (f : Frame) (d : Dst) (b : List Byte) : ResVal :=
  match d with
  | .v _ t => .lanes t (lanesOf t f.nLanes b)
  | _ => .word (BitVec.ofNat 64 (ofBytes b))

/-- An answer reaches the result that waits for it; a result of several pieces waits for the last, and one poisoned piece poisons it
(R219). -/
def State.complete (s : State) (a : Access) (b : List Byte) (poison : Bool) : State :=
  match a.res with
  | none => s
  | some uid =>
    let f := s.frame a.core a.win
    if f.fid != a.fid then s
    else match f.outs.find? (fun r => r.uid == uid) with
      | none => s
      | some r =>
        let poison := poison || r.bad
        if r.need ≤ 1 then s.later (.variableResultWriteback a.core a.win a.fid uid (f.valOf r.dst b) r.flags poison)
        else
          let parts := r.parts ++ [(a.part, b)]
          if parts.length < r.need then
            let upd := fun (q : Result) => if q.uid == uid then { q with parts := parts, bad := poison } else q
            s.setFrame a.core a.win { f with outs := f.outs.map upd }
          else
            let all := (sortBy (fun (p : Nat × List Byte) => p.1) parts).flatMap (fun p => p.2)
            s.later (.variableResultWriteback a.core a.win a.fid uid (f.valOf r.dst all) r.flags poison)

/-- A value ready for a variable-latency result of a frame. -/
def State.answerWord (s : State) (ep win fid : Nat) (uid : Option Nat) (v : Word) : State :=
  match uid with
  | none => s
  | some u => s.later (.variableResultWriteback ep win fid u (.word v) 0 false)

/-! ## The outbound access queue (R172) -/

/-- Whether an owning port lies within a scope's instance around an agent (R110, R132). -/
def inScope (sc : Scope) (a b : Nat) : Bool :=
  match sc with
  | .core => a == b
  | .geode => a == b || (epClass a == 0 && epClass b == 0 && epGeode a == epGeode b)
  | .slab => epSlab a == epSlab b
  | .module => true
  | .system => true

/-- The access of a queue entry. -/
def QEnt.acc? (e : QEnt) : Option Access :=
  match e.item with
  | .access a _ => some a
  | _ => none

/-- Whether an entry is a prefetch, which no fence and no access orders (R163). -/
def QEnt.isPf (e : QEnt) : Bool :=
  match e.item with
  | .access a _ => (match a.op with | .pf => true | _ => false)
  | _ => false
/-- The ordering of an access, as its queue entry holds it. -/
def Core.ordOf (c : Core) (id : Nat) : MemOrd :=
  match (c.oq.find? (fun e => e.id == id)).map QEnt.item with
  | some (.access _ o) => o
  | _ => .rlx

/-- Whether an entry is an unperformed access of a frame that a scope covers. -/
def QEnt.covered (e : QEnt) (ep fid : Nat) (sc : Scope) : Bool :=
  e.fid == fid && !e.isPf && (match e.item with | .access a _ => inScope sc ep a.owner | _ => false)

/-- Whether an entry's access reads (R136: an earlier load). -/
def QEnt.reads (e : QEnt) : Bool := match e.item with | .access a _ => a.op.reads | _ => false
/-- Whether an entry is a store, an atomic, a message or a release (R136: a later store). -/
def QEnt.stores (e : QEnt) : Bool :=
  match e.item with
  | .access a _ => a.op.stores
  | .fence _ _ => false
  | .release _ _ => true

/-- Whether two accesses reach one 8-byte word of one owning port (R133, R172). -/
def sameWord (a b : Access) : Bool :=
  match a.op, b.op with
  | .cmo _ l _, .cmo _ m _ => l.any (fun x => m.contains x)
  | .cmo _ l _, _ => b.space == 2 && l.contains (lineOf b.addr)
  | _, .cmo _ m _ => a.space == 2 && m.contains (lineOf a.addr)
  | _, _ => a.owner == b.owner && a.space == b.space && a.addr / 8 ≤ (b.addr + b.op.size - 1) / 8
    && b.addr / 8 ≤ (a.addr + a.op.size - 1) / 8

/-- Whether an earlier fence of the frame holds an entry back: `before` are the entries older than the fence. -/
def fenceHolds (ep fid : Nat) (before : List QEnt) (k : FenceKind) (sc : Scope) (e : QEnt) : Bool :=
  let cov := before.filter (fun q => q.covered ep fid sc)
  match k with
  | .acq => cov.any QEnt.reads
  | .rel => e.stores && !cov.isEmpty
  | .ar => cov.any QEnt.reads || (e.stores && !cov.isEmpty)
  | .sc => !cov.isEmpty

/-- Whether a fence waits for the snoops in the agent's incoming queue: an acquire, or `.sc` at module or system scope
(R405). -/
def fenceWaitsSnoops (k : FenceKind) (sc : Scope) : Bool :=
  match k with
  | .rel => false
  | .sc => sc == .module || sc == .system
  | _ => true

/-- Whether an older entry `q`, with `before` those older than it, holds `e` back (R133, R134, R136, R145, R162, R170, R172); `snoops`
says whether answered snoops are still to be applied (R405). A prefetch holds nothing and nothing holds it (R163). -/
def olderHolds (ep : Nat) (snoops : Bool) (before : List QEnt) (q e : QEnt) : Bool :=
  !q.isPf && !e.isPf && match q.item with
  | .fence k sc => q.fid == e.fid && (fenceHolds ep e.fid before k sc e || (snoops && fenceWaitsSnoops k sc))
  | .release _ _ => false
  | .access a ord =>
    let word := match e.acc? with | some b => !q.left && sameWord a b | none => false
    let localOrder := match e.acc? with
      | some b => q.fid == e.fid && !q.left && a.space == 0 && b.space == 0
      | none => false
    let hostOrder := match e.acc? with
      | some b => !q.left && a.space == 4 && b.space == 4 && a.op.stores
      | none => false
    let acq := q.fid == e.fid && (ord == .acq || ord == .ar)
    let rel := match e.item with
      | .access _ o => q.fid == e.fid && (o == .rel || o == .ar)
      | .release sc _ => q.covered ep e.fid sc
      | .fence _ _ => false
    word || localOrder || hostOrder || acq || rel || (q.seqd && q.grp == e.grp && (!q.left || match e.acc? with | some b => a.space == 2 && a.owner == b.owner | none => false))

/-- Whether an entry is a fence. -/
def QEnt.isFence (e : QEnt) : Bool := match e.item with | .fence _ _ => true | _ => false

/-- The LM offset of step `k` of a stream (R282). -/
def streamOff (w0 w1 w2 : Word) (k : Nat) : Int :=
  let n0 := fld w2 0 32
  (fld w0 0 19 : Int) + ((k % n0 : Nat) : Int) * ((BitVec.ofNat 32 (fld w1 0 32)).toInt)
    + ((k / n0 : Nat) : Int) * ((BitVec.ofNat 32 (fld w1 32 32)).toInt)
/-- A LOCAL store of a write stream in the place of its producing instruction (R284); `left` unless it must be performed before later
LOCAL accesses (R286). -/
def streamEnt (ep fid win uid off : Nat) (b : List Byte) (left : Bool) : QEnt :=
  QEnt.mk uid fid win (.access (Access.mk ep win fid 0 uid 0 ep off none 0 false false (.store b) win) .rlx) left uid false
/-- The unwritten entries of a write stream as LOCAL stores. -/
def Stream.stores (t : Stream) (ep fid win : Nat) (left : Bool) : List QEnt :=
  t.buf.zipIdx.map (fun p => streamEnt ep fid win p.1.uid (streamOff t.w0 t.w1 t.w2 (t.pos + p.2)).toNat p.1.bytes left)
/-- The image of a vector result whose value is known at issue. -/
def Result.image (r : Result) : List Byte := match r.val with | .lanes t l => imageOf t l | _ => []
/-- The LOCAL stores of an unbound write stream, its outstanding results among them, in the place of its `VSFREE`: they go before the
frame's later LOCAL accesses (R286). -/
def Closing.stores (x : Closing) (ep : Nat) (outs : List Result) : List QEnt :=
  let t := x.stream
  let more := outs.filter (fun r => r.sid == t.sid && !r.dead)
  (t.buf.map (fun e => e.bytes) ++ more.map Result.image).zipIdx.map (fun p =>
    streamEnt ep x.fid x.win x.since (streamOff t.w0 t.w1 t.w2 (t.pos + p.2)).toNat p.1 false)
/-- The LOCAL stores of write streams that are not performed yet, each in the place of its producing instruction: entries of bound
streams, of unbound ones, and results outstanding for either. -/
def Core.streamStores (c : Core) (ep : Nat) : List QEnt :=
  let ofWin := fun (w : Nat) =>
    let f := c.win w
    (List.range 4).flatMap (fun j => if (f.stream j).bound && (f.stream j).write then (f.stream j).stores ep f.fid w true else [])
      ++ (f.outs.filter (fun r => r.sid != 0 && !r.dead)).map (fun r => streamEnt ep f.fid w r.uid 0 [] true)
  (List.range 8).flatMap ofWin ++ c.closing.flatMap (fun x =>
    x.stream.stores ep x.fid x.win true ++ (if x.first then x.stores ep (c.win x.win).outs else []))
/-- The queue in program order, stores of write streams included. -/
def Core.queue (c : Core) (ep : Nat) : List QEnt :=
  match c.streamStores ep with
  | [] => c.oq
  | l => sortBy QEnt.id (c.oq ++ l)

/-- Whether any entry older than `e` holds it back. -/
def heldBy (ep : Nat) (snoops : Bool) (e : QEnt) : List QEnt → List QEnt → Bool
  | _, [] => false
  | before, q :: l => if q.id == e.id then false else olderHolds ep snoops before q e || heldBy ep snoops e (before ++ [q]) l

/-- Whether a queue entry may leave (R172); on a memory core an acquire waits for snoops not yet applied (R405). -/
def Core.canLeave (c : Core) (ep : Nat) (e : QEnt) : Bool :=
  let acq := match e.item with | .access _ o => o == .acq || o == .ar | _ => false
  let snoops := !c.dcache.snoops.isEmpty
  !heldBy ep snoops e [] (c.queue ep) && !(acq && snoops)

/-- A core's queue without the fences that have had their effect: no earlier access of their frame is left unperformed, and there is no
snoop to wait for. -/
def Core.prune (c : Core) (ep : Nat) : Core :=
  let waits := fun (q : QEnt) => match q.item with
    | .fence k sc => (c.queue ep).any (fun e => e.id < q.id && e.fid == q.fid && !e.isPf && !e.isFence)
      || (!c.dcache.snoops.isEmpty && fenceWaitsSnoops k sc)
    | _ => true
  { c with oq := c.oq.filter waits }

/-- The new state of a line, and whether its data is sent, when a snoop is applied (R402). -/
def snoopStep (st : LState) (ty : SnpType) : LState × Bool :=
  match ty, st with
  | .snpS, .m => (.o, true)
  | .snpS, .o => (.o, true)
  | .snpS, .e => (.s, false)
  | .snpS, .s => (.s, false)
  | .snpInv, .m => (.i, true)
  | .snpInv, .o => (.i, true)
  | .backInv, .m => (.i, true)
  | .backInv, .o => (.i, true)
  | .snpInv, _ => (.i, false)
  | .backInv, _ => (.i, false)
  | .snpCur, .m => (.m, true)
  | .snpCur, .o => (.o, true)
  | .snpCur, x => (x, false)
  | .snpCln, .m => (.e, true)
  | .snpCln, .o => (.s, true)
  | .snpCln, x => (x, false)
  | .snpS, .i => (.i, false)

/-- A snoop applied to a data cache. -/
def DCache.snoop (d : DCache) (line : Nat) (ty : SnpType) : DCache :=
  match d.lines.find line with
  | none => d
  | some l =>
    let st := (snoopStep l.st ty).1
    { d with lines := if st == .i then d.lines.del line else d.lines.put line { l with st := st } }

/-- A data cache with the answered snoops of one line applied. -/
def DCache.applyLine (d : DCache) (line : Nat) : DCache :=
  { (d.snoops.filter (fun p => p.1 == line)).foldl (fun (x : DCache) p => x.snoop p.1 p.2) d with
    snoops := d.snoops.filter (fun p => p.1 != line) }
/-- The answered snoops of a line applied by every agent of a slab at one moment, so that agents of one slab see a store at once
(R139). -/
def State.slabApply (s : State) (sl line : Nat) : State :=
  { s with cores := s.cores.map (fun p => if isMemCore p.1 && epSlab p.1 == sl
      then (p.1, ({ p.2 with dcache := p.2.dcache.applyLine line } : Core).prune p.1) else p) }
/-- Every answered snoop of a memory core applied, as an acquire and the start of a task leave it (R137, R138, R140, R144). -/
def State.applyAll (s : State) (ep : Nat) : State :=
  (s.core ep).dcache.snoops.foldl (fun t p => t.slabApply (epSlab ep) p.1) s
/-- An access has been performed: its entry goes, and fences that waited for it may go; after an acquire no snoop answered before is
left to apply (R137). -/
def State.performed (s : State) (ep id : Nat) : State :=
  let acq := (s.core ep).ordOf id == .acq || (s.core ep).ordOf id == .ar
  (if acq then s.applyAll ep else s).modCore ep (fun c => ({ c with oq := c.oq.filter (fun e => e.id != id) } : Core).prune ep)

/-- Whether an item takes an entry of the 32 (R172): a fence takes none. -/
def QItem.counts : QItem → Bool
  | .fence _ _ => false
  | _ => true

/-- The entries that count toward the 32 of R172: accesses, messages and releases of which a part has not left; the accesses of one
instruction share an entry (R119). -/
def Core.queueDepth (c : Core) : Nat := ((c.oq.filter (fun e => !e.left && e.item.counts)).map QEnt.grp).eraseDups.length

/-! ## GLOBAL accesses of a memory core through its data cache (R149, R404) -/

/-- Whether a line's state lets an access be performed in the cache (R398); a prefetch asks only for a line not held. -/
def lineAllows (st : LState) (op : AccOp) : Bool :=
  match st with
  | .m => true
  | .e => true
  | .o => !op.stores
  | .s => !op.stores
  | .i => op == .pf

/-- An access performed on a cached line; a store makes E into M (R398, R404). -/
def CLine.perform (l : CLine) (o : Nat) (op : AccOp) : CLine × List Byte :=
  let (w, r) := op.apply (lineBytes l.data o op.size)
  match w with
  | none => (l, r)
  | some b => ({ l with data := linePut l.data o b, st := .m }, r)

/-- A request of an agent for a line. -/
def homeReq (k : HomeKind) (ep line : Nat) (asid : BitVec 16) (noalloc pin : Bool) : HomeReq :=
  HomeReq.mk k (agentId ep) ep asid (homeOf line) line false 0 0 false 0 0 noalloc pin 0 false 0 false
/-- A request of a memory core for a line, for an access of a frame of a level (R233). -/
def frameReq (k : HomeKind) (ep prio line : Nat) (asid : BitVec 16) (noalloc pin : Bool) : HomeReq :=
  { homeReq k ep line asid noalloc pin with prio := prio }

end Sys2Proof.Machine
namespace Sys2Proof
open Machine
/-- The packet that a request to a home is (R400). -/
def HomeReq.event (q : HomeReq) : Event :=
  match q.kind with
  | .rds => .rds q
  | .rdo => .rdo q
  | .upg => .upg q
  | .wb => .wb q
  | .claim => .rangeClaim q
  | .claimWrite => .claimwrite q
  | .claimEnd => .claimend q
  | .cmo _ => .cmo q
  | .armReq a => .arm a
end Sys2Proof
namespace Sys2Proof.Machine

/-- A request sent to its home. -/
def State.askHome (s : State) (q : HomeReq) : State := s.send 0 q.src q.home q.event

/-- The request for a line that a waiting access makes. -/
def State.askFor (s : State) (a : Access) (line : Nat) (noalloc pin : Bool) : State :=
  s.askHome (frameReq (if a.op.stores then .rdo else .rds) a.core a.prio line a.asid noalloc pin)
/-- The first access that waits for a line asks for it again, its write-back having been acknowledged. -/
def State.askPend (s : State) (ep line : Nat) : State :=
  match (s.core ep).dcache.pend.find? (fun p => lineOf p.1.addr == line) with
  | some (a, _, noalloc, pin) => s.askFor a line noalloc pin
  | none => s

/-- A GLOBAL access reaches the data cache: performed there when the line's state allows it, else a request goes to the home
and the access waits for the grant; accesses to a line already asked for wait behind it. A line whose write-back is outstanding is
asked for when that is acknowledged, so that the home never serves the request first (R402, R403). -/
def State.cacheAccess (s : State) (a : Access) (noalloc pin : Bool) : State :=
  let ep := a.core
  let d := (s.core ep).dcache
  let line := lineOf a.addr
  let waiting := d.pend.any (fun p => lineOf p.1.addr == line)
  let cur := d.lines.find line
  let wait := fun (t : State) => t.modCore ep (fun c =>
    { c with dcache := { c.dcache with pend := c.dcache.pend ++ [(a, line, noalloc, pin)] } })
  if waiting then wait s
  else match cur with
    | some l =>
      if lineAllows l.st a.op then
        let (l', r) := l.perform (a.addr % 128) a.op
        let s := s.modCore ep (fun c => { c with dcache := { c.dcache with lines := c.dcache.lines.put line l' } })
        (s.performed ep a.id).complete a r l.poison
      else
        let k : HomeKind := if l.st == .i then (if a.op.stores then .rdo else .rds) else .upg
        (wait s).askHome (frameReq k ep a.prio line a.asid noalloc pin)
    | none => if (d.wbuf.find line).isSome then wait s else (wait s).askFor a line noalloc pin

/-! ## Leaving the queue -/

end Sys2Proof.Machine
namespace Sys2Proof
open Machine
/-- The two elements of a store that carries a pair (R236). -/
def Access.pair? (a : Access) : Option (List Byte × List Byte) :=
  match a.op with
  | .store b => if a.part != 0 && b.length == 2 * a.part then some (b.take a.part, b.drop a.part) else none
  | _ => none
/-- The remote-access packet of an access (R234, R236). -/
def Access.packet (a : Access) : Event :=
  match a.op with
  | .load _ => .load a
  | .store _ => .store a
  | .amo _ _ _ => .atomic a
  | .cas _ _ _ => .atomic a
  | .amog _ _ => .atomic a
  | .cmo _ _ _ => .load a
  | .pf => .load a
end Sys2Proof
namespace Sys2Proof.Machine

/-- An access leaves for its owning port: LM of the same core performs at once, the rest travels (R107, R134). -/
def State.dispatch (s : State) (a : Access) : State :=
  match a.op, a.space.toNat with
  | .cmo k lines _, _ =>
    lines.foldl (fun t l => t.askHome { frameReq (.cmo k) a.core a.prio l a.asid false false with tag := a.id }) s
  | _, n =>
  match n with
  | 0 =>
    let (s, r, bad) := s.lmPerform a.owner a.addr a.op
    (s.performed a.core a.id).complete a r bad
  | 2 => s.cacheAccess a a.noalloc a.pin
  | 4 => s.send 0 a.core a.owner (.hostAccessRequest a)
  | _ => s.send 0 a.core a.owner a.packet

/-- A queue entry marked as having left. -/
def State.markLeft (s : State) (ep id : Nat) : State :=
  let upd := fun (e : QEnt) => if e.id == id then { e with left := true } else e
  s.modCore ep (fun c => { c with oq := c.oq.map upd })

/-- A queue entry leaves: an access is dispatched; a release or message goes out, or an internal operation (class 4) begins, and its entry
ends. -/
def State.leave (s : State) (ep : Nat) (e : QEnt) : State :=
  match e.item with
  | .access a _ => (s.markLeft ep e.id).dispatch a
  | .fence _ _ => s
  | .release _ evs => evs.foldl (fun t p => if p.1 == 4 then t.later p.2.2.2 else t.send p.1 p.2.1 p.2.2.1 p.2.2.2) (s.performed ep e.id)

/-- An entry enters the queue; it leaves at once when nothing holds it, and otherwise waits (R172). -/
def State.enqueue (s : State) (ep : Nat) (e : QEnt) : State :=
  let s := s.modCore ep (fun c => ({ c with oq := c.oq ++ [e] } : Core).prune ep)
  match e.item with
  | .fence _ _ => s
  | _ => if (s.core ep).canLeave ep e then s.leave ep e else s.later (.accessLeavesQueue ep e.id)

/-- Where a checked access goes: the space it is performed in, its owning port, the address there, how its line allocates,
and the walk that translated it. -/
structure Target where
  space : BitVec 3
  owner : Nat
  addr : Nat
  noalloc : Bool
  pin : Bool
  walk : Option Walk
  deriving DecidableEq, Repr

/-- An access of the issuing frame enters the queue, `off` bytes into its target, as part `grp` of an instruction's accesses; with
`seqd` those that follow it leave after it (R162). -/
def State.accessG (s : State) (t : Target) (off : Nat) (res : Option Nat) (part : Nat) (op : AccOp) (ord : MemOrd) (grp : Nat)
    (seqd : Bool) : State :=
  let a := Access.mk s.iss.ep s.iss.win s.cf.fid s.cf.asid s.uid t.space t.owner (t.addr + off) res part t.noalloc t.pin op s.cf.level.toNat
  let s := { s with uid := s.uid + 1 }
  s.enqueue s.iss.ep (QEnt.mk a.id a.fid a.win (.access a ord) false grp seqd)
/-- An access of the issuing frame enters the queue, `off` bytes into its target. -/
def State.access (s : State) (t : Target) (off : Nat) (res : Option Nat) (part : Nat) (op : AccOp) (ord : MemOrd) : State :=
  s.accessG t off res part op ord s.uid false

/-- A release of the issuing frame's earlier accesses at a scope, which then sends packets (R203, R140). -/
def State.releaseThen (s : State) (sc : Scope) (evs : List (Nat × Nat × Nat × Event)) : State :=
  let e := QEnt.mk s.uid s.cf.fid s.iss.win (.release sc evs) false s.uid false
  ({ s with uid := s.uid + 1 } : State).enqueue s.iss.ep e

/-- LM of the issuing core as LOCAL loads in program order see it: the frame's LOCAL stores still held in the queue included, and the
entries of streams that it has unbound (R134, R286). -/
def State.lmInOrder (s : State) (off n : Nat) : List Byte :=
  let put := fun (m : List Host.Cell) (e : QEnt) =>
    match e.item with
    | .access a _ =>
      if e.fid == s.cf.fid && !e.left && a.space == 0 then
        match a.op.apply (memRead m (lmKey s.iss.ep a.addr) a.op.size) with
        | (some b, _) => memWrite m (lmKey s.iss.ep a.addr) b
        | _ => m
      else m
    | _ => m
  memRead ((s.cc.queue s.iss.ep).foldl put s.mem) (lmKey s.iss.ep off) n

/-- An 8-byte word of the issuing core's LM, in program order. -/
def State.lmWordInOrder (s : State) (off : Nat) : Word := BitVec.ofNat 64 (ofBytes (s.lmInOrder off 8))

/-! ## Checks at the source (R120) -/

/-- The kind of an access for its checks (R120). -/
inductive AccKind where
  | load | store | atomic
  deriving DecidableEq, Repr

/-- What the checks find: where the access goes, or the fault. -/
inductive Chk where
  | ok (t : Target)
  | fault (cause : Nat) (value : Word)
  deriving DecidableEq, Repr

/-- EVAL of R120. -/
def evalAcc (h : HReg) (st : Bool) (off : Word) : Word :=
  (BitVec.ofNat 64 h.toNat <<< 61) ||| (if st then 0x1000000000000000 else 0) ||| (off &&& 0x0FFFFFFFFFFFFFFF)

end Sys2Proof.Machine
namespace Sys2Proof
open Machine
/-- SPACE of a handle (R112). -/
def Handle.space (h : Handle) : Nat := fld h.w2 0 3
/-- POLICY of a handle (R112). -/
def Handle.policy (h : Handle) : Nat := fld h.w2 8 4
/-- V of a handle (R112). -/
def Handle.valid (h : Handle) : Bool := bitOf h.w3 7
/-- CAP of a handle register (R116). -/
def Handle.cap (h : Handle) : Bool := bitOf h.w3 8
/-- The endpoint a REMOTE handle names (R112). -/
def Handle.target (h : Handle) : Nat := if bitOf h.w2 12 then 4096 + fld h.w2 30 12 else fld h.w2 30 12
end Sys2Proof
namespace Sys2Proof.Machine

/-- Whether a core id's geode is firewalled in a core's map (R246). -/
def Core.firewalled (c : Core) (ep : Nat) : Bool := epClass ep == 0 && c.fwmap.getLsbD (epGeode ep)
/-- Whether a core is disabled: FUSTAT.CORE 5 (R230). -/
def State.disabled (s : State) (ep : Nat) : Bool := (s.core ep).code == 5

/-- Steps 1 to 9 of R120 for one access of the issuing frame, and step 10 on a memory core. `e` is the element size;
`atomOk` lets an ATOM handle pass step 4 (R213); `fadd` marks `AMO.fadd`; `spaces` are the spaces the instruction allows
beyond R106. -/
def State.check (s : State) (det : Bool) (hn : HReg) (off : Word) (n e : Nat) (k : AccKind) (atomOk fadd : Bool)
    (spaces : List Nat) : Chk :=
  let h := s.cf.getH hn
  let ep := s.iss.ep
  let st := k != .load
  let ev := evalAcc hn st off
  let mc := isMemCore ep
  let reach := h.space == 0 || h.space == 1 || (mc && (h.space == 2 || h.space == 4))
  let addr := h.base.toNat + off.toNat
  if !h.valid then .fault 48 ev
  else if !reach || !spaces.contains h.space then .fault 26 ev
  else if (k == .load && !bitOf h.w3 0) then .fault 5 ev
  else if (st && !bitOf h.w3 1) || (k == .atomic && (!bitOf h.w3 2 || h.space == 4)) then .fault 7 ev
  else if bitOf h.w3 5 && k != .atomic && !atomOk then .fault 49 ev
  else if fadd && det then .fault 50 ev
  else if st && bitOf h.w3 4 && !h.cap then .fault 27 ev
  else if off.toNat + n > h.bound.toNat then .fault 25 ev
  else if addr % e != 0 then .fault (if st then 6 else 4) ev
  else if h.space == 1 && h.target != ep &&
      (!epValid h.target || s.disabled h.target || (!s.cf.fm && s.cc.firewalled h.target)) then
    .fault (if st then 7 else 5) ev
  else match h.space with
    | 0 => (.ok (Target.mk 0 ep addr false false none))
    | 1 => if h.target == ep then (.ok (Target.mk 0 ep addr false false none)) else .ok (Target.mk 1 h.target addr false false none)
    | 4 => .ok (Target.mk 4 (agentEp 0 0x81) addr false false none)
    | _ =>
      let need : Need := match k with | .load => .read | .store => .write | .atomic => .atomic
      let w := s.translate s.cc.tlb (epSlab ep) s.cf.asid addr need
      match w.res with
      | .ok pa ns =>
        .ok (Target.mk 2 (homeOf pa) pa (ns || h.policy == 1) (h.policy == 2) (some w))
      | .pageFault => .fault (if st then 15 else 13) (BitVec.ofNat 64 addr)
      | .unpopulated => .fault (if st then 7 else 5) (BitVec.ofNat 64 addr)

/-- The walk of a check leaves its translation cached (R125). -/
def State.noteCheck (s : State) (w : Option Walk) : State :=
  match w with
  | none => s
  | some w => s.noteWalk s.iss.ep w s.cf.asid

/-- Whether the frame must park before a bundle that needs more results or queue entries (R46, R172). -/
def State.room (s : State) (results entries : Nat) : Option Hold :=
  if (s.cf.outs.filter (fun r => r.due.isNone)).length + results > 16 then some .results
  else if entries > 0 && s.cc.queueDepth + entries > 32 then some .queue
  else none

/-- An access of the issuing frame checked (R120), or the fault taken. -/
def State.withCheck (s : State) (h : HReg) (off : Word) (n e : Nat) (k : AccKind) (fadd : Bool)
    (go : State → Target → State) : State :=
  match s.check s.det h off n e k false fadd [0, 1, 2, 4] with
  | .fault c v => s.raise c v
  | .ok t => go (s.noteCheck t.walk) t

/-- The room a bundle needs (R46, R172), or the frame parks before it. -/
def State.withRoom (s : State) (results entries : Nat) (go : State → State) : State :=
  match s.room results entries with
  | some h => s.hold h
  | none => go s

end Sys2Proof.Machine
end

