-- ==== Sys2Proof/Machine/Flags.lean ====
section
/-! DEFINITION. Flag computations: the flags of a floating-point result (03_numbers.md R79, R80, R87, R88), saturation
(R81), and the values of `f` registers (R78). The rounding itself is in Float.lean. -/

namespace Sys2Proof.Machine

/-- FP32 or FP64, by the D bit. -/
def fmtOf (d : Bool) : Fmt := if d then .f64 else .f32
/-- An `f` register as a value of a format (R78): FP32 reads bits [31:0]. -/
def asFp (d : Bool) (v : Word) : Nat := if d then v.toNat else v.toNat % 2 ^ 32
/-- A floating-point result as an `f` register holds it: FP32 writes bits [63:32] as zero (R78). -/
def fpWord (d : Bool) (v : Nat) : Word := if d then BitVec.ofNat 64 v else BitVec.ofNat 64 (v % 2 ^ 32)

/-- An exact integer narrowed to `n` bits: wrapped, or clamped with SAT (R81, R287). -/
def narrow (signed sat : Bool) (n : Nat) (v : Int) : Nat × FlagSet :=
  let lo : Int := if signed then -(2 ^ (n - 1)) else 0
  let hi : Int := if signed then 2 ^ (n - 1) - 1 else 2 ^ n - 1
  if sat then
    if v < lo then ((lo % 2 ^ n).toNat, flSAT)
    else if v > hi then ((hi % 2 ^ n).toNat, flSAT)
    else ((v % 2 ^ n).toNat, 0)
  else ((v % 2 ^ n).toNat, 0)

/-- An integer as a register of `w` bits holds it: sign-extended, or zero-extended for a natural form (R180, R292). -/
def intWord (signed : Bool) (w : Nat) (v : Int) : Word :=
  if signed then sext w (BitVec.ofInt 64 v) else zext w (BitVec.ofInt 64 v)

end Sys2Proof.Machine
end

