-- ==== Sys2Proof/Machine/Operands.lean ====
section
/-! DEFINITION. Operand forms: immediates and literals (02_bundles.md R35, R76), the offset of a memory access (R160),
rounding modes (R55), and the registers an instruction reads (R219). -/

namespace Sys2Proof.Machine

/-- The outcome of a meaning. -/
abbrev Out := Host.Outcome State Fault Refusal

/-- An immediate: the short field, sign-extended, or the literal when the bundle is lone (R35, R76). -/
def State.imm (s : State) (short : Word) : Word := if s.iss.lone then sext 32 (s.iss.w1.setWidth 64) else short

/-- The offset of a CM access: x[rs1] + imm (R160). -/
def State.cmOff (s : State) (imm : BitVec 9) (rs1 : Reg) : Word := s.xr rs1 + s.imm (imm.signExtend 64)

/-- FRM of FCSR (R90). -/
def State.frm (s : State) : BitVec 3 := BitVec.ofNat 3 (fld s.cf.fcsr 5 3)

/-- The mode of a rounding code (R55, R287); `none` for codes 5 and 6, and when FRM is taken and holds 5, 6 or 7. -/
def State.mode (s : State) (r : BitVec 3) : Option (BitVec 3) :=
  if r == 7 then (if s.frm.toNat ≤ 4 then some s.frm else none) else if r.toNat ≤ 4 then some r else none

/-- The mode of an instruction that always rounds `DYN`. -/
def State.dyn (s : State) : Option (BitVec 3) := s.mode 7

/-- The registers that a slot instruction reads as sources: `x`, `f`, `h` and `v` files. -/
structure Srcs where
  x : List Reg
  f : List Reg
  h : List HReg
  v : List Reg
  deriving DecidableEq, Repr

/-- Sources in `x` only. -/
def srcX (l : List Reg) : Srcs := Srcs.mk l [] [] []
/-- Sources in `f` only. -/
def srcF (l : List Reg) : Srcs := Srcs.mk [] l [] []
/-- Sources in `x` and one handle. -/
def srcXH (l : List Reg) (h : HReg) : Srcs := Srcs.mk l [] [h] []
/-- Sources in `v` only. -/
def srcV (l : List Reg) : Srcs := Srcs.mk [] [] [] l

/-- A second vector source, or the scalar that X = 1 broadcasts: an `f` register for FP tags, else `x` (R288). -/
def srcVX (x fp : Bool) (a b : Reg) : Srcs :=
  if x then (if fp then Srcs.mk [] [b] [] [a] else Srcs.mk [b] [] [] [a]) else srcV [a, b]

/-- The sources of an instruction; `fp` says whether the tag of v[rs1] is an FP tag. -/
def srcsOf (fp : Bool) : Instr → Srcs
  | .add _ b a _ => srcX [a, b] | .sub _ b a _ => srcX [a, b] | .and _ b a _ => srcX [a, b]
  | .or _ b a _ => srcX [a, b] | .xor _ b a _ => srcX [a, b] | .andn _ b a _ => srcX [a, b]
  | .sll _ b a _ => srcX [a, b] | .srl _ b a _ => srcX [a, b] | .sra _ b a _ => srcX [a, b]
  | .slt _ b a _ => srcX [a, b] | .sltn _ b a _ => srcX [a, b] | .min _ b a _ => srcX [a, b]
  | .max _ b a _ => srcX [a, b] | .minn _ b a _ => srcX [a, b] | .maxn _ b a _ => srcX [a, b]
  | .mul _ b a _ => srcX [a, b] | .mulh b a _ => srcX [a, b] | .mulhn b a _ => srcX [a, b]
  | .div _ b a _ => srcX [a, b] | .divn _ b a _ => srcX [a, b] | .rem _ b a _ => srcX [a, b] | .remn _ b a _ => srcX [a, b]
  | .clz _ a _ => srcX [a] | .ctz _ a _ => srcX [a] | .popc _ a _ => srcX [a] | .bswap _ a _ => srcX [a]
  | .sextOp _ a _ => srcX [a] | .zextOp _ a _ => srcX [a] | .csel c b a _ => srcX [a, b, c]
  | .addi _ _ a _ => srcX [a] | .andi _ a _ => srcX [a] | .ori _ a _ => srcX [a] | .xori _ a _ => srcX [a]
  | .slli _ _ a _ => srcX [a] | .srli _ _ a _ => srcX [a] | .srai _ _ a _ => srcX [a] | .slti _ a _ => srcX [a]
  | .liH d => srcX [d] | .jalr _ a _ => srcX [a]
  | .beq _ b a => srcX [a, b] | .bne _ b a => srcX [a, b] | .blt _ b a => srcX [a, b] | .bge _ b a => srcX [a, b]
  | .bltn _ b a => srcX [a, b] | .bgen _ b a => srcX [a, b]
  | .lds _ h _ a _ => srcXH [a] h | .ldz _ h _ a _ => srcXH [a] h | .st _ h _ a d => srcXH [a, d] h
  | .ldp _ h _ a _ => srcXH [a] h | .stp _ h _ a d => srcXH [a, d, d + 1] h
  | .amo _ _ _ h b a _ => srcXH [a, b] h | .cas _ _ h b a d => srcXH [a, b, d] h | .amog _ _ h b a _ => srcXH [a, b] h
  | .csrrw _ a _ => srcX [a] | .csrrs _ a _ => srcX [a] | .csrrc _ a _ => srcX [a]
  | .hld _ a => srcX [a] | .hgive h a _ => srcXH [a] h | .hqry h a _ => srcXH [a] h
  | .fadd _ _ b a _ => srcF [a, b] | .fsub _ _ b a _ => srcF [a, b] | .fmul _ _ b a _ => srcF [a, b]
  | .fdiv _ _ b a _ => srcF [a, b] | .fsqrt _ _ a _ => srcF [a] | .fmin _ b a _ => srcF [a, b] | .fmax _ b a _ => srcF [a, b]
  | .fsgnj _ _ b a _ => srcF [a, b] | .feq _ b a _ => srcF [a, b] | .flt _ b a _ => srcF [a, b] | .fle _ b a _ => srcF [a, b]
  | .fclass _ a _ => srcF [a] | .fmvx _ a _ => srcF [a] | .fmvf _ a _ => srcX [a]
  | .fmadd _ c b a _ => srcF [a, b, c] | .fmsub _ c b a _ => srcF [a, b, c] | .fnmadd _ c b a _ => srcF [a, b, c]
  | .fnmsub _ c b a _ => srcF [a, b, c]
  | .fcvt t _ _ a _ => if t.fromF then srcF [a] else srcX [a]
  | .post b a => srcX [a, b] | .ends b a => srcX [a, b] | .claim a => srcX [a] | .unclaim a => srcX [a] | .fkill a => srcX [a]
  | .migr b a d => srcX [a, b, d] | .watch h _ _ b a d => srcXH [a, b, d] h
  | .send b a _ => srcX [a, b] | .reply a _ => srcX [a] | .bindH b a _ => srcX [a, b] | .unbind a _ => srcX [a]
  | .swaph b a _ => srcX [a, b]
  | .vclaim _ b a _ => srcX [a, b] | .vsbind a _ => srcX [a]
  | .vld h _ a _ => srcXH [a] h | .vst h a d => Srcs.mk [a] [] [h] [d] | .vldx h _ b a _ => Srcs.mk [a] [] [h] [b]
  | .vstx h b a d => Srcs.mk [a] [] [h] [b, d]
  | .vadd x _ _ b a _ => srcVX x fp a b | .vsub x _ _ b a _ => srcVX x fp a b | .vmul x _ _ b a _ => srcVX x fp a b
  | .vmin x _ b a _ => srcVX x fp a b | .vmax x _ b a _ => srcVX x fp a b | .vand x _ b a _ => srcVX x fp a b
  | .vor x _ b a _ => srcVX x fp a b | .vxor x _ b a _ => srcVX x fp a b | .vshl x _ b a _ => srcVX x fp a b
  | .vshr x _ b a _ => srcVX x fp a b | .vcmp x _ b a _ => srcVX x fp a b
  | .vabs _ _ a _ => srcV [a] | .vneg _ _ a _ => srcV [a] | .vmov x _ a _ => if x then srcX [a] else srcV [a]
  | .vfma c b a _ => srcV [a, b, c] | .vfms c b a _ => srcV [a, b, c] | .vsel c b a _ => srcV [a, b, c]
  | .vdot c b a _ => srcV [a, b, c] | .vrsum _ _ _ a _ => srcV [a] | .vrmax _ a _ => srcV [a] | .vrmin _ a _ => srcV [a]
  | .vscan _ _ a _ => srcV [a] | .vbmax _ a _ => srcV [a] | .vexp2 _ a _ => srcV [a] | .vlog2 _ a _ => srcV [a]
  | .vrcp _ a _ => srcV [a] | .vrsq _ a _ => srcV [a] | .vcvt _ _ a _ => srcV [a] | .vtag _ a _ => srcV [a]
  | .vqnt _ fs b a _ => Srcs.mk [b] [fs.setWidth 5] [] [a] | .vext b a _ => Srcs.mk [b] [] [] [a] | .vperm b a _ => srcV [a, b]
  | .mcfg a => srcX [a] | .mbld b a _ => srcX [a, b]
  | .mgang c q b a _ => if q then Srcs.mk [a, b] [c] [] [] else srcX [a, b]
  | .mdrain c q b a _ => if q then Srcs.mk [a, b] [c] [] [] else srcX [a, b]
  | .mstat a _ => srcX [a] | .mcancel a _ => srcX [a] | .mzero _ a _ => srcX [a]
  | .solicit b a _ => srcX [a, b] | .respond a => srcX [a] | .cbar a _ => srcX [a] | .tilereg a _ => srcX [a]
  | .tiledel a _ => srcX [a] | .tilemove b a _ => srcX [a, b] | .censq a _ => srcX [a]
  | .cpy _ a _ => srcX [a] | .cpyst a _ => srcX [a] | .cpoll a _ => srcX [a] | .bseal b a _ => srcX [a, b]
  | .bopen b a _ => srcX [a, b] | .llcfg a _ => srcX [a]
  | .cflush _ h b a _ => srcXH [a, b] h | .cclean _ h b a _ => srcXH [a, b] h | .cinv _ h b a _ => srcXH [a, b] h
  | .grrun a _ => srcX [a] | .grsig a _ => srcX [a] | .grcan a _ => srcX [a] | .grqry a _ => srcX [a]
  | .spawn _ _ b a _ => srcX [a, b] | .joini a _ => srcX [a] | .join b a _ => srcX [a, b] | .termq a _ => srcX [a]
  | .xpost a => srcX [a] | .xqry a _ => srcX [a]
  | _ => srcX []

/-- EVAL of cause 63 (R218): the register file in [63:62], the register in [4:0]. -/
def evalPoison (file reg : Nat) : Word := BitVec.ofNat 64 (file * 2 ^ 62 + reg)

/-- The first poisoned register among the sources of an instruction: the value of EVAL (R219). -/
def Frame.poisoned (f : Frame) (i : Instr) : Option Word :=
  let fp := fun (a : Reg) => match f.getTag a with
    | .fp32 | .fp16 | .bf16 | .fp64 => true
    | _ => false
  let first : Srcs := srcsOf false i
  let p := srcsOf (match first.v with | a :: _ => fp a | [] => false) i
  match p.x.find? (fun r => f.poisonX.getLsbD r.toNat), p.f.find? (fun r => f.poisonF.getLsbD r.toNat),
      p.h.find? (fun r => f.poisonH.getLsbD r.toNat), p.v.find? (fun r => f.poisonV.getLsbD r.toNat) with
  | some r, _, _, _ => some (evalPoison 0 r.toNat)
  | none, some r, _, _ => some (evalPoison 1 r.toNat)
  | none, none, some r, _ => some (evalPoison 2 r.toNat)
  | none, none, none, some r => some (evalPoison 3 r.toNat)
  | none, none, none, none => none

end Sys2Proof.Machine
end

