-- ==== Sys2Proof/Machine/Alu.lean ====
section
/-! DEFINITION. Integer instructions: register forms (05_task_core.md R150-R153) and immediates (R154-R156). -/

namespace Sys2Proof.Machine

/-- The result of a 32-bit form: sext of its low half (R150); a 64-bit form's result is whole. -/
def wRes (w : Bool) (v : Word) : Word := if w then sext 32 v else v
/-- An operand as a signed form reads it: whole, or sext of the low half (R150). -/
def sOpd (w : Bool) (v : Word) : Word := if w then sext 32 v else v
/-- An operand as a natural form reads it: whole, or zext of the low half (R150). -/
def zOpd (w : Bool) (v : Word) : Word := if w then zext 32 v else v
/-- A shift amount: b[5:0], or b[4:0] in a 32-bit form (R150). -/
def shamt (w : Bool) (b : Word) : Nat := b.toNat % (if w then 32 else 64)
/-- The width of a form. -/
def width (w : Bool) : Nat := if w then 32 else 64

/-- Signed quotient rounded toward zero, with the cases of R151. -/
def divS (w : Bool) (a b : Word) : Word :=
  let x := (sOpd w a).toInt; let y := (sOpd w b).toInt
  if y == 0 then BitVec.ofInt 64 (-1) else wRes w (BitVec.ofInt 64 (x.tdiv y))
/-- Signed remainder with the sign of the dividend (R151). -/
def remS (w : Bool) (a b : Word) : Word :=
  let x := (sOpd w a).toInt; let y := (sOpd w b).toInt
  if y == 0 then wRes w a else wRes w (BitVec.ofInt 64 (x.tmod y))
/-- Natural quotient (R151). -/
def divN (w : Bool) (a b : Word) : Word :=
  let x := (zOpd w a).toNat; let y := (zOpd w b).toNat
  if y == 0 then BitVec.ofInt 64 (-1) else wRes w (BitVec.ofNat 64 (x / y))
/-- Natural remainder (R151). -/
def remN (w : Bool) (a b : Word) : Word :=
  let x := (zOpd w a).toNat; let y := (zOpd w b).toNat
  if y == 0 then wRes w a else wRes w (BitVec.ofNat 64 (x % y))
/-- Bits [127:64] of the signed product (R151). -/
def mulhS (a b : Word) : Word := BitVec.ofInt 64 ((a.toInt * b.toInt) / 2 ^ 64)
/-- Bits [127:64] of the natural product (R151). -/
def mulhN (a b : Word) : Word := BitVec.ofNat 64 (a.toNat * b.toNat / 2 ^ 64)
/-- Zero bits above the highest one bit of `n` bits (R152). -/
def clzN (n v : Nat) : Nat := n - bitLen (v % 2 ^ n)
/-- Zero bits below the lowest one bit of `n` bits (R152). -/
def ctzN : Nat → Nat → Nat
  | 0, _ => 0
  | n + 1, v => if v % 2 == 1 then 0 else 1 + ctzN n (v / 2)
/-- One bits of `n` bits (R152). -/
def popN : Nat → Nat → Nat
  | 0, _ => 0
  | n + 1, v => v % 2 + popN n (v / 2)
/-- Bytes in reverse order (R152). -/
def bswapN (n v : Nat) : Nat := ofBytes ((toBytes n v).reverse)
/-- A source size in bits: `.b`, `.h`, `.w` (R152). -/
def extBits (sz : BitVec 2) : Nat := 8 * 2 ^ sz.toNat

/-- A register form of latency `lat`: x[rd] := g(x[rs1], x[rs2]). -/
def State.aluRR (s : State) (rs2 rs1 rd : Reg) (lat : Nat) (g : Word → Word → Word) : State :=
  s.fixedX rd (g (s.xr rs1) (s.xr rs2)) lat
/-- An immediate form of latency 1: x[rd] := g(x[rs1], imm). -/
def State.aluRI (s : State) (imm : Word) (rs1 rd : Reg) (g : Word → Word → Word) : State :=
  s.fixedX rd (g (s.xr rs1) imm) 1

/-- `ADD`: x[rs1] + x[rs2] (R150). -/
def execAdd (w : Bool) (rs2 rs1 rd : Reg) (s : State) : Out := .next (s.aluRR rs2 rs1 rd 1 (fun a b => wRes w (a + b)))

/-- `SUB`: x[rs1] - x[rs2] (R150). -/
def execSub (w : Bool) (rs2 rs1 rd : Reg) (s : State) : Out := .next (s.aluRR rs2 rs1 rd 1 (fun a b => wRes w (a - b)))

/-- `AND`: bitwise and (R150). -/
def execAnd (w : Bool) (rs2 rs1 rd : Reg) (s : State) : Out := .next (s.aluRR rs2 rs1 rd 1 (fun a b => wRes w (a &&& b)))

/-- `OR`: bitwise or (R150). -/
def execOr (w : Bool) (rs2 rs1 rd : Reg) (s : State) : Out := .next (s.aluRR rs2 rs1 rd 1 (fun a b => wRes w (a ||| b)))

/-- `XOR`: bitwise exclusive or (R150). -/
def execXor (w : Bool) (rs2 rs1 rd : Reg) (s : State) : Out := .next (s.aluRR rs2 rs1 rd 1 (fun a b => wRes w (a ^^^ b)))

/-- `ANDN`: a and not b (R150). -/
def execAndn (w : Bool) (rs2 rs1 rd : Reg) (s : State) : Out := .next (s.aluRR rs2 rs1 rd 1 (fun a b => wRes w (a &&& ~~~b)))

/-- `SLL`: shift left (R150). -/
def execSll (w : Bool) (rs2 rs1 rd : Reg) (s : State) : Out := .next (s.aluRR rs2 rs1 rd 1 (fun a b => wRes w (a <<< shamt w b)))

/-- `SRL`: logical shift right (R150). -/
def execSrl (w : Bool) (rs2 rs1 rd : Reg) (s : State) : Out := .next (s.aluRR rs2 rs1 rd 1 (fun a b => wRes w (zOpd w a >>> shamt w b)))

/-- `SRA`: arithmetic shift right (R150). -/
def execSra (w : Bool) (rs2 rs1 rd : Reg) (s : State) : Out := .next (s.aluRR rs2 rs1 rd 1 (fun a b => wRes w ((sOpd w a).sshiftRight (shamt w b))))

/-- `SLT`: signed less than (R150). -/
def execSlt (w : Bool) (rs2 rs1 rd : Reg) (s : State) : Out := .next (s.aluRR rs2 rs1 rd 1 (fun a b => boolWord ((sOpd w a).slt (sOpd w b))))

/-- `SLTN`: natural less than (R150). -/
def execSltn (w : Bool) (rs2 rs1 rd : Reg) (s : State) : Out := .next (s.aluRR rs2 rs1 rd 1 (fun a b => boolWord ((zOpd w a).ult (zOpd w b))))

/-- `MIN`: signed minimum (R150). -/
def execMin (w : Bool) (rs2 rs1 rd : Reg) (s : State) : Out := .next (s.aluRR rs2 rs1 rd 1 (fun a b => if (sOpd w b).slt (sOpd w a) then wRes w b else wRes w a))

/-- `MAX`: signed maximum (R150). -/
def execMax (w : Bool) (rs2 rs1 rd : Reg) (s : State) : Out := .next (s.aluRR rs2 rs1 rd 1 (fun a b => if (sOpd w a).slt (sOpd w b) then wRes w b else wRes w a))

/-- `MINN`: natural minimum (R150). -/
def execMinn (w : Bool) (rs2 rs1 rd : Reg) (s : State) : Out := .next (s.aluRR rs2 rs1 rd 1 (fun a b => if (zOpd w b).ult (zOpd w a) then wRes w b else wRes w a))

/-- `MAXN`: natural maximum (R150). -/
def execMaxn (w : Bool) (rs2 rs1 rd : Reg) (s : State) : Out := .next (s.aluRR rs2 rs1 rd 1 (fun a b => if (zOpd w a).ult (zOpd w b) then wRes w b else wRes w a))

/-- `MUL`: the low half of the product (R151); latency 3 (R42). -/
def execMul (w : Bool) (rs2 rs1 rd : Reg) (s : State) : Out := .next (s.aluRR rs2 rs1 rd 3 (fun a b => wRes w (a * b)))

/-- `MULH`: the high half of the signed product (R151). -/
def execMulh (rs2 rs1 rd : Reg) (s : State) : Out := .next (s.aluRR rs2 rs1 rd 3 mulhS)

/-- `MULHN`: the high half of the natural product (R151). -/
def execMulhn (rs2 rs1 rd : Reg) (s : State) : Out := .next (s.aluRR rs2 rs1 rd 3 mulhN)

/-- The latency of a division (R42): 14 for `.w`, 22 for 64 bits. -/
def divLat (w : Bool) : Nat := if w then 14 else 22

/-- `DIV`: signed quotient (R151). -/
def execDiv (w : Bool) (rs2 rs1 rd : Reg) (s : State) : Out := .next (s.aluRR rs2 rs1 rd (divLat w) (divS w))

/-- `DIVN`: natural quotient (R151). -/
def execDivn (w : Bool) (rs2 rs1 rd : Reg) (s : State) : Out := .next (s.aluRR rs2 rs1 rd (divLat w) (divN w))

/-- `REM`: signed remainder (R151). -/
def execRem (w : Bool) (rs2 rs1 rd : Reg) (s : State) : Out := .next (s.aluRR rs2 rs1 rd (divLat w) (remS w))

/-- `REMN`: natural remainder (R151). -/
def execRemn (w : Bool) (rs2 rs1 rd : Reg) (s : State) : Out := .next (s.aluRR rs2 rs1 rd (divLat w) (remN w))

/-- `CLZ`: leading zero bits (R152). -/
def execClz (w : Bool) (rs1 rd : Reg) (s : State) : Out := .next (s.fixedX rd (BitVec.ofNat 64 (clzN (width w) (s.xr rs1).toNat)) 1)

/-- `CTZ`: trailing zero bits (R152). -/
def execCtz (w : Bool) (rs1 rd : Reg) (s : State) : Out := .next (s.fixedX rd (BitVec.ofNat 64 (ctzN (width w) (s.xr rs1).toNat)) 1)

/-- `POPC`: one bits (R152). -/
def execPopc (w : Bool) (rs1 rd : Reg) (s : State) : Out := .next (s.fixedX rd (BitVec.ofNat 64 (popN (width w) (s.xr rs1).toNat)) 1)

/-- `BSWAP`: bytes reversed (R152). -/
def execBswap (w : Bool) (rs1 rd : Reg) (s : State) : Out := .next (s.fixedX rd (wRes w (BitVec.ofNat 64 (bswapN (width w / 8) (s.xr rs1).toNat))) 1)

/-- `SEXT`: sign extension from 8, 16 or 32 bits (R152). -/
def execSext (sz : BitVec 2) (rs1 rd : Reg) (s : State) : Out := .next (s.fixedX rd (sext (extBits sz) (s.xr rs1)) 1)

/-- `ZEXT`: zero extension from 8, 16 or 32 bits (R152). -/
def execZext (sz : BitVec 2) (rs1 rd : Reg) (s : State) : Out := .next (s.fixedX rd (zext (extBits sz) (s.xr rs1)) 1)

/-- `CSEL`: x[rs1] when x[rs3] is not zero, else x[rs2] (R153). -/
def execCsel (rs3 rs2 rs1 rd : Reg) (s : State) : Out :=
  .next (s.fixedX rd (if s.xr rs3 != 0 then s.xr rs1 else s.xr rs2) 1)

/-- `ADDI` and `ADDI.w` (R154). -/
def execAddi (w : Bool) (imm : BitVec 9) (rs1 rd : Reg) (s : State) : Out :=
  .next (s.aluRI (s.imm (imm.signExtend 64)) rs1 rd (fun a b => wRes w (a + b)))

/-- `ANDI` (R154). -/
def execAndi (imm : BitVec 9) (rs1 rd : Reg) (s : State) : Out :=
  .next (s.aluRI (s.imm (imm.signExtend 64)) rs1 rd (fun a b => a &&& b))

/-- `ORI` (R154). -/
def execOri (imm : BitVec 9) (rs1 rd : Reg) (s : State) : Out :=
  .next (s.aluRI (s.imm (imm.signExtend 64)) rs1 rd (fun a b => a ||| b))

/-- `XORI` (R154). -/
def execXori (imm : BitVec 9) (rs1 rd : Reg) (s : State) : Out :=
  .next (s.aluRI (s.imm (imm.signExtend 64)) rs1 rd (fun a b => a ^^^ b))

/-- `SLLI` and `SLLI.w` (R154). -/
def execSlli (w : Bool) (imm : BitVec 9) (rs1 rd : Reg) (s : State) : Out :=
  .next (s.aluRI (imm.setWidth 64) rs1 rd (fun a b => wRes w (a <<< shamt w b)))

/-- `SRLI` and `SRLI.w` (R154). -/
def execSrli (w : Bool) (imm : BitVec 9) (rs1 rd : Reg) (s : State) : Out :=
  .next (s.aluRI (imm.setWidth 64) rs1 rd (fun a b => wRes w (zOpd w a >>> shamt w b)))

/-- `SRAI` and `SRAI.w` (R154). -/
def execSrai (w : Bool) (imm : BitVec 9) (rs1 rd : Reg) (s : State) : Out :=
  .next (s.aluRI (imm.setWidth 64) rs1 rd (fun a b => wRes w ((sOpd w a).sshiftRight (shamt w b))))

/-- `SLTI` (R154). -/
def execSlti (imm : BitVec 9) (rs1 rd : Reg) (s : State) : Out :=
  .next (s.aluRI (s.imm (imm.signExtend 64)) rs1 rd (fun a b => boolWord (a.slt b)))

/-- `LI` (R155). -/
def execLi (imm : BitVec 18) (rd : Reg) (s : State) : Out := .next (s.fixedX rd (s.imm (imm.signExtend 64)) 1)

/-- `LI.h`: the literal above the old low half (R155). -/
def execLiH (rd : Reg) (s : State) : Out := .next (s.fixedX rd (s.iss.w1 ++ (s.xr rd).setWidth 32) 1)

/-- `LPC`: `pc` plus an offset in bytes (R156). -/
def execLpc (imm : BitVec 19) (rd : Reg) (s : State) : Out :=
  .next (s.fixedX rd (s.iss.pc + s.imm (imm.signExtend 64)) 1)

end Sys2Proof.Machine
end

