-- ==== Sys2Proof/Machine/BlockFp.lean ====
section
/-! DEFINITION. Block floating point, quantisation, exact sums and the special functions of the vector pool
(03_numbers.md R82-R85, R94-R98; 08_vector_pool.md R294). -/

namespace Sys2Proof.Machine

/-! ## BX blocks (R82-R85) -/

/-- The element width of a BX format (R82). -/
def bxWidth : Tag → Nat
  | .bx8 => 8
  | .bx6 => 6
  | _ => 4
/-- The exponent offset of a BX format (R83): 132, 130 or 129. -/
def bxBias : Tag → Nat
  | .bx8 => 132
  | .bx6 => 130
  | _ => 129
/-- The largest count of a BX element of a sign (R83). -/
def bxLimit (t : Tag) (neg : Bool) : Nat :=
  match t with
  | .bx8 => 63
  | .bx6 => 15
  | _ => if neg then 4 else 3

/-- Field `i` of the packed elements of a block (R82). -/
def bxField (t : Tag) (block : List Byte) (i : Nat) : Nat := (ofBytes (block.drop 2) >>> (bxWidth t * i)) % 2 ^ bxWidth t

/-- Sign and count of an element's field (R82, R83). -/
def bxParts (t : Tag) (fld : Nat) : Bool × Nat :=
  let w := bxWidth t
  if w == 4 then (if fld % 8 ≥ 4 then (true, 8 - fld % 8) else (false, fld % 8))
  else ((fld >>> (w - 2)) % 2 == 1, fld % 2 ^ (w - 2))

/-- The value of element `i` of a block (R83, R84). -/
def bxVal (t : Tag) (block : List Byte) (i : Nat) : FVal :=
  let fld := bxField t block i
  let code := (block.getD (if fld ≥ 2 ^ (bxWidth t - 1) then 1 else 0) 0).toNat
  let (neg, m) := bxParts t fld
  if code == 255 then .nan false
  else if code == 0 then .fin (neg && bxWidth t != 4) 0 0
  else .fin neg m ((code : Int) - bxBias t)

/-- An element decoded to FP32 (R85). -/
def bxDecode (t : Tag) (block : List Byte) (i : Nat) : Nat := (roundVal .f32 0 (bxVal t block i)).1

/-! ## Quantisation (R94-R96) -/

/-- A candidate of a finite input at a code (R94): its count, its error in units of 2^-149, and whether it was clamped. -/
structure Cand where
  q : Nat
  err : Nat
  clamped : Bool
  deriving DecidableEq, Repr

/-- The candidate of a finite magnitude at a code. -/
def candAt (t : Tag) (c : Nat) (neg : Bool) (man : Nat) (exp : Int) : Cand :=
  let mag := man <<< (exp + 149).toNat
  if c == 0 then Cand.mk 0 mag false
  else
    let e : Int := (c : Int) - bxBias t
    let (n, _) := roundQuantum 0 neg man exp e
    let lim := bxLimit t neg
    let q := Nat.min n lim
    let v := q <<< (e + 149).toNat
    Cand.mk q (if v ≤ mag then mag - v else v - mag) (n > lim)

/-- E0 of a block (R94). -/
def quantE0 (t : Tag) (xs : List FVal) : Nat :=
  if xs.any FVal.isNan then 255
  else if xs.any (fun x => match x with | .inf _ => true | _ => false) then 254
  else if xs.all FVal.isZero then 0
  else
    let fits := fun (c : Nat) => xs.all (fun x => match x with
      | .fin neg man exp => !(candAt t c neg man exp).clamped
      | _ => true)
    (((List.range 254).map (fun i => i + 1)).find? fits).getD 254

/-- An element's field from its selector, sign and count (R82, R95). -/
def bxEncode (t : Tag) (sel neg : Bool) (q : Nat) : Nat :=
  let w := bxWidth t
  let body := if w == 4 then (if neg then (8 - q) % 8 else q) else (if neg then 2 ^ (w - 2) else 0) + q
  (if sel then 2 ^ (w - 1) else 0) + body

/-- One element encoded, with its flags (R95, R96). -/
def quantOne (t : Tag) (e0 e1 : Nat) (x : FVal) : Nat × FlagSet :=
  match x with
  | .nan _ => (0, 0)
  | .inf neg => (bxEncode t false neg (bxLimit t neg), flOF ||| flNX)
  | .fin neg man exp =>
    let a := candAt t e0 neg man exp
    let b := candAt t e1 neg man exp
    let sel := b.err < a.err
    let c := if sel then b else a
    let fl : FlagSet := (if c.clamped then flOF ||| flNX else 0) ||| (if man != 0 && c.q == 0 then flUF ||| flNX else 0)
      ||| (if c.err != 0 then flNX else 0)
    (bxEncode t sel neg c.q, fl)

/-- A list of fields packed from the lowest bit on. -/
def packFields (w : Nat) : List Nat → Nat
  | [] => 0
  | f :: l => f + 2 ^ w * packFields w l

/-- `quantise` (R94-R96): 32 FP32 values as one block. -/
def quantise (t : Tag) (d : Nat) (ys : List Nat) : List Byte × FlagSet :=
  let xs := ys.map Fmt.f32.decode
  let e0 := quantE0 t xs
  let n := 4 * bxWidth t
  if e0 == 255 then (toBytes 2 0xFFFF ++ List.replicate n 0, flNV)
  else
    let e1 := if e0 > d then e0 - d else 0
    let r := xs.map (quantOne t e0 e1)
    (BitVec.ofNat 8 e0 :: BitVec.ofNat 8 e1 :: toBytes n (packFields (bxWidth t) (r.map Prod.fst)),
      r.foldl (fun f p => f ||| p.2) 0)

/-! ## Exact sums (R98, R100, R101) -/

/-- The exact sum of a list, with whether it is invalid: opposite infinities, unless a NaN hides them (log entry 21). -/
def sumVals (mode : BitVec 3) (l : List FVal) : FVal × Bool :=
  if l.any FVal.isNan then (.nan false, false)
  else match l with
    | [] => (.fin false 0 0, false)
    | v :: r => r.foldl (fun p x => let (y, b) := addVal mode p.1 x; (y, p.2 || b)) (v, false)

/-- The sum of products and addends rounded once, with NV for a signalling input, an invalid product or opposite
infinities. -/
def dotRound (f : Fmt) (mode : BitVec 3) (prods : List (FVal × FVal)) (adds : List FVal) : Nat × FlagSet :=
  let ps := prods.map (fun p => mulVal p.1 p.2)
  let (v, inv) := sumVals mode (ps.map Prod.fst ++ adds)
  let nv := inv || ps.any Prod.snd || prods.any (fun p => p.1.isSig || p.2.isSig) || adds.any FVal.isSig
  let (r, fl) := roundVal f mode v
  (r, fl ||| nvFlag nv)

/-! ## Special functions (R294) -/

/-- The fixed-point precision of the series, in bits: far beyond every rounding boundary of FP32. -/
def fxBits : Nat := 320
/-- `2 * (z + z^3/3 + z^5/5 + ...)` for a fixed-point `z` of at most 1/3: `k` terms from `i` on. -/
def atanhSeries : Nat → Nat → Nat → Nat → Nat
  | 0, _, _, _ => 0
  | k + 1, p, z2, i => 2 * p / i + atanhSeries k (p * z2 / 2 ^ fxBits) z2 (i + 2)
/-- The natural logarithm of `a / b`, for 1 ≤ a/b ≤ 2, in fixed point. -/
def lnRatio (a b : Nat) : Nat :=
  let z := ((a - b) * 2 ^ fxBits) / (a + b)
  atanhSeries 110 z (z * z / 2 ^ fxBits) 1
/-- ln 2 in fixed point. -/
def ln2 : Nat := lnRatio 2 1
/-- The exponential series of a fixed-point `t` below 1: the sum of `k` further terms after `p`. -/
def expSeries : Nat → Nat → Nat → Nat → Nat
  | 0, p, _, _ => p
  | k + 1, p, t, i => p + expSeries k (p * t / 2 ^ fxBits / i) t (i + 1)

/-- `2^x` of a finite FP32 value that is not zero: exact for an integer, else with a last bit that stands for the rest. -/
def exp2Fin (neg : Bool) (man : Nat) (exp : Int) : FVal :=
  let big := exp + bitLen man > 10
  if big then (if neg then .fin false 3 (-2000) else .fin false 3 2000)
  else
    -- x in units of 2^-160
    let u : Int := scaledInt neg man exp (-160)
    let i := u.fdiv (2 ^ 160)
    let f := (u.fmod (2 ^ 160)).toNat
    if f == 0 then .fin false 1 i
    else
      let t := f * ln2 / 2 ^ 160
      .fin false (2 * expSeries 90 (2 ^ fxBits) t 1 + 1) (i - fxBits - 1)

/-- `log2 x` of a positive finite FP32 value. -/
def log2Fin (man : Nat) (exp : Int) : FVal :=
  let n := bitLen man - 1
  let e : Int := exp + n
  if man == 2 ^ n then finOfInt e 0 false
  else
    let l : Int := lnRatio man (2 ^ n) * 2 ^ fxBits / ln2
    let v : Int := e * 2 ^ fxBits + l
    finOfInt (2 * v + 1) (-(fxBits : Int) - 1) false

/-- `1/√x` of a positive finite FP32 value. -/
def rsqFin (man : Nat) (exp : Int) : FVal :=
  let m := if exp % 2 == 0 then man else 2 * man
  let e := if exp % 2 == 0 then exp else exp - 1
  let r := isqrt (2 ^ 160 / m)
  .fin false (2 * r + (if r * r * m == 2 ^ 160 then 0 else 1)) (-80 - e / 2 - 1)

/-- `VEXP2` on one element (R294). -/
def fExp2 (mode : BitVec 3) (a : Nat) : Nat × FlagSet :=
  match Fmt.f32.decode a with
  | .nan s => (Fmt.f32.nan, nvFlag s)
  | .inf neg => (if neg then 0 else Fmt.f32.inf false, 0)
  | .fin neg man exp => if man == 0 then (0x3F800000, 0) else roundVal .f32 mode (exp2Fin neg man exp)

/-- `VLOG2` on one element (R294). -/
def fLog2 (mode : BitVec 3) (a : Nat) : Nat × FlagSet :=
  match Fmt.f32.decode a with
  | .nan s => (Fmt.f32.nan, nvFlag s)
  | .inf neg => if neg then (Fmt.f32.nan, flNV) else (Fmt.f32.inf false, 0)
  | .fin neg man exp =>
    if man == 0 then (Fmt.f32.inf true, flDZ)
    else if neg then (Fmt.f32.nan, flNV)
    else roundVal .f32 mode (log2Fin man exp)

/-- `VRCP` on one element (R294). -/
def fRcp (mode : BitVec 3) (a : Nat) : Nat × FlagSet := fDiv .f32 mode 0x3F800000 a

/-- `VRSQ` on one element (R294). -/
def fRsq (mode : BitVec 3) (a : Nat) : Nat × FlagSet :=
  match Fmt.f32.decode a with
  | .nan s => (Fmt.f32.nan, nvFlag s)
  | .inf neg => if neg then (Fmt.f32.nan, flNV) else (0, 0)
  | .fin neg man exp =>
    if man == 0 then (Fmt.f32.inf neg, flDZ)
    else if neg then (Fmt.f32.nan, flNV)
    else roundVal .f32 mode (rsqFin man exp)

end Sys2Proof.Machine
end

