-- ==== Sys2Proof/Machine/Trace.lean ====
section
/-! DEFINITION. Trace rings: record and replay at LM ports and home agents (12_home_agents.md R417-R422). -/

namespace Sys2Proof.Machine

/-- The header of an arrival as a trace ring sees it (R417, R418); `dev` names the device of a source on another one. -/
structure Hdr where
  asid : BitVec 16
  kind : Nat
  src : Nat
  dev : Option (BitVec 22)
  size : Nat
  addr : Nat
  deriving DecidableEq, Repr

/-- MODE of RRCTL: 0 off, 1 record, 2 replay. -/
def TraceRing.mode (t : TraceRing) : Nat := fld t.ctl 32 2
/-- LOADS of RRCTL. -/
def TraceRing.loads (t : TraceRing) : Bool := bitOf t.ctl 16
/-- Whether an arrival is logged (R417). -/
def TraceRing.logs (t : TraceRing) (h : Hdr) : Bool :=
  t.mode != 0 && t.ctl.setWidth 16 == h.asid && (t.loads || !(h.kind == 3 || h.kind == 6 || h.kind == 9))

/-- Whether a port performs no further request until an entry frees (R419): its ring is full of entries that were recorded. -/
def TraceRing.full (t : TraceRing) : Bool := 64 ≤ t.entries.length && (t.mode == 1 || (t.mode == 0 && !t.diverged))

/-- Word 0 of a trace entry (R418). -/
def traceWord (dev : BitVec 22) (seq : Nat) (h : Hdr) : Word :=
  BitVec.ofNat 64 (seq % 2 ^ 16 * 2 ^ 48 + h.src % 2 ^ 14 * 2 ^ 34 + (h.dev.getD dev).toNat * 2 ^ 12 + h.size % 16 * 16 + h.kind % 16)
/-- An entry of KIND 15, the end of a log (R417). -/
def traceEnd (seq : Nat) : Word := BitVec.ofNat 64 (seq % 2 ^ 16 * 2 ^ 48 + 15)
/-- The fields that replay compares: SRCEP, SRCDEV, SIZE, KIND (R420). -/
def traceKey (w : Word) : Nat := w.toNat % 2 ^ 48 / 2 ^ 12 * 2 ^ 12 + w.toNat % 256
/-- Whether an arrival matches the head (R420). -/
def TraceRing.matches (t : TraceRing) (dev : BitVec 22) (h : Hdr) : Bool :=
  match t.entries with
  | [] => false
  | (w0, w1) :: _ => traceKey w0 == traceKey (traceWord dev 0 h) && w1.toNat % 2 ^ 52 == h.addr
/-- Whether the head ends the log. -/
def TraceRing.atEnd (t : TraceRing) : Bool :=
  match t.entries with
  | [] => false
  | (w0, _) :: _ => fld w0 0 4 == 15

/-- The ring of a port: a core's or a home agent's. -/
def State.ring (s : State) (port : Nat) : TraceRing := if epClass port == 3 then (s.home port).trace else (s.core port).trace
/-- The state with a port's ring replaced. -/
def State.setRing (s : State) (port : Nat) (t : TraceRing) : State :=
  if epClass port == 3 then s.modHome port (fun h => { h with trace := t }) else s.modCore port (fun c => { c with trace := t })

/-- Held arrivals that now match the head are performed, oldest first (R420); at most one pass per held arrival. -/
def State.drainRob (s : State) (port : Nat) (hdr : State → Event → Option Hdr) (perform : Event → State → State) : Nat → State
  | 0 => s
  | n + 1 =>
    let t := s.ring port
    match t.rob.find? (fun p => match hdr s p.2 with | some h => t.matches s.devId h | none => false) with
    | none => s
    | some p =>
      let t' := { t with rob := t.rob.filter (fun q => q.1 != p.1), entries := t.entries.drop 1 }
      (perform p.2 (s.setRing port t')).drainRob port hdr perform n

/-- Replay diverges (R421): DIVERGED, a machine check, MODE 0, every held arrival performed in order of arrival. -/
def State.diverge (s : State) (port : Nat) (perform : Event → State → State) : State :=
  let t := s.ring port
  let s := (s.setRing port { t with diverged := true, ctl := setFld t.ctl 32 2 0, rob := [] }).machineCheck port 15
  t.rob.foldl (fun u p => perform p.2 u) s

/-- Held arrivals re-examined (R420); one that meets the end of the log diverges (R421). -/
def State.reexamine (s : State) (port : Nat) (hdr : State → Event → Option Hdr) (perform : Event → State → State) : State :=
  let s := s.drainRob port hdr perform 16
  let t := s.ring port
  if t.mode == 2 && t.atEnd && !t.rob.isEmpty then s.diverge port perform else s

/-- Who sent a request that a port with a trace ring takes. -/
def arrivalSrc : Event → Nat
  | .load a => a.core
  | .store a => a.core
  | .atomic a => a.core
  | .arm q => q.rel.srcEp
  | .rds q => q.src
  | .rdo q => q.src
  | .upg q => q.src
  | .wb q => q.src
  | .rangeClaim q => q.src
  | .claimwrite q => q.src
  | .claimend q => q.src
  | .cmo q => q.src
  | _ => 0
/-- An entry appended to a ring; the 48th sends a drain event (R419). -/
def State.appendEntry (s : State) (port : Nat) (e : Word × Word) : State :=
  let t := s.ring port
  let s := s.setRing port { t with entries := t.entries ++ [e], seq := (t.seq + 1) % 2 ^ 16 }
  if t.entries.length + 1 == 48 then s.out (.drain port) else s
/-- A request recorded or replayed at a port with a trace ring (R417-R421): `perform` is what the port does with it. -/
def State.recorded (s : State) (port : Nat) (ev : Event) (hdr : State → Event → Option Hdr) (perform : Event → State → State) : State :=
  let t := s.ring port
  match hdr s ev with
  | none => perform ev s
  | some h =>
    if !t.logs h then perform ev s
    else if t.mode == 1 then perform ev (s.appendEntry port (traceWord s.devId t.seq h, BitVec.ofNat 64 (h.addr % 2 ^ 52)))
    else if t.matches s.devId h then
      (perform ev (s.setRing port { t with entries := t.entries.drop 1 })).reexamine port hdr perform
    else if t.atEnd || 16 ≤ t.rob.length then perform ev (s.diverge port perform)
    else { s.setRing port { t with rob := t.rob ++ [(s.uid, ev)] } with uid := s.uid + 1 }
/-- An arrival at an LM port. A port whose ring is full of recorded entries performs nothing, and the arrival waits in its place (R133,
R419, R422). -/
def State.arrive (s : State) (port : Nat) (ev : Event) (hdr : State → Event → Option Hdr) (perform : Event → State → State) : State :=
  if (s.ring port).full then s.requeue 0 (arrivalSrc ev) port ev else s.recorded port ev hdr perform

/-- log2 of a number of bytes, rounded up (SIZE of R418). -/
def log2Up (n : Nat) : Nat := if n ≤ 1 then 0 else bitLen (n - 1)

end Sys2Proof.Machine
end

