-- ==== Sys2Proof/Machine/Coherence.lean ====
section
/-! DEFINITION. Home agents and caching agents: requests, snoops, grants, claims, cache maintenance and back-invalidation
(12_home_agents.md R396-R416), and monitors at a home (06_frame_unit.md R213). -/

namespace Sys2Proof.Machine

/-! ## The snoop filter (R399) -/

/-- The agents a sharer set stands for: those that cache lines (R397, R399). -/
def SfEntry.sharers (e : SfEntry) : List Nat :=
  match e.coarse with
  | none => e.ptrs
  | some v => ((List.range 128) ++ [256]).filter (fun a => v.getLsbD (a / 16))
/-- The agents an entry lists: its owner, when it has one, and its sharers. -/
def SfEntry.listed (e : SfEntry) : List Nat :=
  if e.state == 1 then e.sharers else e.owner :: (e.sharers.filter (fun a => a != e.owner))
/-- The owner of a line in EX or O. -/
def SfEntry.owner? (e : SfEntry) : List Nat := if e.state == 1 then [] else [e.owner]
/-- A sharer added: up to three ids, then the coarse vector (R399). -/
def SfEntry.share (e : SfEntry) (a : Nat) : SfEntry :=
  let bit := fun (k : Nat) => BitVec.ofNat 17 (2 ^ (k / 16))
  match e.coarse with
  | some v => { e with coarse := some (v ||| bit a) }
  | none =>
    if e.ptrs.contains a then e
    else if e.ptrs.length < 3 then { e with ptrs := insertBy (fun x => x) a e.ptrs }
    else { e with ptrs := [], coarse := some (e.ptrs.foldl (fun v k => v ||| bit k) (bit a)) }
/-- The entry of a line in S with given sharers; an empty set is no entry. -/
def sfS (line : Nat) (l : List Nat) : Option SfEntry :=
  if l.isEmpty then none else some (l.foldl SfEntry.share (SfEntry.mk line 1 0 [] none))
/-- The entry of a line in EX. -/
def sfEx (line a : Nat) : SfEntry := SfEntry.mk line 2 a [] none

/-- The snoop filter with a line's entry replaced, in its place; a new entry is the latest; `none` frees it. -/
def sfSet (l : List SfEntry) (line : Nat) (e : Option SfEntry) : List SfEntry :=
  match e with
  | none => l.filter (fun x => x.line != line)
  | some e => if l.any (fun x => x.line == line) then l.map (fun x => if x.line == line then e else x) else l ++ [e]
/-- A home's entry of a line set. -/
def State.setSf (s : State) (ep line : Nat) (e : Option SfEntry) : State :=
  s.modHome ep (fun h => { h with sf := sfSet h.sf line e })

/-- Whether a line is BUSY (R399, R403). -/
def Home.busy (h : Home) (line : Nat) : Bool := h.txns.any (fun t => t.lines.contains line)

/-! ## Data at a home -/

/-- Monitors of a home evaluated on a line's data as it reaches the home (R213): each that holds is freed and fires. -/
def State.fireHomeOn (s : State) (ep line : Nat) (d : BitVec 1024) : State :=
  let h := s.home ep
  let hit := h.monitors.filter (fun m => lineOf m.q.addr == line
    && condHolds m.q.cond m.q.d (BitVec.ofNat 64 (ofBytes (lineBytes d (m.q.addr % 128) (if m.q.d then 8 else 4)))) m.q.comparand)
  if hit.isEmpty then s
  else hit.foldl (fun t m => t.sendRelease ep m.q.rel) (s.setHome ep { h with monitors := h.monitors.filter (fun m => !hit.contains m) })
/-- Monitors of a home evaluated on a line as the home holds it. -/
def State.fireHome (s : State) (ep line : Nat) : State := s.fireHomeOn ep line (s.homeLine line)

/-- A line written to DRAM; its poison mark stays with it (R407, R522). -/
def State.dramPut (s : State) (line : Nat) (d : BitVec 1024) (poison : Bool) : State :=
  let s := s.poke (dramKey line) (lineBytes d 0 128)
  if poison then { s with bad := s.bad ++ (List.range 16).map (fun k => dramKey line / 8 + k) } else s
/-- The lines of an LLC slice in the set of a line (R396). -/
def Home.setLines (h : Home) (line : Nat) : SMap LLine := h.llc.filter (fun p => lineSet p.1 == lineSet line)
/-- A line evicted from an LLC slice: a dirty one is written to DRAM first (R406), and a poisoned one, so that its mark stays (R407). -/
def State.llcEvict (s : State) (ep line : Nat) : State :=
  let h := s.home ep
  match h.llc.find line with
  | none => s
  | some l =>
    let s := s.setHome ep { h with llc := h.llc.del line }
    if l.dirty || l.poison then s.dramPut line l.data l.poison else s
/-- A line placed in its set of 16 ways (R129, R396): a Pin line in a way of the carve-out while one has room, else in one of the other
16 - k ways; a full set first evicts an ordinary line, which of them being a free value (log entry 38). -/
def State.llcPlace (s : State) (ep line : Nat) (l : LLine) : State :=
  let h := s.home ep
  let set := h.setLines line
  let ord := set.filter (fun p => !p.2.pin)
  let pin := l.pin && (set.length - ord.length) < h.carve
  let full := 16 ≤ set.length || (!pin && 16 - h.carve ≤ ord.length)
  let s := if full then match ord[(Config.freeWord s.fv).toNat % ord.length]? with
      | some p => ({ s with fv := s.fv + 1 } : State).llcEvict ep p.1
      | none => s
    else s
  s.modHome ep (fun h => { h with llc := h.llc.put line { l with pin := pin } })
/-- A slice's Pin lines after its carve-out has shrunk (R129): those that lie in no way of it any longer are ordinary lines. -/
def Home.trimPins (h : Home) : Home :=
  let out := fun (line : Nat) => h.carve ≤ (h.llc.filter (fun p => p.2.pin && p.1 < line && lineSet p.1 == lineSet line)).length
  { h with llc := h.llc.map (fun p => if p.2.pin && out p.1 then (p.1, { p.2 with pin := false }) else p) }

/-- The ordinary lines of a set beyond the ways that the carve-out leaves them are evicted (R129), which of them being a free value (log
entry 38). -/
def State.trimSet (s : State) (ep set : Nat) : Nat → State
  | 0 => s
  | n + 1 =>
    let h := s.home ep
    let ord := h.llc.filter (fun p => lineSet p.1 == set && !p.2.pin)
    if ord.length ≤ 16 - h.carve then s
    else match ord[(Config.freeWord s.fv).toNat % ord.length]? with
      | some p => (({ s with fv := s.fv + 1 } : State).llcEvict ep p.1).trimSet ep set n
      | none => s
/-- A slice whose carve-out has changed (R129): the Pin lines that have no way of it left are ordinary lines, and ordinary lines leave the
ways that it has taken. -/
def State.trimCarve (s : State) (ep : Nat) : State :=
  let s := s.modHome ep Home.trimPins
  (((s.home ep).llc.map (fun p => lineSet p.1)).eraseDups).foldl (fun t k => t.trimSet ep k 16) s

/-- Whether a slice samples the set of a line (R131). -/
def sampled (ep line : Nat) : Bool := (List.range 64).any (fun k => Config.sampledSet ep k % 4096 == lineSet line)
/-- A miss in the LLC of an access that allocates, counted in the sets sampled (R131). -/
def State.countMiss (s : State) (ep line : Nat) (noalloc pin : Bool) : State :=
  let h := s.home ep
  if noalloc || (h.llc.find line).isSome || !sampled ep line then s
  else s.setHome ep (if pin then { h with pinMiss := h.pinMiss + 1 } else { h with ordMiss := h.ordMiss + 1 })

/-- A line's data taken dirty by the LLC, or written to DRAM when the line is not to be allocated (R401, R406). -/
def State.homePut (s : State) (ep line : Nat) (d : BitVec 1024) (poison noalloc pin : Bool) : State :=
  let h := s.home ep
  let s := match h.llc.find line with
    | some l => s.setHome ep { h with llc := h.llc.put line { l with data := d, dirty := true, poison := poison } }
    | none => if noalloc then s.dramPut line d poison else s.llcPlace ep line (LLine.mk d true poison pin)
  s.fireHome ep line

/-- Whether a line's data at the home is poisoned (R407): by its mark in the LLC, or by an error in DRAM. -/
def State.homePoison (s : State) (ep line : Nat) : Bool :=
  match (s.home ep).llc.find line with
  | some l => l.poison
  | none => memBad s.bad (dramKey line) 128
/-- A line read through the LLC: allocated clean unless it is not to be (R406). Data that DRAM gives with an error is a machine check
(R407). -/
def State.homeFetch (s : State) (ep line : Nat) (noalloc pin : Bool) : State :=
  let h := s.home ep
  match h.llc.find line with
  | some _ => s
  | none =>
    let bad := s.homePoison ep line
    let s := if bad then s.machineCheck ep 7 else s
    if noalloc then s else s.llcPlace ep line (LLine.mk (s.dramLine line) false bad pin)

/-- The bytes of a line with those under a byte mask replaced. -/
def maskBytes (m : BitVec 128) (old new : BitVec 1024) : BitVec 1024 :=
  BitVec.ofNat 1024 (ofBytes ((List.range 128).map (fun i =>
    BitVec.ofNat 8 ((if m.getLsbD i then new.toNat else old.toNat) >>> (8 * i)))))

/-- Whether a line's current data is poisoned: the owner's copy, else the home's (R407). -/
def State.peekPoison (s : State) (line : Nat) : Bool :=
  match s.ownerLine line with
  | some c => c.poison
  | none => s.homePoison (homeOf line) line
/-- A ONCE write of an engine's own, taken in the line's serialisation at one moment (R409): cached copies leave, dirty data is
merged, the bytes are written, and the line is in state I. -/
def State.onceLine (s : State) (line o : Nat) (b : List Byte) (noalloc pin : Bool) : State :=
  let ep := homeOf line
  let d := linePut (s.peekLine line) o b
  let bad := s.peekPoison line && b.length != 128
  let who := match (s.home ep).sfOf line with | some e => e.listed | none => []
  let s := s.modHome ep (fun h => { h with snpcnt := h.snpcnt + who.length })
  let drop := fun (t : State) (a : Nat) => if a < 128 then
      t.modCore (agentEpOf a) (fun c => { c with dcache := { c.dcache with
        lines := c.dcache.lines.del line, wbuf := c.dcache.wbuf.del line } })
    else t
  (((who.foldl drop s).setSf ep line none).countMiss ep line noalloc pin).homePut ep line d bad noalloc pin

/-- Bytes written to device memory by an engine, line by line. -/
def State.paWrite (s : State) (noalloc pin : Bool) : Nat → List Byte → Nat → State
  | _, _, 0 => s
  | _, [], _ => s
  | pa, b, n + 1 =>
    let k := 128 - pa % 128
    (s.onceLine (lineOf pa) (pa % 128) (b.take k) noalloc pin).paWrite noalloc pin (pa + k) (b.drop k) n
/-- The lines that `n` bytes from an address on touch. -/
def linesOf (pa n : Nat) : List Nat := ((List.range (n / 128 + 2)).map (fun k => lineOf pa + 128 * k)).filter (fun l => l < pa + n)
/-- Bytes written to device memory by an engine; `noalloc` and `pin` say how their lines are allocated (R406). -/
def State.devWrite (s : State) (pa : Nat) (b : List Byte) (noalloc pin : Bool) : State := s.paWrite noalloc pin pa b (b.length / 128 + 2)

/-! ## ONCE accesses of agents that cache no line (R409) -/

/-- The pieces of `n` bytes from an address on that lie within one line each. -/
def linePieces : Nat → Nat → Nat → List (Nat × Nat)
  | 0, _, _ => []
  | k + 1, pa, n => if n == 0 then [] else let m := Nat.min n (128 - pa % 128); (pa, m) :: linePieces k (pa + m) (n - m)
/-- The ONCE reads of a range. -/
def onceReads (src : Nat) (asid : BitVec 16) (pa n : Nat) (noalloc pin : Bool) : List HomeReq :=
  (linePieces (n / 128 + 2) pa n).map (fun p => { homeReq .rds src (lineOf p.1) asid noalloc pin with
    once := true, limit := p.2, mask := BitVec.ofNat 128 (p.1 % 128) })
/-- The ONCE writes of a range. -/
def onceWrites (src : Nat) (asid : BitVec 16) (pa : Nat) (b : List Byte) (noalloc pin : Bool) : List HomeReq :=
  (linePieces (b.length / 128 + 2) pa b.length).map (fun p =>
    let o := p.1 % 128
    { homeReq .wb src (lineOf p.1) asid noalloc pin with
      once := true, data := linePut 0 o ((b.drop (p.1 - pa)).take p.2), mask := BitVec.ofNat 128 ((2 ^ p.2 - 1) <<< o) })
/-- Requests to homes begun for a use: the first goes out, each other when the one before it has been answered. -/
def State.onceBegin (s : State) (owner : Nat) (use : OnceUse) (l : List HomeReq) : State :=
  match l.map (fun q => { q with tag := s.uid }) with
  | [] => s
  | q :: r => ({ s with uid := s.uid + 1, once := s.once ++ [OnceOp.mk s.uid owner r [] false use] } : State).askHome q
/-- An answer for a use: what it read is kept, and the next request goes out, or the use has all its answers. -/
def State.onceNext (s : State) (q : HomeReq) (b : List Byte) (bad : Bool) : Option OnceOp × State :=
  match s.once.find? (fun o => o.id == q.tag) with
  | none => (none, s)
  | some o =>
    let o := { o with bytes := o.bytes ++ b, bad := o.bad || bad }
    match o.todo with
    | [] => (some o, { s with once := s.once.filter (fun x => x.id != o.id) })
    | r :: l => (none, ({ s with once := s.once.map (fun x => if x.id == o.id then { o with todo := l } else x) } : State).askHome r)

/-! ## Transactions (R401, R403) -/

/-- Whether a request needs a snoop-filter entry for a line that has none (R408). -/
def Home.needsEntry (h : Home) (q : HomeReq) : Bool :=
  (match q.kind with | .rds => !q.once | .rdo => true | .upg => true | _ => false) && (h.sfOf q.line).isNone

/-- The snoops that a request sends: agent, line and type (R401, R409, R410, R415). -/
def Home.snoops (h : Home) (q : HomeReq) : List (Nat × Nat × SnpType) :=
  let e := h.sfOf q.line
  let listed := match e with | some e => e.listed | none => []
  let owner := match e with | some e => e.owner? | none => []
  let others := fun (l : List Nat) => l.filter (fun a => a != q.agent)
  let tgt := fun (l : List Nat) (ty : SnpType) => l.map (fun a => (a, q.line, ty))
  match q.kind with
  | .rds => if q.once then tgt owner .snpCur else tgt (others owner) .snpS
  | .rdo => tgt (others listed) .snpInv
  | .upg => tgt (others listed) .snpInv
  | .wb => if q.once then tgt listed .snpInv else []
  | .claim => (h.sf.filter (fun e => q.line ≤ e.line && e.line < q.limit)).flatMap (fun e => e.listed.map (fun a => (a, e.line, .snpInv)))
  | .cmo .flush => tgt listed .snpInv
  | .cmo .inv => tgt listed .snpInv
  | .cmo .clean => tgt owner .snpCln
  | .armReq _ => tgt owner .snpCur
  | .claimWrite => []
  | .claimEnd => []

/-- The answer of one agent in a transaction. -/
def Txn.answer (t : Txn) (a : Nat) : LState :=
  match t.answers.find? (fun p => p.1 == a) with
  | some p => p.2
  | none => .i

/-- Whether the entry lists an agent as holder of S or O (R401, the Upg row). -/
def upgListed (e : Option SfEntry) (a : Nat) : Bool :=
  match e with
  | some e => (e.state == 1 || e.state == 3) && e.listed.contains a
  | none => false

/-- The grant of an RdS and the line's new entry (R401). -/
def rdsGrant (e : Option SfEntry) (line a : Nat) (ans : LState) : LState × SfEntry :=
  match e with
  | none => (.e, sfEx line a)
  | some e =>
    if e.state == 1 then (.s, e.share a)
    else if e.state == 2 && e.owner == a then (.e, sfEx line a)
    else if e.state == 3 then (.s, e.share a)
    else match ans with
      | .m => (.s, SfEntry.mk line 3 e.owner [a] none)
      | .i => (.s, SfEntry.mk line 1 0 [a] none)
      | _ => (.s, (SfEntry.mk line 1 0 [a] none).share e.owner)

/-- A response from a home to a requester. -/
def State.respond (s : State) (ep : Nat) (q : HomeReq) (ev : Event) : State := s.send 1 ep q.src ev

/-- The data of a finished transaction: what a snoop answer brought, else the home's. -/
def State.txnData (s : State) (t : Txn) : BitVec 1024 := t.got.getD (s.homeLine t.q.line)

/-- Monitors at a home: an arm samples the word; it fires at once, is held, or is refused (R213). -/
def State.homeArm (s : State) (ep : Nat) (q : ArmReq) (line : BitVec 1024) : State :=
  let h := s.home ep
  let v := BitVec.ofNat 64 (ofBytes (lineBytes line (q.addr % 128) (if q.d then 8 else 4)))
  if 64 ≤ h.monitors.length then s.send 1 ep q.rel.srcEp (.armack q true)
  else if condHolds q.cond q.d v q.comparand then (s.sendRelease ep q.rel).send 1 ep q.rel.srcEp (.armack q false)
  else
    let idx := ((List.range 64).find? (fun i => !h.monitors.any (fun m => m.idx == i))).getD 0
    (s.setHome ep { h with monitors := h.monitors ++ [Monitor.mk idx q] }).send 1 ep q.rel.srcEp (.armack q false)

/-- A line whose LLC copy leaves for DRAM: dirty data written, the copy kept clean or dropped (R415). -/
def State.homeClean (s : State) (ep line : Nat) (drop : Bool) : State :=
  let h := s.home ep
  match h.llc.find line with
  | none => s
  | some l =>
    let s := if l.dirty || (drop && l.poison) then s.dramPut line l.data l.poison else s
    s.setHome ep { h with llc := if drop then h.llc.del line else h.llc.put line { l with dirty := false } }

/-- Whether an accepted claim holds a request back: one for a line that the claim has not passed, but the claiming transfer's own, its
reads of its own source among them (R411). -/
def claimHolds (h : Home) (q : HomeReq) : Bool :=
  let hi := match q.kind with | .claim => q.limit | _ => q.line + 1
  h.claims.any (fun c => c.accepted && c.prog < hi && q.line < c.limit
    && match q.kind with
      | .claimWrite => false
      | .claimEnd => false
      | .claim => !(c.agent == q.agent && c.tid == q.tid)
      | .rds => !(q.once && q.agent != 512 && c.agent == q.agent && c.tid == q.tid)
      | .cmo _ => true
      | _ => c.agent != q.agent || q.once)

/-- Whether a home's grant or acknowledgement of a line is on its way to an agent. -/
def State.lineGranted (s : State) (line : Nat) : Bool :=
  s.net.any (fun m => match m.ev with
    | .coherentData q _ _ _ => q.line == line
    | .homeAck q _ => q.line == line && q.kind != .wb
    | _ => false)
/-- Whether no transaction, no claim and no grant on its way holds a line back from a ONCE access of an engine (R401, R403, R411). -/
def State.lineFree (s : State) (line : Nat) : Bool :=
  let h := s.home (homeOf line)
  !h.busy line && !s.lineGranted line && !claimHolds h { homeReq .wb (agentEp 0 0x81) line 0 false false with once := true }
/-- Whether a guest's snoop answer counts as I: it is fenced (R412). -/
def State.guestGone (s : State) : Bool := s.guest.state != 2
/-- Whether the guest may hold a copy of a line (R399, R412). -/
def State.guestHeld (s : State) (line : Nat) : Bool :=
  !s.guestGone && (match (s.home (homeOf line)).sfOf line with | some e => e.listed.contains 256 | none => false)
/-- Whether every line that an access touches is free for it, the guest holding none. -/
def State.rangeFree (s : State) (pa n : Nat) : Bool := (linesOf pa n).all (fun l => s.lineFree l && !s.guestHeld l)
/-- The guest's copies of the free lines that an access touches are asked back, by a ONCE write of no byte (R409; log entry 35). -/
def State.guestRecall (s : State) (pa n : Nat) : State :=
  (linesOf pa n).foldl (fun t l =>
    let ev := Event.wb { homeReq .wb (agentEp 0 0x81) l 0 false false with once := true }
    if t.lineFree l && t.guestHeld l && !t.net.any (fun m => m.ev == ev) then t.later ev else t) s
/-- The requests of a recall queue that no claim holds any longer and for which the transaction buffer of 64 has room, and those that
stay (R403, R411). -/
def Home.released (h : Home) : List HomeReq × List HomeReq :=
  let free := (h.recallq.filter (fun q => !claimHolds h q)).take (64 - h.buf.length)
  (free, h.recallq.filter (fun q => claimHolds h q) ++ (h.recallq.filter (fun q => !claimHolds h q)).drop (64 - h.buf.length))
/-- What waits at a home is looked at again. -/
def State.homeWake (s : State) (ep : Nat) : State :=
  let h := s.home ep
  let s := s.setHome ep { h with recallq := h.released.2, buf := h.buf ++ h.released.1 }
  if (s.home ep).buf.isEmpty then s else s.later (.transactionTaken ep)

/-- The end of a transaction: the grant or acknowledgement, and the line's new state (R401, R409-R411, R415). -/
def State.homeFinish (s : State) (ep : Nat) (t : Txn) : State :=
  let q := t.q
  let e := (s.home ep).sfOf q.line
  let d := s.txnData t
  let poison := t.poison || s.homePoison ep q.line
  match q.kind with
  | .rds =>
    let s := s.homeFetch ep q.line q.noalloc q.pin
    if q.once then s.respond ep q (.coherentData q .i d poison)
    else
      let (g, e') := rdsGrant e q.line q.agent (match e with | some e => t.answer e.owner | none => .i)
      (s.setSf ep q.line (some e')).respond ep q (.coherentData q g d poison)
  | .rdo =>
    ((s.homeFetch ep q.line q.noalloc q.pin).setSf ep q.line (some (sfEx q.line q.agent))).respond ep q (.coherentData q .m d poison)
  | .upg =>
    let s' := s.setSf ep q.line (some (sfEx q.line q.agent))
    if upgListed e q.agent then s'.respond ep q (.homeAck q false)
    else (s'.homeFetch ep q.line q.noalloc q.pin).respond ep q (.coherentData q .m d poison)
  | .wb =>
    if q.once then
      let all := q.mask == BitVec.allOnes 128
      -- an `HGIVE`, the ONCE write of a core, writes when it is done (R187)
      ((s.setSf ep q.line none).homePut ep q.line (if coreEp q.src then d else maskBytes q.mask d q.data) (poison && !all) q.noalloc q.pin).respond ep q (.homeAck q false)
    else match e with
      | some e =>
        if e.state != 1 && e.owner == q.agent then
          let left := if e.state == 3 then sfS q.line e.sharers else none
          (((if q.bad then s.machineCheck ep 7 else s).setSf ep q.line left).homePut ep q.line q.data q.bad q.noalloc q.pin).respond ep q (.homeAck q false)
        else s.respond ep q (.homeAck q false)
      | none => s.respond ep q (.homeAck q false)
  | .claim =>
    let gone := fun (x : SfEntry) => q.line ≤ x.line && x.line < q.limit
    (s.modHome ep (fun h => { h with sf := h.sf.filter (fun x => !gone x) })).respond ep q (.homeAck q false)
  | .claimWrite =>
    let all := q.mask == BitVec.allOnes 128
    let s := s.homePut ep q.line (maskBytes q.mask d q.data) (poison && !all) q.noalloc q.pin
    let adv := fun (c : ClaimRec) => if q.last && c.agent == q.agent && c.tid == q.tid && c.base ≤ q.line && q.line < c.limit
      then { c with prog := Nat.max c.prog (q.line + 128) } else c
    ((s.modHome ep (fun h => { h with claims := h.claims.map adv })).respond ep q (.homeAck q false)).homeWake ep
  | .claimEnd =>
    let mine := fun (c : ClaimRec) => c.agent == q.agent && c.tid == q.tid && c.base == q.line
    ((s.modHome ep (fun h => { h with claims := h.claims.filter (fun c => !mine c) })).respond ep q (.homeAck q false)).homeWake ep
  | .cmo k =>
    let dirty := t.dirtySeen || (match (s.home ep).llc.find q.line with | some l => l.dirty | none => false)
    match k with
    | .flush => ((s.setSf ep q.line none).homeClean ep q.line true).respond ep q (.homeAck q dirty)
    | .inv => (s.modHome ep (fun h => { h with sf := sfSet h.sf q.line none, llc := h.llc.del q.line })).respond ep q (.homeAck q dirty)
    | .clean =>
      let e' := match e with
        | none => none
        | some e =>
          if e.state == 1 then some e
          else if t.answer e.owner == .i then (if e.state == 3 then sfS q.line e.sharers else none)
          else if e.state == 3 then sfS q.line (e.owner :: e.sharers)
          else some (sfEx q.line e.owner)
      ((s.setSf ep q.line e').homeClean ep q.line false).respond ep q (.homeAck q dirty)
  | .armReq a => s.homeArm ep a d

/-- A snoop sent to an agent (R400), with the level and the ASID of the request that causes it. -/
def State.sendSnoop (s : State) (ep : Nat) (by' : Nat × BitVec 16) (p : Nat × Nat × SnpType) : State :=
  (s.modHome ep (fun h => { h with snpcnt := h.snpcnt + 1 })).send 0 ep (agentEpOf p.1) (.snoop ep p.1 p.2.1 p.2.2 by')

/-- A transaction begins: its snoops go out, or it ends at once when there are none. -/
def State.homeBegin (s : State) (ep : Nat) (t : Txn) (sn : List (Nat × Nat × SnpType)) : State :=
  if sn.isEmpty then s.homeFinish ep t
  else sn.foldl (fun u p => u.sendSnoop ep (t.q.prio, t.q.asid) p) (s.modHome ep (fun h => { h with txns := h.txns ++ [{ t with waiting := sn.map (fun p => (p.1, p.2.1)) }] }))

/-- Whether a request reads or writes its line in the LLC (R401, R406). -/
def Home.usesLlc (h : Home) (q : HomeReq) : Bool :=
  match q.kind with
  | .rds => true
  | .rdo => true
  | .upg => !upgListed (h.sfOf q.line) q.agent
  | .wb => q.once || (match h.sfOf q.line with | some e => e.state != 1 && e.owner == q.agent | none => false)
  | .claimWrite => true
  | _ => false
/-- A request's own transaction begins; a miss of an access that allocates is counted (R131). -/
def State.homeRun (s : State) (ep : Nat) (q : HomeReq) : State :=
  let s := if (s.home ep).usesLlc q then s.countMiss ep q.line q.noalloc q.pin else s
  s.homeBegin ep (Txn.mk q [] [] false none false [q.line] none) ((s.home ep).snoops q)
/-- A request is taken: a back-invalidation comes first when the set is full (R408). -/
def State.homeStart (s : State) (ep : Nat) (q : HomeReq) : State :=
  let h := s.home ep
  let t := Txn.mk q [] [] false none false [q.line] none
  let set := h.sf.filter (fun e => lineSet e.line == lineSet q.line)
  if h.needsEntry q && 16 ≤ set.length then
    match set.find? (fun e => !h.busy e.line) with
    | none => s.setHome ep { h with buf := h.buf ++ [q] }
    | some v =>
      let s := s.setHome ep { h with binvcnt := h.binvcnt + 1 }
      let sn := v.listed.map (fun a => (a, v.line, SnpType.backInv))
      if sn.isEmpty then (s.setSf ep v.line none).homeRun ep q
      else s.homeBegin ep { t with lines := [v.line, q.line], victim := some v.line } sn
  else
    match q.kind with
    | .claim =>
      if 256 ≤ h.claims.length then s.setHome ep { h with buf := h.buf ++ [q] }
      else
        let sn := h.snoops q
        let s := s.setHome ep { h with claims := h.claims ++ [ClaimRec.mk q.line q.limit q.line q.agent q.tid true] }
        s.homeBegin ep { t with lines := sn.map (fun p => p.2.1) } sn
    | _ => s.homeRun ep q

/-- Whether a request can be taken now: no transaction runs on its line, or, for a claim, on a line of its range; the claim
table has room. -/
def Home.canTake (h : Home) (q : HomeReq) : Bool :=
  match q.kind with
  | .claim => h.claims.length < 256 && !h.txns.any (fun t => t.lines.any (fun l => q.line ≤ l && l < q.limit))
  | .claimEnd => true
  | _ => !h.busy q.line &&
    (!h.needsEntry q || (h.sf.filter (fun e => lineSet e.line == lineSet q.line)).length < 16
      || (h.sf.any (fun e => lineSet e.line == lineSet q.line && !h.busy e.line)))

/-- Whether a request waits behind one of the earlier ones: for a line of its own, when no claim holds that one back (R403, R411). -/
def Home.behind (h : Home) (l : List HomeReq) (q : HomeReq) : Bool :=
  let hi := fun (b : HomeReq) => match b.kind with | .claim => b.limit | _ => b.line + 1
  (match q.kind with | .claimEnd => false | _ => true) && l.any (fun b => b.line < hi q && q.line < hi b && !claimHolds h b)

/-- Whether a request that no claim holds waits in the transaction buffer: what the recall queue has released comes before it. -/
def Home.waits (h : Home) (q : HomeReq) : Bool := !h.canTake q || h.behind (h.buf ++ h.recallq) q
/-- Whether a request is answered with Retry: it must wait, and the queue for it is full (R403, R411). -/
def Home.retries (h : Home) (q : HomeReq) : Bool :=
  if claimHolds h q then 64 ≤ h.recallq.length else h.waits q && 64 ≤ h.buf.length

/-- What a home does with a request (R403, R411): it waits behind a claim, waits while its line is BUSY or an earlier request
for the line waits, is answered with Retry when there is no room, or is taken by `start`. -/
def State.homeAdmit (s : State) (ep : Nat) (q : HomeReq) (start : State → State) : State :=
  let h := s.home ep
  if h.retries q then (s.setHome ep { h with retrycnt := h.retrycnt + 1 }).respond ep q (.homeRetry q)
  else if claimHolds h q then s.setHome ep { h with recallq := h.recallq ++ [q] }
  else if h.waits q then s.setHome ep { h with buf := h.buf ++ [q] }
  else start s
/-- A request that a trace ring has taken goes on at its home. -/
def State.homeGo (s : State) (ep : Nat) (q : HomeReq) : State := s.homeAdmit ep q (fun s => s.homeStart ep q)

/-- The agent that a copy engine of another device is to this one's homes (R381). -/
def linkAgent (q : LinkReq) : Nat := 1024 + q.srcDev.toNat * 2 ^ 14 + q.engine
/-- The header that a home's trace ring sees (R417) of a request that it takes now: grants, claims, CMOs and ONCE accesses. -/
def State.homeHdr (s : State) (ep : Nat) (q : HomeReq) : Option Hdr :=
  let e := (s.home ep).sfOf q.line
  let own := fun (e : SfEntry) => e.state != 1 && e.owner == q.agent
  let far := 1024 ≤ q.agent
  let mk := fun (k size : Nat) => some (Hdr.mk q.asid k (if far then (q.agent - 1024) % 2 ^ 14 else q.src)
    (if far then some (BitVec.ofNat 22 ((q.agent - 1024) / 2 ^ 14)) else none) size q.line)
  match q.kind with
  | .rds =>
    if q.once then mk 9 7
    else match e with
      | none => mk 5 7
      | some e => if own e then mk 5 7 else mk 6 7
  | .rdo => mk 5 7
  | .upg => mk 5 7
  | .wb => if q.once then mk 10 (log2Up (popBits 128 q.mask.toNat)) else none
  | .claim => mk 7 7
  | .cmo _ => mk 8 7
  | _ => none
where
  /-- One bits of `n` bits. -/
  popBits : Nat → Nat → Nat
    | 0, _ => 0
    | n + 1, v => v % 2 + popBits n (v / 2)

/-- The request that an event carries to a home. -/
def reqOf : Event → Option HomeReq
  | .rds q => some q
  | .rdo q => some q
  | .upg q => some q
  | .wb q => some q
  | .rangeClaim q => some q
  | .claimwrite q => some q
  | .claimend q => some q
  | .cmo q => some q
  | _ => none

/-- The header of an event at a home's trace ring, in a state. -/
def homeHdrOf (ep : Nat) (s : State) (ev : Event) : Option Hdr := (reqOf ev).bind (s.homeHdr ep)
/-- What a home does with an event that its trace ring lets be performed. -/
def homePerform (ev : Event) (s : State) : State :=
  match reqOf ev with
  | some r => s.homeGo r.home { r with logged := true }
  | none => s
/-- A request is taken: the trace ring sees it in this moment, when the kind of its grant is known (R417, R420; log entry 80). -/
def State.homeEnter (s : State) (ep : Nat) (q : HomeReq) : State :=
  if q.logged then s.homeStart ep q else s.recorded ep q.event (homeHdrOf ep) homePerform
/-- A request arrives at its home (R403, R411). -/
def State.homeTake (s : State) (ep : Nat) (q : HomeReq) : State := s.homeAdmit ep q (fun s => s.homeEnter ep q)

/-- The socket with the guest changed. -/
def State.modGuest (s : State) (k : Guest → Guest) : State := { s with guest := k s.guest }
/-- The socket enters FENCING with a reason (R487, R489 step 1); the actions follow. -/
def State.fence (s : State) (reason : Nat) : State :=
  (s.modGuest (fun g => { g with
    state := 3, reason := reason, fencecnt := (g.fencecnt + 1) % 2 ^ 64, preempt := none, hot := false })).later (.dutyTimeout 0)
/-- Whether the guest holds a grant for a request (R485): RdS any, RdO, Upg and a write-back one with W. -/
def State.guestMay (s : State) (q : HomeReq) : Bool :=
  let need : Bool := match q.kind with | .rdo => true | .upg => true | .wb => true | _ => false
  s.guest.grants.any (fun g => g.pa ≤ q.line && q.line < g.pa + 2 ^ pageBits g.size && (!need || g.write))
/-- Whether a line lies on an NS page of a grant (R123). -/
def State.guestNs (s : State) (line : Nat) : Bool :=
  s.guest.grants.any (fun g => g.pa ≤ line && line < g.pa + 2 ^ pageBits g.size && g.ns)
/-- A request reaches its home, and waits there while the trace ring is full (R419); the socket drops those of a guest that is not OPEN,
and answers one without a grant with poisoned data and a fence (R485, R489). -/
def State.homeArrive (s : State) (q : HomeReq) : State :=
  if q.agent == 256 && s.guestGone then s
  else if q.agent == 256 && !s.guestMay q then
    ({ s with fv := s.fv + 1 }.out (.guest (.coherentData q .i (BitVec.ofNat 1024 (Config.freeWord s.fv).toNat) true))).fence 6
  else if (s.ring q.home).full then s.requeue 0 q.src q.home q.event
  else s.homeTake q.home (if q.agent == 256 then { q with noalloc := s.guestNs q.line } else q)

/-- `RDS` (R401, R409). -/
def execRds (q : HomeReq) (s : State) : Out := .next (s.homeArrive q)
/-- `RDO` (R401). -/
def execRdo (q : HomeReq) (s : State) : Out := .next (s.homeArrive q)
/-- `UPG` (R401). -/
def execUpg (q : HomeReq) (s : State) : Out := .next (s.homeArrive q)
/-- `WB` (R401, R409). -/
def execWb (q : HomeReq) (s : State) : Out := .next (s.homeArrive q)
/-- `RANGE_CLAIM` (R410). -/
def execRangeClaim (q : HomeReq) (s : State) : Out := .next (s.homeArrive q)
/-- `CLAIMWRITE` (R411). -/
def execClaimwrite (q : HomeReq) (s : State) : Out := .next (s.homeArrive q)
/-- `CLAIMEND` (R411). -/
def execClaimend (q : HomeReq) (s : State) : Out := .next (s.homeArrive q)
/-- `CMO` (R415). -/
def execCmo (q : HomeReq) (s : State) : Out := .next (s.homeArrive q)

/-- The oldest buffered request that can be taken, with its place: no claim holds it, and it waits behind no earlier one (R403). -/
def Home.ready (h : Home) : Option (HomeReq × Nat) :=
  h.buf.zipIdx.find? (fun p => h.canTake p.1 && !claimHolds h p.1 && !h.behind (h.buf.take p.2) p.1)

/-- `TRANSACTION_TAKEN` (R403): the oldest buffered request that can be taken is taken, and what the recall queue has released comes
into its place; the rest wait. A full trace ring takes nothing (R419). -/
def execTransactionTaken (ep : Nat) (s : State) : Out :=
  let h := s.home ep
  .next (if (s.ring ep).full then s
    else match h.ready with
    | none => s
    | some (q, i) =>
      let h := { h with buf := h.buf.eraseIdx i }
      let s := (s.setHome ep { h with recallq := h.released.2, buf := h.buf ++ h.released.1 }).homeEnter ep q
      if (s.home ep).ready.isSome then s.later (.transactionTaken ep) else s)

/-- `HOME_RETRY` (R403): the requester sends the request again. -/
def execHomeRetry (q : HomeReq) (s : State) : Out := .next (s.askHome q)

/-- `SNPRESP` (R401, R407, R408): data is merged, the answer noted, and the last answer ends the transaction. The answer of a fenced guest
is I (R412); poisoned data is stored with its mark, and data that comes without one leaves the mark of its line (R407). -/
def execSnpresp (ep agent line : Nat) (held : LState) (data : Option (BitVec 1024)) (poison noalloc pin : Bool) (s : State) : Out :=
  let gone := agent == 256 && s.guestGone
  let held := if gone then .i else held
  let data := if gone then none else data
  let poison := !gone && poison
  let h := s.home ep
  .next (match h.txns.find? (fun t => t.waiting.contains (agent, line)) with
    | none => s
    | some t =>
      let inv := match t.q.kind with | .cmo .inv => t.victim.isNone | _ => false
      let cur := match t.q.kind with | .rds => t.victim.isNone | .armReq _ => true | _ => false
      let t' := { t with
        waiting := t.waiting.erase (agent, line)
        answers := t.answers ++ [(agent, held)]
        dirtySeen := t.dirtySeen || data.isSome
        got := (if line == t.q.line && t.victim.isNone then (match data with | some d => some d | none => t.got) else t.got)
        poison := t.poison || (poison && line == t.q.line) }
      let s := s.setHome ep { h with txns := h.txns.map (fun u => if u == t then t' else u) }
      let s := if poison then s.machineCheck ep 7 else s
      let s := match data with
        | some d => if inv then s else if cur && !poison then s.fireHomeOn ep line d
          else s.homePut ep line d (poison || s.homePoison ep line) (if agent == 256 then s.guestNs line else noalloc) (pin && agent < 256)
        | none => s
      if !t'.waiting.isEmpty then s
      else
        let s := s.modHome ep (fun h => { h with txns := h.txns.erase t' })
        match t.victim with
        | some v =>
          let s := s.setSf ep v none
          (s.homeRun ep t.q).homeWake ep
        | none => (s.homeFinish ep t').homeWake ep)

/-! ## Caching agents (R402, R405) -/

/-- What an agent holds of a line: its cache, or its write-back buffer while a WB is outstanding (R402). -/
def DCache.held (d : DCache) (line : Nat) : Option CLine :=
  match d.wbuf.find line with
  | some l => some l
  | none => d.lines.find line

/-- `SNOOP` (R402, R405): the agent answers; on another slab it applies an invalidation later. To the guest it leaves the module; for one
that is not OPEN the answer is I (R412). -/
def execSnoop (home agent line : Nat) (ty : SnpType) (by' : Nat × BitVec 16) (s : State) : Out :=
  let ep := agentEpOf agent
  let d := (s.core ep).dcache
  let answer := match d.held line with
    | none => Event.snpresp home agent line .i none false false false by'
    | some l => Event.snpresp home agent line l.st (if (snoopStep l.st ty).2 then some l.data else none) l.poison l.noalloc l.pin by'
  let far := epSlab home != epSlab ep && (ty == .snpInv || ty == .backInv)
  .next (if agent == 256 && !s.guestGone then s.out (.guest (.snoop home agent line ty by'))
    else if epClass ep != 1 then s.send 1 ep home (.snpresp home agent line .i none false false false by')
    else if far then
      -- until it applies the snoop the agent may load the old copy, but it no longer owns the line
      let d' := { d with
        snoops := d.snoops ++ [(line, ty)]
        lines := (match d.lines.find line with | some l => d.lines.put line { l with st := .s } | none => d.lines) }
      ((s.modCore ep (fun c => { c with dcache := d' })).send 1 ep home answer).later (.snoopApply ep)
    else (s.modCore ep (fun c => { c with dcache := d.snoop line ty })).send 1 ep home answer)

/-- `SNOOP_APPLY` (R405): the line of the oldest answered snoop is given up, by every agent of the slab that still has to (R139); fences
that waited for it may go. -/
def execSnoopApply (ep : Nat) (s : State) : Out :=
  .next (match (s.core ep).dcache.snoops with
    | [] => s
    | (line, _) :: _ => s.slabApply (epSlab ep) line)

/-- `LINE_DROP` (R398): a line in E or S leaves the cache without a message, unless an access waits for more of it. -/
def execLineDrop (ep line : Nat) (s : State) : Out :=
  .next (match (s.core ep).dcache.lines.find line with
    | some l =>
      if (l.st == .e || l.st == .s) && !(s.core ep).dcache.pend.any (fun p => lineOf p.1.addr == line) then
        s.modCore ep (fun c => { c with dcache := { c.dcache with lines := c.dcache.lines.del line } })
      else s
    | none => s)

/-- The lines of a data cache in the set of a line: 64 sets of 8 ways, indexed by address bits [12:7] (R366). -/
def cacheSet (lines : SMap CLine) (line : Nat) : SMap CLine := lines.filter (fun p => p.1 / 128 % 64 == line / 128 % 64)
/-- A line written back when its set has no way left: M and O by a WB, E and S dropped (R398). Which line leaves is a free value
(log entry 6). The write-back carries ASID and level of the request `by'` whose line takes the way (R400). -/
def State.evict (s : State) (ep keep : Nat) (by' : HomeReq) : State :=
  let d := (s.core ep).dcache
  let set := cacheSet d.lines keep
  let may := set.filter (fun p => p.1 != keep && !d.pend.any (fun q => lineOf q.1.addr == p.1))
  if set.length ≤ 8 then s
  else match may[(Config.freeWord s.fv).toNat % may.length]? with
    | none => s
    | some (line, l) =>
      let s := { s with fv := s.fv + 1 }.modCore ep (fun c => { c with dcache := { c.dcache with lines := c.dcache.lines.del line } })
      if l.st == .m || l.st == .o then
        let q := { frameReq .wb ep by'.prio line by'.asid false false with data := l.data, mask := BitVec.allOnes 128, noalloc := l.noalloc, pin := l.pin, bad := l.poison }
        (s.modCore ep (fun c => { c with dcache := { c.dcache with wbuf := c.dcache.wbuf.put line l } })).askHome q
      else s

/-- The accesses that wait for a line are performed in order while its state allows; the first it does not allow asks again. -/
def State.servePend (s : State) (ep line : Nat) : Nat → State
  | 0 => s
  | n + 1 =>
    let d := (s.core ep).dcache
    match d.pend.find? (fun p => lineOf p.1.addr == line), d.lines.find line with
    | some (a, k, na, pin), some l =>
      if lineAllows l.st a.op then
        let (l', r) := l.perform (a.addr % 128) a.op
        let d' := { d with lines := d.lines.put line l', pend := d.pend.erase (a, k, na, pin) }
        let s := s.modCore ep (fun c => { c with dcache := d' })
        ((s.performed ep a.id).complete a r l.poison).servePend ep line n
      else s.askHome (frameReq .upg ep a.prio line a.asid na pin)
    | _, _ => s

/-- A grant fills the data cache of a memory core: answered snoops of old copies are applied first (R139). -/
def State.fillLine (s : State) (q : HomeReq) (st : LState) (data : BitVec 1024) (poison : Bool) : State :=
  let ep := q.src; let line := q.line
  let s := (s.slabApply (epSlab ep) line).modCore ep (fun c => { c with dcache := { c.dcache with
    lines := c.dcache.lines.put line (CLine.mk st data poison q.noalloc q.pin) } })
  (s.servePend ep line ((s.core ep).dcache.pend.length + 1)).evict ep line q

/-- An Upg acknowledged: the line may be stored to. -/
def State.upgraded (s : State) (ep line : Nat) : State :=
  let up := fun (d : DCache) => match d.lines.find line with
    | some l => { d with lines := d.lines.put line { l with st := if l.st == .o then .m else .e } }
    | none => d
  let s := (s.slabApply (epSlab ep) line).modCore ep (fun c => { c with dcache := up c.dcache })
  s.servePend ep line ((s.core ep).dcache.pend.length + 1)

/-! ## Cache maintenance instructions (R413-R416) -/

/-- EVAL of cause 60 and of the other causes with a code (R371): the code in [39:32], the C-slot word below. -/
def State.evalCode (s : State) (code : Nat) : Word := BitVec.ofNat 64 (code * 2 ^ 32 + s.iss.w0.toNat)

/-- The pages that bytes of a range touch, by the smallest page (R414). -/
def pagesOf (va n : Nat) : List Nat := (List.range (n / 4096 + 2)).map (fun i => va / 4096 * 4096 + 4096 * i) |>.filter (fun p => p < va + n)

/-- Whether a core has translated a page, in its TLB or by a walk whose answer ended a hold. -/
def State.translated (s : State) (va : Nat) : Bool :=
  s.cc.tlb.any (fun e => e.asid == s.cf.asid && e.page == va / 2 ^ e.bits * 2 ^ e.bits)
    || (match s.cf.answer with | some l => l.contains (BitVec.ofNat 64 va) | none => false)

/-- `CFLUSH`, `CCLEAN` and `CINV` (R414, R416): checks, page walks, then one CMO for each line. -/
def State.cacheMaint (s : State) (k : CmoKind) (r : Bool) (h : HReg) (rs2 rs1 rd : Reg) : State :=
  let hd := s.cf.getH h
  let off := s.xr rs1
  let n := if r then (s.xr rs2).toNat else 1
  let st := k == .inv
  let kind : AccKind := if st then .store else .load
  let ev := evalAcc h st off
  if !r && rs2 != 0 then s.illegalC
  else if r && (n == 0 || n > 2 ^ 20) then s.raise 60 (s.evalCode 17)
  else if !hd.valid then s.raise 48 ev
  else if !(hd.space == 0 || hd.space == 1 || (isMemCore s.iss.ep && (hd.space == 2 || hd.space == 4))) then s.raise 26 ev
  else if hd.space != 2 then s.raise 60 (s.evalCode 16)
  else if !bitOf hd.w3 (if st then 1 else 0) then s.raise (if st then 7 else 5) ev
  else if st && bitOf hd.w3 4 && !hd.cap then s.raise 27 ev
  else if off.toNat + n > hd.bound.toNat then s.raise 25 ev
  else
    let va := hd.base.toNat + off.toNat
    match (pagesOf va n).find? (fun p => !s.translated p) with
    | some p => (s.hold .answer).later (.pageWalkDone s.iss.ep s.cf.asid p)
    | none =>
      let tr := fun (p : Nat) => (s.translate s.cc.tlb (epSlab s.iss.ep) s.cf.asid (Nat.max p va) (if st then .write else .read)).res
      let bad := (pagesOf va n).find? (fun p => match tr p with | .ok _ _ => false | _ => true)
      match bad with
      | some p => match kind, tr p with
        | .store, .pageFault => s.raise 15 (BitVec.ofNat 64 (Nat.max p va))
        | .store, _ => s.raise 7 (BitVec.ofNat 64 (Nat.max p va))
        | _, .pageFault => s.raise 13 (BitVec.ofNat 64 (Nat.max p va))
        | _, _ => s.raise 5 (BitVec.ofNat 64 (Nat.max p va))
      | none =>
        if s.det && rd != 0 then s.raise 51 0
        else s.withRoom (if rd == 0 then 0 else 1) 1 (fun s =>
          let s := s.modCf (fun f => { f with answer := none })
          let lineAt := fun (v : Nat) => match (s.translate s.cc.tlb (epSlab s.iss.ep) s.cf.asid v (if st then .write else .read)).res with
            | .ok pa _ => lineOf pa
            | _ => 0
          let lines := (List.range ((va + n - 1) / 128 - va / 128 + 1)).map (fun i => lineAt ((va / 128 + i) * 128))
          let (u, s) := s.newResult rd
          s.access (Target.mk 2 (homeOf (lines.headD 0)) (lines.headD 0) false false none) 0 u 0 (.cmo k lines 0) .rlx)

/-- `CFLUSH` (R415). -/
def execCflush (r : Bool) (h : HReg) (rs2 rs1 rd : Reg) (s : State) : Out := .next (s.cacheMaint .flush r h rs2 rs1 rd)
/-- `CCLEAN` (R415). -/
def execCclean (r : Bool) (h : HReg) (rs2 rs1 rd : Reg) (s : State) : Out := .next (s.cacheMaint .clean r h rs2 rs1 rd)
/-- `CINV` (R415). -/
def execCinv (r : Bool) (h : HReg) (rs2 rs1 rd : Reg) (s : State) : Out := .next (s.cacheMaint .inv r h rs2 rs1 rd)

/-- `PAGE_WALK_DONE` (R122): the walk's translation is cached, and the hold that waits for it ends. -/
def execPageWalkDone (ep : Nat) (asid : BitVec 16) (va : Nat) (s : State) : Out :=
  let w := s.walk (epSlab ep) asid va .read
  let s := s.noteWalk ep w asid
  let note := fun (f : Frame) => if f.hold == .answer && f.asid == asid && f.st != .free then
      { f with answer := some (f.answer.getD [] ++ [BitVec.ofNat 64 va]) } else f
  .next (s.modCore ep (fun c => { c with wins := c.wins.map note }))

/-- A CMO acknowledged (R414, R416): the instruction is performed when every line is. -/
def State.cmoAck (s : State) (ep id line : Nat) (dirty : Bool) : State :=
  let upd := fun (e : QEnt) => if e.id != id then e else match e.item with
    | .access a o => match a.op with
      | .cmo k l n => { e with item := .access { a with op := .cmo k (l.erase line) (if dirty then n + 1 else n) } o }
      | _ => e
    | _ => e
  let s := s.modCore ep (fun c => { c with oq := c.oq.map upd })
  match ((s.core ep).oq.find? (fun e => e.id == id)).bind QEnt.acc? with
  | some a => match a.op with
    | .cmo _ [] n => (s.performed ep id).complete a (toBytes 8 (Nat.min n (2 ^ 32 - 1))) false
    | _ => s
  | none => s

end Sys2Proof.Machine
end

