-- ==== Sys2Proof/Machine/LoadStore.lean ====
section
/-! DEFINITION. Loads, stores and prefetch (05_task_core.md R160-R165), atomics (R166-R170) and fences (R171-R173). -/

namespace Sys2Proof.Machine

/-- A load of one element into x[rd] (R161). A load into `x0` is a result too, which counts among the 16 of R46 and which W waits
for: R46 excepts only engine instructions with rd = 0 (DEDUCED; log entry 51). -/
def State.load1 (s : State) (signed : Bool) (h : HReg) (off : Word) (e : Nat) (rd : Reg) : State :=
  s.withRoom 1 1 (fun s => s.withCheck h off e e .load false (fun s t =>
    let (u, s) := s.addResult (if rd == 0 then .none else .x rd signed e) none (.word 0) 0 1
    s.access t 0 (some u) 0 (.load e) .rlx))

/-- `LDS` (R161). -/
def execLds (imm : BitVec 9) (h : HReg) (sz : BitVec 2) (rs1 rd : Reg) (s : State) : Out :=
  .next (s.load1 true h (s.cmOff imm rs1) (sizeBytes sz) rd)

/-- `LDZ` (R161). -/
def execLdz (imm : BitVec 9) (h : HReg) (sz : BitVec 2) (rs1 rd : Reg) (s : State) : Out :=
  .next (s.load1 false h (s.cmOff imm rs1) (sizeBytes sz) rd)

/-- `ST` (R161). -/
def execSt (imm : BitVec 9) (h : HReg) (sz : BitVec 2) (rs1 rd : Reg) (s : State) : Out :=
  let e := sizeBytes sz
  .next (s.withRoom 0 1 (fun s => s.withCheck h (s.cmOff imm rs1) e e .store false (fun t tg =>
    t.access tg 0 none 0 (.store (toBytes e (s.xr rd).toNat)) .rlx)))

/-- A pair access: the checks over both elements, then each element's own target (R161, R162, R164). -/
def State.pair (s : State) (h : HReg) (off : Word) (e : Nat) (k : AccKind) (go : State → Target → Target → State) : State :=
  s.withCheck h off (2 * e) e k false (fun s t1 =>
    if t1.space == 2 then s.withCheck h (off + BitVec.ofNat 64 e) e e k false (fun s t2 => go s t1 t2)
    else go s t1 { t1 with addr := t1.addr + e })

/-- `LDP` (R161): two results. -/
def execLdp (imm : BitVec 9) (h : HReg) (sz : BitVec 2) (rs1 rd : Reg) (s : State) : Out :=
  let e := sizeBytes sz
  .next (s.withRoom 2 1 (fun s => s.pair h (s.cmOff imm rs1) e .load (fun s t1 t2 =>
    let (u1, s) := s.addResult (if rd == 0 then .none else .x rd false e) none (.word 0) 0 1
    let (u2, s) := s.addResult (.x (rd + 1) false e) none (.word 0) 0 1
    let g := s.uid
    (s.accessG t1 0 (some u1) 0 (.load e) .rlx g true).accessG t2 0 (some u2) e (.load e) .rlx g false)))

/-- `STP` (R161): with rd = 0 both elements are zeros (log entry 60). A REMOTE pair is one STORE packet (R236), whose elements its port
performs in order (R162). -/
def execStp (imm : BitVec 9) (h : HReg) (sz : BitVec 2) (rs1 rd : Reg) (s : State) : Out :=
  let e := sizeBytes sz
  .next (s.withRoom 0 1 (fun s => s.pair h (s.cmOff imm rs1) e .store (fun t t1 t2 =>
    let g := t.uid
    let first := toBytes e (s.xr rd).toNat
    let second := toBytes e (if rd == 0 then 0 else (s.xr (rd + 1)).toNat)
    if t1.space == 1 then t.access t1 0 none e (.store (first ++ second)) .rlx
    else (t.accessG t1 0 none 0 (.store first) .rlx g true).accessG t2 0 none e (.store second) .rlx g false)))

/-- `PF` (R163): on a memory core, through a GLOBAL handle that passes the checks, an access of its kind that takes a queue entry (R172)
and asks for a line not held by an RdS; else nothing. -/
def execPf (imm : BitVec 9) (h : HReg) (rs1 : Reg) (s : State) : Out :=
  .next (match s.check s.det h (s.cmOff imm rs1) 1 1 .load false false [2] with
    | .fault _ _ => s
    | .ok t => s.withRoom 0 1 (fun s => (s.noteCheck t.walk).access t 0 none 0 .pf .rlx))

/-- An atomic on the word at x[rs1] (R166): its old value, sign-extended, or the chunk of an `AMOG`, goes to x[rd]. -/
def State.atomic (s : State) (d : Bool) (h : HReg) (rs1 rd : Reg) (ord : MemOrd) (fadd whole : Bool) (op : Nat → AccOp) :
    State :=
  let n := if d then 8 else 4
  s.withRoom 1 1 (fun s => s.withCheck h (s.xr rs1) n n .atomic fadd (fun s t =>
    let (u, s) := s.addResult (if rd == 0 then .none else .x rd true (if whole then 8 else n)) none (.word 0) 0 1
    s.access t 0 (some u) 0 (op n) ord))

/-- `AMO` (R167). -/
def execAmo (d : Bool) (op : AmoOp) (ord : MemOrd) (h : HReg) (rs2 rs1 rd : Reg) (s : State) : Out :=
  .next (s.atomic d h rs1 rd ord (op == .fadd) false (fun n => .amo op n (s.xr rs2)))

/-- `CAS` (R168). -/
def execCas (d : Bool) (ord : MemOrd) (h : HReg) (rs2 rs1 rd : Reg) (s : State) : Out :=
  .next (s.atomic d h rs1 rd ord false false (fun n => .cas n (s.xr rd) (s.xr rs2)))

/-- `AMOG` (R169). -/
def execAmog (d : Bool) (ord : MemOrd) (h : HReg) (rs2 rs1 rd : Reg) (s : State) : Out :=
  .next (s.atomic d h rs1 rd ord false true (fun n => .amog n (s.xr rs2)))

/-- `FENCE` (R171, R172): an entry of the queue that holds later accesses; it goes when no earlier access is left. -/
def execFence (scope : Scope) (kind : FenceKind) (s : State) : Out :=
  .next ({ s with uid := s.uid + 1 }.enqueue s.iss.ep (QEnt.mk s.uid s.cf.fid s.iss.win (.fence kind scope) false s.uid false))

end Sys2Proof.Machine
end

