-- ==== Sys2Proof/Machine/Release.lean ====
section
/-! DEFINITION. Releases, ready FIFOs and the start of tasks, ceilings, calls and monitors (06_frame_unit.md R189-R213, R220;
04_memory.md R140, R146). The end of frames is in Frames.lean. -/

namespace Sys2Proof.Machine

/-! ## Targets and scopes (R140, R202) -/

/-- The narrowest scope that contains two cores (R140). -/
def narrowScope (a b : Nat) : Scope :=
  if a == b then .core
  else if inScope .geode a b then .geode
  else if epSlab a == epSlab b then .slab
  else .module
/-- The wider of two scopes. -/
def widerScope (a b : Scope) : Scope := if scopeCode a < scopeCode b then b else a
/-- The scope of a release to its target (R140). -/
def relScope (r : Release) (src : Nat) : Scope :=
  match r.dstDev with
  | none => narrowScope src r.dst
  | some _ => .system

/-- The scope at which the completion of an operation that an agent starts is a release (R140, R141): the successor's placement. The
operation starts when the starter's earlier accesses at that scope, and at the one its request names, have been performed (log entry 64). -/
def succScope (src : Nat) (r : Option Release) : Scope :=
  match r with
  | some r => relScope r src
  | none => .core

/-- A target word read (R202): its core, and its device when it is another. -/
def State.targetWord (s : State) (t : Word) : Option (Nat × Option (BitVec 22)) :=
  let dev := BitVec.ofNat 22 (fld t 12 22)
  if !zeroField t 35 29 || (!bitOf t 34 && dev != 0) then none
  else some (fld t 0 12, if bitOf t 34 && !(s.didv && dev == s.devId) then some dev else none)

/-- The checks of `POST` on a target word (R203): not malformed, not a disabled or firewalled core, not a device without a
route. `fw` says whether a firewalled core is refused (R246). -/
def State.targetOk (s : State) (t : Word) (fw : Bool) : Option (Nat × Option (BitVec 22)) :=
  match s.targetWord t with
  | none => none
  | some (c, none) => if s.disabled c || (fw && !s.cf.fm && s.cc.firewalled c) then none else some (c, none)
  | some (c, some d) => if (s.fjPort d).isNone then none else some (c, some d)

/-! ## Naming a successor (R196, R199, R203, R306) -/

/-- Word `k` of record `i` of the issuing core, read in program order (R199). -/
def State.recWord (s : State) (i k : Nat) : Word := s.lmWordInOrder (0x7C000 + 64 * i + 8 * k)

/-- The release of record `i` of the issuing core to a target, its PRIO, ASID and GEN fixed now (R197, R199). -/
def State.mkRelease (s : State) (i : Nat) (dst : Nat) (dev : Option (BitVec 22)) : Release :=
  let w1 := s.recWord i 1
  let asid := if s.cf.fm then BitVec.ofNat 16 (fld w1 48 16) else s.cf.asid
  Release.mk s.srcDev s.iss.ep (BitVec.ofNat 8 i) dst dev (BitVec.ofNat 3 (fld (s.recWord i 0) 0 3)) asid
    (BitVec.ofNat 16 (fld w1 32 16)) 0 0 s.cf.fm

/-- What checking a successor comes to. -/
inductive SuccChk where
  | fault (cause : Nat) (value : Word)
  | ok (r : Release)
  deriving DecidableEq, Repr

/-- The checks of `POST` on a record and a target (R203): causes 54, 31, 52 and 55. -/
def State.postChecks (s : State) (i t : Word) : SuccChk :=
  if !zeroField i 8 56 then .fault 54 i
  else if s.cc.recbusy.getLsbD i.toNat then .fault 31 i
  else if !s.cf.fm && 6 ≤ fld (s.recWord i.toNat 0) 0 3 then .fault 52 i
  else match s.targetOk t true with
    | none => .fault 55 t
    | some (c, d) => .ok (s.mkRelease i.toNat c d)

/-- A record of the issuing core made busy, and its release counted in SENT; one to another device leaves the slot at once
(R196, R470). -/
def State.accept (s : State) (r : Release) : State :=
  let s := s.modCore s.iss.ep (fun c => { c with recbusy := c.recbusy ||| BitVec.ofNat 256 (2 ^ r.recIdx.toNat) })
  let s := s.countSent s.iss.ep r.asid
  if r.dstDev.isSome then s.countRecv s.iss.ep r.asid else s

/-- What checking a successor word comes to: NONE, a successor, or a fault. -/
inductive SuccWord where
  | bad
  | none
  | fault (cause : Nat) (value : Word)
  | ok (r : Release)
  deriving DecidableEq, Repr

/-- A successor word checked (R306): [63:56] record, [55] NONE, [54:35] zero, [34:0] target word. -/
def State.succWord (s : State) (w : Word) : SuccWord :=
  if !zeroField w 35 20 then .bad
  else if bitOf w 55 then (if zeroField w 56 8 && zeroField w 0 35 then .none else .bad)
  else match s.postChecks (BitVec.ofNat 64 (fld w 56 8)) (BitVec.ofNat 64 (fld w 0 35)) with
    | .fault c v => .fault c v
    | .ok r => .ok r

/-- The release a successor word names, if any. -/
def SuccWord.rel? : SuccWord → Option Release
  | .ok r => some r
  | _ => Option.none

/-- An operation accepted: its successor's record becomes busy. -/
def State.acceptSucc (s : State) (w : SuccWord) : State :=
  match w with
  | .ok r => s.accept r
  | _ => s

/-- A release with its status and detail, sent by the engine that ends an operation (R197, R198). -/
def relDone (r : Release) (status detail : Nat) : Release :=
  { r with status := BitVec.ofNat 16 status, detail := BitVec.ofNat 16 detail }
/-- The successor of an operation released by the engine at an endpoint, if it has one. -/
def State.releaseSucc (s : State) (ep : Nat) (r : Option Release) (status detail : Nat) : State :=
  match r with
  | none => s
  | some r => s.sendRelease ep (relDone r status detail)

/-- A host packet completed (R502, R504): its completion entry is written. -/
def State.hostDone (s : State) (h : Option (Nat × Nat)) (status detail : Nat) : State :=
  match h with
  | none => s
  | some (q, n) => s.send 0 s.fe.fecore (agentEp 0 0x81) (.completionWrite q n status detail)

/-! ## Release instructions (R203, R204, R210, R211, R220) -/

/-- `POST` (R203). -/
def execPost (rs2 rs1 : Reg) (s : State) : Out :=
  .next (match s.postChecks (s.xr rs1) (s.xr rs2) with
    | .fault c v => s.raise c v
    | .ok r => s.withRoom 0 1 (fun s => (s.accept r).releaseThen (relScope r s.iss.ep) [relEvent r]))

/-- The claims of a frame, top of the stack first (R204, R210). -/
def Core.claimsOf (c : Core) (w : Nat) : List Nat := (c.claims.filter (fun sl => fld (vget 0 c.ceiling sl) 8 3 == w)).reverse
/-- The resource id of a slot (R209). -/
def resourceId (ep sl : Nat) : Word := BitVec.ofNat 64 (ep * 64 + sl)

/-- The frame becomes ENDING and issues nothing more (R204). -/
def State.ending (s : State) : State := (s.modCf (fun f => { f with st := .ending })).later (.framePop s.iss.ep)

/-- OKIND of a frame's record (R195). -/
def Frame.okind (f : Frame) : Nat := fld (f.record.getD 1 0) 28 4
/-- OTAG of a frame's record (R195). -/
def Frame.otag (f : Frame) : Nat := fld (f.record.getD 1 0) 0 24
/-- The scope of a code (R53). -/
def scopeOfCode (n : Nat) : Scope :=
  match n with
  | 0 => .core | 1 => .geode | 2 => .slab | 3 => .module | _ => .system
/-- The join core and index of a frame with OKIND 3 (R461, R465); none with NJ, which is the child's own or, of a record that no
`SPAWN` built, an OTAG of all ones. -/
def Frame.joinOf (f : Frame) : Option (Nat × Nat) :=
  if f.okind == 3 && (if 8 ≤ f.jscope then f.jscope < 16 else f.otag % 2 ^ 18 != 2 ^ 18 - 1) then some (f.otag % 2 ^ 12, f.otag / 2 ^ 12 % 64) else none
/-- The scope of the release that ends a frame with no successor of its own: the node's completion scope (R439), the join's
(R465), else the module (R140). -/
def Frame.endScope (f : Frame) (ep : Nat) : Option Scope :=
  if f.okind == 2 then some (scopeOfCode (f.rel.detail.toNat % 8))
  else match f.joinOf with
    | some (core, _) => some (widerScope (scopeOfCode (f.jscope % 8)) (narrowScope ep core))
    | none => none

/-- `END` (R204). -/
def execEndTask (s : State) : Out :=
  .next (match s.cc.claimsOf s.iss.win with
    | sl :: _ => s.raise 30 (resourceId s.iss.ep sl)
    | [] => (s.releaseThen ((s.cf.endScope s.iss.ep).getD .module) []).ending)

/-- `ENDS` (R204). -/
def execEnds (rs2 rs1 : Reg) (s : State) : Out :=
  .next (match s.cc.claimsOf s.iss.win with
    | sl :: _ => s.raise 30 (resourceId s.iss.ep sl)
    | [] => match s.postChecks (s.xr rs1) (s.xr rs2) with
      | .fault c v => s.raise c v
      | .ok r => s.withRoom 0 1 (fun s =>
        let sc := widerScope (relScope r s.iss.ep) ((s.cf.endScope s.iss.ep).getD .core)
        ((s.accept r).releaseThen sc [relEvent r]).ending))

/-- `CLAIM` (R210). -/
def execClaim (rs1 : Reg) (s : State) : Out :=
  let r := s.xr rs1
  let sl := fld r 0 6
  let e := vget 0 s.cc.ceiling sl
  let f := s.cf
  let bad := !bitOf e 3 || BitVec.ofNat 16 (fld e 16 16) != f.asid || bitOf e 11 || fld e 0 3 < f.level.toNat
    || !bitOf (f.desc.getD 2 0) sl
  .next (if !zeroField r 19 45 then s.raise 29 r
    else if fld r 6 13 != s.iss.ep then s.raise 28 r
    else if bad then s.raise 29 r
    else s.modCore s.iss.ep (fun c => { c with
      ceiling := vset c.ceiling sl (setFld (setFld e 8 3 f.level.toNat) 11 1 1)
      claims := c.claims ++ [sl] }))

/-- `UNCLAIM` (R211): selection follows the lowered threshold. -/
def execUnclaim (rs1 : Reg) (s : State) : Out :=
  let r := s.xr rs1
  let sl := fld r 0 6
  let e := vget 0 s.cc.ceiling sl
  let top := s.cc.claims.getLast? == some sl && fld e 8 3 == s.iss.win
  .next (if !zeroField r 19 45 || fld r 6 13 != s.iss.ep then s.raise 28 r
    else if !top then s.raise 29 r
    else (s.modCore s.iss.ep (fun c => { c with
      ceiling := vset c.ceiling sl (setFld e 11 1 0)
      claims := c.claims.dropLast })).select s.iss.ep)

/-- `ECALL` (R220). -/
def execEcall (s : State) : Out := .next (s.raise (if s.cf.fm then 11 else 8) 0)
/-- `EBREAK` (R220). -/
def execEbreak (s : State) : Out := .next (s.raise 3 s.iss.pc)

/-- `WATCH` (R213): the arm request goes to the word's owning port. -/
def execWatch (h : HReg) (cond : WatchCond) (d : Bool) (rs2 rs1 rd : Reg) (s : State) : Out :=
  let i := s.xr rd
  let n := if d then 8 else 4
  .next (if !zeroField i 8 56 then s.raise 54 i
    else match s.check s.det h (s.xr rs1) n n .load true false [0, 1, 2] with
    | .fault c v => s.raise c v
    | .ok t =>
      if s.cc.recbusy.getLsbD i.toNat then s.raise 31 i
      else if !s.cf.fm && 6 ≤ fld (s.recWord i.toNat 0) 0 3 then s.raise 52 i
      else s.withRoom 0 1 (fun s =>
        let r := s.mkRelease i.toNat s.iss.ep none
        let q := ArmReq.mk t.owner t.space t.addr d cond (s.xr rs2) r
        ((s.noteCheck t.walk).accept r).releaseThen .core [(0, s.iss.ep, t.owner, .arm q)]))

/-! ## Ready FIFOs and rings (R205) -/

/-- ENTRIES of RINGCFG. -/
def Core.ringEntries (c : Core) : Nat := fld c.ringcfg 32 16
/-- The LM offset of slot `k` of a level's ring. -/
def Core.ringSlot (c : Core) (p k : Nat) : Nat := fld c.ringcfg 0 32 + (p * c.ringEntries + k) * 128
/-- Bytes 64 to 71 of an entry: the release fields as a flit holds them (R205, R235). -/
def relWord0 (r : Release) : Word :=
  BitVec.ofNat 64 (r.gen.toNat * 2 ^ 48 + r.status.toNat * 2 ^ 32 + r.detail.toNat * 2 ^ 16 + r.recIdx.toNat)
/-- Bytes 72 to 79 of an entry. -/
def relWord1 (r : Release) : Word :=
  BitVec.ofNat 64 (r.asid.toNat * 2 ^ 48 + r.prio.toNat * 2 ^ 36 + r.srcDev.toNat * 2 ^ 14 + r.srcEp)
/-- The words of an entry in the layout of R205. -/
def entryWords (e : Entry) : List Word :=
  (List.range 8).map (fun k => e.record.getD k 0)
    ++ [relWord0 e.rel, relWord1 e.rel, e.d0, e.d1, BitVec.ofNat 64 (e.descStat + 4 * e.lineStat), 0, 0, 0]
/-- An entry read back from its words; what the layout does not hold is kept (R205). -/
def entryOfWords (e : Entry) (ws : List Word) : Entry :=
  let w := fun (k : Nat) => ws.getD k 0
  { e with
    record := (List.range 8).map w
    rel := { e.rel with
      gen := BitVec.ofNat 16 (fld (w 8) 48 16), status := BitVec.ofNat 16 (fld (w 8) 32 16)
      detail := BitVec.ofNat 16 (fld (w 8) 16 16), recIdx := BitVec.ofNat 8 (fld (w 8) 0 8)
      asid := BitVec.ofNat 16 (fld (w 9) 48 16), prio := BitVec.ofNat 3 (fld (w 9) 36 3)
      srcDev := BitVec.ofNat 22 (fld (w 9) 14 22), srcEp := fld (w 9) 0 14 }
    d0 := w 10, d1 := w 11, descStat := fld (w 12) 0 2, lineStat := fld (w 12) 2 2 }

/-- Whether a level's FIFO and ring are full. -/
def Core.levelFull (c : Core) (p : Nat) : Bool :=
  c.ringEntries ≤ (vget [] c.ring p).length && (32 ≤ (vget [] c.fifo p).length || !(vget [] c.ring p).isEmpty)
/-- Whether any ring is full: the frame unit then takes no further release flits (R205). -/
def Core.ringFull (c : Core) : Bool := (List.range 8).any c.levelFull

/-- A release queued at its level: in the hardware FIFO, or in the overflow ring (R205). -/
def State.queueEntry (s : State) (ep : Nat) (e : Entry) : State :=
  let s := s.modSpawn ep (fun u => { u with attempts := 0, victims := u.victims.take 1 })
  let c := s.core ep
  let p := e.rel.prio.toNat
  let fifo := vget [] c.fifo p; let ring := vget [] c.ring p
  if ring.isEmpty && fifo.length < 32 then s.setCore ep { c with fifo := vset c.fifo p (fifo ++ [e]) }
  else
    let k := (vget 0 c.ringHead p + ring.length) % Nat.max 1 c.ringEntries
    let s := s.lmWrite ep (c.ringSlot p k) ((entryWords e).flatMap (fun w => toBytes 8 w.toNat))
    let s := s.modCore ep (fun c => { c with ring := vset c.ring p (ring ++ [e]) })
    if (s.core ep).levelFull p then s.out (.ringFull ep p) else s

/-! ## Arrival (R200) -/

/-- The code address of a record's descriptor (R195). -/
def kdescOf (w0 : Word) : Nat := fld w0 5 52 * 32
/-- The ENTRY of a descriptor (R194). -/
def entryOf (d0 : Word) : Nat := fld d0 3 54 * 8

/-- The descriptor and the entry line of a record, read for a task of an ASID at a core (R194, R200). -/
def State.readStart (s : State) (ep : Nat) (asid : BitVec 16) (w0 : Word) : (Nat × List Word × Nat) × State :=
  match s.codeRead ep asid (kdescOf w0) 4 with
  | (0, ws) =>
    let (k, s) := s.fillCode ep asid (entryOf (ws.getD 0 0))
    ((0, ws, k), s)
  | (k, _) => ((k, [], 0), s)

/-- A FIFO entry for a release whose record is held (R200). -/
def State.mkEntry (s : State) (ep : Nat) (r : Release) (words : List Word) (slot : Option (Nat × Nat))
    (reply : Option (BitVec 22 × Nat × Nat)) : Entry × State :=
  let ((st, d, ln), s) := s.readStart ep r.asid (words.getD 0 0)
  (Entry.mk r words (d.getD 0 0) (d.getD 1 0) (d.getD 2 0) (d.getD 3 0) st ln slot reply none 0 0, s)

/-- Whether a core refuses releases (R247): HALTED, VACATED without a forwarding entry, or disabled. -/
def Core.refuses (c : Core) : Bool := c.code == 4 || c.code == 5 || (c.code == 3 && !bitOf c.fwd 63)

/-- `RELEASE` (R200, R205, R247): the flit is held and its record pulled; a full ring lets it wait; a halted core refuses it. -/
def execRelease (r : Release) (s : State) : Out :=
  let c := s.core r.dst
  .next (if c.refuses then (s.countRecv r.dst r.asid).machineCheckOf r.srcDev r.srcEp 2
    else if c.ringFull then s.requeue 2 r.srcEp r.dst (.release r)
    else match r.dstDev with
      | none => s.send 0 r.dst r.srcEp (.pull r)
      | some _ => s.send 0 r.dst fjPlace (.fjarlinkPacket 31 (.pull r)))

/-- The words of the record that a release names (R146): of a core's record area, or of a graph engine's slot. -/
def State.pulled (s : State) (r : Release) : List Word :=
  if epClass r.srcEp == 3 then match (s.graphs.get Graph.reset (epSlab r.srcEp)).recs.find r.recIdx.toNat with
    | some e => e.words
    | none => []
  else (List.range 8).map (fun k => s.lmWord r.srcEp (0x7C000 + 64 * r.recIdx.toNat + 8 * k))
/-- The busy bit of a pulled record cleared (R200). -/
def State.unbusy (s : State) (r : Release) : State :=
  if epClass r.srcEp == 3 then
    let k := epSlab r.srcEp
    let g := s.graphs.get Graph.reset k
    let s := { s with graphs := s.graphs.put k { g with recs := g.recs.del r.recIdx.toNat } }
    if g.ready.isEmpty then s else s.later (.nodeFire k)
  else s.modCore r.srcEp (fun c => { c with recbusy := c.recbusy &&& ~~~(BitVec.ofNat 256 (2 ^ r.recIdx.toNat)) })

/-- Whether a source core refuses a pull: it is vacated and its forwarding entry cleared (R229). -/
def State.pullRefused (s : State) (r : Release) : Bool := epClass r.srcEp < 2 && (s.core r.srcEp).portRefuses
/-- `PULL` (R200, R236): the record is read at its source, its busy bit cleared, and the record sent. At a vacated core it is refused
(R229); a record word with an uncorrectable error is a machine check and a free value (R522; log entry 61). -/
def execPull (r : Release) (s : State) : Out :=
  if s.pullRefused r then .next (s.machineCheckOf (r.dstDev.getD s.srcDev) r.dst 2)
  else
    let bad := epClass r.srcEp < 2 && s.lmBad r.srcEp (0x7C000 + 64 * r.recIdx.toNat) 64
    let ws := if bad then (List.range 8).map (fun k => Config.freeWord (s.fv + k)) else s.pulled r
    let s := if bad then { s.machineCheck r.srcEp 7 with fv := s.fv + 8 } else s
    let s := s.unbusy r
    .next (match r.dstDev with
      | none => s.send 1 r.srcEp r.dst (.record r ws)
      | some _ => s.send 1 r.srcEp fjPlace (.fjarlinkPacket 31 (.record r ws)))

/-- `RECORD` (R200): the descriptor and the entry line are read; the release has arrived. -/
def execRecord (r : Release) (words : List Word) (s : State) : Out :=
  let (e, s) := s.mkEntry r.dst r words none none
  .next (s.later (.releaseArrival r.dst e))

/-- The next responder's release of a census port arrives after one that has (R345: ascending entry order, one a cycle). -/
def State.nextSpawned (s : State) (ep : Nat) (e : Entry) : State :=
  if e.census.isNone then s
  else
    let l := (s.core ep).census.spawned.drop 1
    let s := s.modCore ep (fun c => { c with census := { c.census with spawned := l } })
    match l with
    | [] => s
    | n :: _ => s.later (.releaseArrival ep n)

/-- `RELEASE_ARRIVAL` (R200, R206): counted, queued at its level, and selected when it is above the threshold. -/
def execReleaseArrival (ep : Nat) (e : Entry) (s : State) : Out :=
  .next (if (s.core ep).levelFull e.rel.prio.toNat then s.later (.releaseArrival ep e)
    else
      let s := if e.rel.srcDev == s.srcDev && e.slot.isNone && e.census.isNone then s.countRecv ep e.rel.asid else s
      ((s.queueEntry ep e).select ep).nextSpawned ep e)

/-! ## The push (R191, R192, R208, R215) -/

/-- SPBASE, SPLIMIT and TRAPSEG. -/
def Core.spBase (c : Core) : Nat := fld c.spregion 0 32
/-- SPLIMIT. -/
def Core.spLimit (c : Core) : Nat := fld c.spregion 32 32
/-- TRAPSEG. -/
def Core.trapSeg (c : Core) : Nat := c.trapseg.toNat
/-- The end of the topmost live frame's segment below window `w`, or SPBASE (R191). -/
def Core.segTop (c : Core) (w : Nat) : Nat :=
  match c.below w with
  | none => c.spBase
  | some k => (c.win k).segEnd

/-- The fault a start finds, the first in the order of R215. A record whose OKIND is a reserved code, 5 to 15, counts as one with a
reserved field set: the spec names no other check of OKIND (DEDUCED; log entry 53). -/
def startFault (e : Entry) (segEnd limit : Nat) : Option (Nat × Nat) :=
  let w0 := e.record.getD 0 0; let w1 := e.record.getD 1 0
  let k := kdescOf w0
  let lanes := fld e.d1 32 9; let frame := fld e.d1 0 19
  let p := e.rel.prio.toNat
  if !zeroField w0 57 7 || !zeroField w0 3 2 || !zeroField w1 24 4 || 5 ≤ fld w1 28 4 then some (54, k)
  else if e.descStat != 0 then some (if e.descStat == 1 then 12 else 1, k)
  else if !zeroField e.d0 57 7 || !zeroField e.d1 41 23 || !zeroField e.d1 19 13 || lanes > 256 || frame % 64 != 0
      || frame > 0x40000 || e.d3 != 0 then some (54, k)
  else if p != fld e.d0 0 3 || (6 ≤ p && e.rel.asid != 0) || (p < 6 && e.rel.asid == 0) then some (52, k)
  else if e.lineStat != 0 then some (if e.lineStat == 1 then 12 else 1, entryOf e.d0)
  else if segEnd > limit then some (53, segEnd)
  else none

/-- The `x` registers of a started task (R192). -/
def startX (e : Entry) (frame : Nat) : Vector Word 32 :=
  let args := (List.range 6).foldl (fun v k => vset v (10 + k) (e.record.getD (2 + k) 0)) (Vector.replicate 32 0)
  let x16 := BitVec.ofNat 64 (e.rel.gen.toNat * 2 ^ 48 + e.rel.detail.toNat * 2 ^ 16 + e.rel.status.toNat)
  let x17 := BitVec.ofNat 64 (e.rel.srcDev.toNat * 2 ^ 14 + e.rel.srcEp)
  vset (vset (vset args 2 (BitVec.ofNat 64 frame)) 16 x16) 17 x17

/-- A started frame (R191, R192, R215). One whose end would pass the limit holds no segment, so the trap frame above it fits (R191). -/
def startFrame (e : Entry) (base limit fid : Nat) : Frame :=
  let frame := fld e.d1 0 19; let lanes := fld e.d1 32 9
  let segEnd := base + frame + 128 * lanes
  let flt := startFault e segEnd limit
  { Frame.free with
    st := if flt.isSome then .faulting else .running
    fid := fid
    pc := BitVec.ofNat 64 (entryOf e.d0)
    x := startX e frame
    h := vset (vset (Vector.replicate 8 Handle.empty) 0 handleH0) 1 (handleH1 base frame)
    level := e.rel.prio
    asid := e.rel.asid
    rel := e.rel
    record := e.record
    desc := [e.d0, e.d1, e.d2, e.d3]
    descStat := e.descStat
    lineStat := e.lineStat
    segBase := base
    segEnd := if limit < segEnd then base else segEnd
    pending := flt.map (fun p => PFault.mk (BitVec.ofNat 6 p.1) (BitVec.ofNat 64 p.2) 0 true)
    slot := e.slot
    reply := e.reply
    responder := e.census.map (fun c => Responder.mk c.1 (c.2 % 128) (c.2 / 128) false)
    path := e.path
    jscope := e.jscope }

/-- A frame left by a push above: it becomes PREEMPTED and remembers its state; the entries of its read streams beyond the
heads are dropped (R224, R285). -/
def Frame.preempt (f : Frame) : Frame :=
  { f with
    st := .preempted
    remembered := f.st
    streams := f.streams.map (fun t => if t.bound && !t.write then { t with buf := t.buf.take 1 } else t) }

/-- The top frame of a core pre-empted. -/
def State.preemptTop (s : State) (ep : Nat) : State :=
  match (s.core ep).top with
  | none => s
  | some w => s.modFrame ep w Frame.preempt

/-- A deque entry's descriptor and entry line read as it is started (R458). -/
def State.readEntry (s : State) (ep : Nat) (e : Entry) : Entry × State :=
  let ((st, d, ln), s) := s.readStart ep e.rel.asid (e.record.getD 0 0)
  ({ e with d0 := d.getD 0 0, d1 := d.getD 1 0, d2 := d.getD 2 0, d3 := d.getD 3 0, descStat := st, lineStat := ln }, s)

/-- `FRAME_PUSH` (R208): the selected release's frame is pushed, and selection goes on. Its first bundle issues after an acquire, which on
a memory core leaves no answered snoop unapplied (R140, R144). -/
def execFramePush (ep : Nat) (s : State) : Out :=
  let c := s.core ep
  .next (match c.push with
    | [] => s
    | e :: rest =>
      if c.code != 0 then s
      else
        let p := e.rel.prio.toNat
        let (e, s) := if e.descStat == 3 then s.readEntry ep e else (e, s)
        let base := c.segTop p
        let f := startFrame e base (c.spLimit - c.trapSeg) s.uid
        let s := ((if isMemCore ep then s.applyAll ep else s).preemptTop ep).modCore ep (fun c => { c with push := rest })
        let s := { s.setFrame ep p f with uid := s.uid + 1 }
        let s := if f.st == .faulting then s.later (.trapEntry ep) else s
        s.select ep)

end Sys2Proof.Machine
end

