-- ==== Sys2Proof/Machine/Matrix.lean ====
section
/-! DEFINITION. The matrix array and mica: slots, accumulator sets, gangs, passes and drains (09_matrix_array.md R302-R334;
03_numbers.md R100-R105), and the bedrock groups its loads read (11_copy_engines.md R383-R387). -/

namespace Sys2Proof.Machine

/-- A result of the issuing frame answered. -/
def State.answerCf (s : State) (u : Option Nat) (v : Word) : State := s.answerWord s.iss.ep s.iss.win s.cf.fid u v

/-! ## Bedrock groups (R383-R387) -/

/-- A bedrock group of a slab. -/
def State.group (s : State) (sl g : Nat) : BGroup := (s.slab sl).groups.get BGroup.reset g
/-- The state with one group changed. -/
def State.modGroup (s : State) (sl g : Nat) (k : BGroup → BGroup) : State :=
  s.modSlab sl (fun b => { b with groups := b.groups.put g (k (b.groups.get BGroup.reset g)) })
/-- The groups that `n` bytes of bedrock from an offset on touch. -/
def groupsTouched (off n : Nat) : List Nat := (List.range 16).filter (fun g => off < (g + 1) * 2 ^ 28 && g * 2 ^ 28 < off + n)
/-- Whether a group is in its refresh window at a schedule time, counted in units of 10 ns (R387). -/
def inWindow (sched g : Nat) : Bool := 250 * g ≤ sched % 4000 && sched % 4000 < 250 * g + 32
/-- `REFRESH_WINDOW` (R387): the schedule moves on by its unit of 10 ns; a window begins or ends where its phase reaches the edge. -/
def execRefreshWindow (s : State) : Out := .next { s with sched := s.sched + 1 }
/-- A group that may move on does: SEALING with no transfer left, OPENING with no load left (R384). -/
def State.groupKick (s : State) (sl g : Nat) : State :=
  let b := s.group sl g
  if b.disabled then s
  else if b.st == 1 && b.begun == 0 then s.laterOnce (.groupSealed sl g)
  else if b.st == 3 && b.loads == 0 then s.laterOnce (.groupOpened sl g)
  else s

/-! ## Words and formats (R302, R303, R313-R315) -/

/-- Bytes of an A row of a core (ARB, R302). -/
def arb (a : Nat) : Nat :=
  match a with
  | 0 => 32 | 1 => 34 | 2 => 26 | 3 => 36 | _ => 32
/-- Bytes of a column of B (CB, R303). -/
def cb (b : Nat) : Nat :=
  match b with
  | 0 => 256 | 1 => 272 | 2 => 208 | 3 => 288 | _ => 256
/-- Whether a pair of formats may be combined (R302). -/
def pairOk (a b : Nat) : Bool :=
  match a with
  | 0 => b == 0
  | 1 => b == 1 || b == 2
  | 2 => b == 1 || b == 2
  | 3 => b == 3
  | 4 => b == 4
  | _ => false
/-- The element size of an output format (R313). -/
def outSize (o : Nat) : Nat :=
  match o with
  | 0 => 4 | 1 => 2 | 2 => 2 | 3 => 4 | _ => 1

/-- SLOT of a pass word (R315). -/
def pwSlot (w : Word) : Nat := fld w 0 7
/-- SET of a pass word. -/
def pwSet (w : Word) : Nat := fld w 7 2
/-- ROW0 of a pass word. -/
def pwRow0 (w : Word) : Nat := fld w 9 7
/-- M of a pass word. -/
def pwM (w : Word) : Nat := fld w 16 7 + 1
/-- AFMT of a pass word. -/
def pwA (w : Word) : Nat := fld w 24 3
/-- BFMT of a pass word. -/
def pwB (w : Word) : Nat := fld w 27 3
/-- Whether a pass word breaks the rules (R315); `b` says whether BFMT is used. -/
def pwBad (w : Word) (b : Bool) : Bool :=
  !zeroField w 30 34 || !zeroField w 23 1 || 5 ≤ pwA w || 5 ≤ pwB w || pwRow0 w + pwM w > 128 || (b && !pairOk (pwA w) (pwB w))

/-- AOFF of a pass descriptor (R313). -/
def mdA (d : List Word) : Nat := fld (d.getD 0 0) 0 19
/-- COFF of a pass descriptor. -/
def mdC (d : List Word) : Nat := fld (d.getD 0 0) 32 19
/-- ASTRIDE of a pass descriptor. -/
def mdAs (d : List Word) : Nat := fld (d.getD 1 0) 0 16
/-- CSTRIDE of a pass descriptor. -/
def mdCs (d : List Word) : Nat := fld (d.getD 1 0) 16 16
/-- OFMT of a pass descriptor. -/
def mdO (d : List Word) : Nat := fld (d.getD 1 0) 32 3
/-- Whether a pass descriptor keeps the table of R313. -/
def mdOk (d : List Word) : Bool :=
  zeroField (d.getD 0 0) 51 13 && zeroField (d.getD 0 0) 19 13 && mdA d % 2 == 0 && zeroField (d.getD 1 0) 35 29 && mdO d < 5
    && mdCs d % outSize (mdO d) == 0 && mdAs d % 2 == 0 && mdC d % outSize (mdO d) == 0 && d.getD 2 0 == 0 && d.getD 3 0 == 0

/-- The end of the A region (R316). -/
def aEnd (d : List Word) (w : Word) : Nat := mdA d + (pwM w - 1) * mdAs d + arb (pwA w)
/-- The bytes of a C row (CRB, R314). -/
def crb (d : List Word) : Nat := 8 * outSize (mdO d)
/-- The end of the C region (R316). -/
def cEnd (d : List Word) (w : Word) : Nat := mdC d + (pwM w - 1) * mdCs d + crb d
/-- Whether the A region keeps its limits (R316). -/
def aOk (d : List Word) (w : Word) : Bool := arb (pwA w) ≤ mdAs d && aEnd d w ≤ 0x74000
/-- Whether the C region keeps its limits (R316). -/
def cOk (d : List Word) (w : Word) : Bool := crb d ≤ mdCs d && cEnd d w ≤ 0x74000
/-- Whether the spans of A and C overlap (R316). -/
def acOverlap (d : List Word) (w : Word) : Bool := mdC d < aEnd d w && mdA d < cEnd d w

/-! ## The array -/

/-- A geode's array. -/
def State.arr (s : State) (g : Nat) : MArray := (s.geode g).array
/-- The state with a geode's array changed. -/
def State.modArr (s : State) (g : Nat) (k : MArray → MArray) : State := s.modGeode g (fun x => { x with array := k x.array })
/-- The array of the issuing core. -/
def State.ca (s : State) : MArray := s.arr (epGeode s.iss.ep)

/-- A set. -/
def MArray.set (a : MArray) (k : Nat) : AccSet := vget AccSet.freeSet a.sets k
/-- The array with a set changed. -/
def MArray.modSet (a : MArray) (k : Nat) (f : AccSet → AccSet) : MArray := { a with sets := vset a.sets k (f (a.set k)) }
/-- A slot. -/
def MArray.slot (a : MArray) (k : Nat) : Slot := a.slots.get Slot.empty k
/-- The array with a slot changed. -/
def MArray.modSlot (a : MArray) (k : Nat) (f : Slot → Slot) : MArray := { a with slots := a.slots.put k (f (a.slot k)) }
/-- The place of an accumulator element. -/
def accKey (set row col : Nat) : Nat := (128 * set + row) * 64 + col
/-- An accumulator element. -/
def MArray.elem (a : MArray) (set row col : Nat) : Nat := (a.acc.get 0 (accKey set row col)).toNat
/-- The array with an accumulator element changed by a step; elements equal to 0 are not listed. -/
def MArray.stepTo (a : MArray) (set row col : Nat) (v : Nat) : MArray :=
  { a with acc := if v % 2 ^ 32 == 0 then a.acc.del (accKey set row col) else a.acc.put (accKey set row col) (BitVec.ofNat 32 v) }
/-- The array with an accumulator element written anew, without an error. -/
def MArray.putElem (a : MArray) (set row col : Nat) (v : Nat) : MArray :=
  { a.stepTo set row col v with accBad := a.accBad.filter (fun k => k != accKey set row col) }

/-- The pass word of a pass. -/
def Pass.word (p : Pass) : Word := match p.members with | m :: _ => m.word | [] => 0
/-- The priority of a pass. -/
def Pass.prio (p : Pass) : Nat := match p.members with | m :: _ => m.level.toNat | [] => 0
/-- The steps of a pass (R321). -/
def Pass.steps (p : Pass) : Nat := if pwA p.word == 3 then 16 else 8
/-- The core that supplies a step. -/
def Pass.stepCore (p : Pass) (j : Nat) : Nat := if pwA p.word == 3 then j / 2 else j
/-- The next step of an enabled slice from step `j` on (R105, R321). -/
def Pass.stepFrom (p : Pass) (j : Nat) : Nat :=
  ((List.range p.steps).find? (fun k => j ≤ k && p.mask.getLsbD (p.stepCore k))).getD p.steps
/-- Whether a pass has still to finish its last step. -/
def Pass.stepping (p : Pass) : Bool := p.state ≤ 4
/-- Whether a pass includes a slice of a set. -/
def Pass.uses (p : Pass) (set core : Nat) : Bool := pwSet p.word == set && p.mask.getLsbD core
/-- Whether a drain job includes a slice of a set. -/
def DrainJob.uses (d : DrainJob) (set core : Nat) : Bool := d.members.any (fun m => pwSet m.word == set && m.core == core)
/-- The drains not yet done. -/
def MArray.allDrains (a : MArray) : List DrainJob := a.drains ++ a.dready ++ a.draining.toList

/-- The readers of a slot as a place in the work order sees them (R309). -/
def MArray.readers (a : MArray) (slot before : Nat) : List Pass :=
  a.passes.filter (fun p => p.stepping && pwSlot p.word == slot && p.pid < before)
/-- The state code of a slot (R309). -/
def MArray.slotState (a : MArray) (k : Nat) : Nat :=
  let t := a.slot k
  match t.loads with
  | l :: _ => if t.loads.length == 1 && (a.readers k l.seq).isEmpty then 1 else 2
  | [] => if t.full then 3 else 0
/-- The loads LOADING or LOADPEND in the geode (R308). -/
def MArray.loadCount (a : MArray) : Nat := a.slots.foldl (fun n p => n + p.2.loads.length) 0
/-- Whether a load accepted before a pass's formation is unfinished. -/
def MArray.loadBefore (a : MArray) (p : Pass) : Bool := (a.slot (pwSlot p.word)).loads.any (fun l => l.seq < p.pid)

/-- Whether an earlier pass, drain or zeroing on a slice of a set is unfinished (R328). -/
def MArray.earlier (a : MArray) (seq set core : Nat) : Bool :=
  a.passes.any (fun p => p.pid < seq && p.stepping && p.uses set core)
    || a.allDrains.any (fun d => d.seq < seq && d.uses set core)
    || a.zeros.any (fun z => z.seq < seq && pwSet z.word == set && z.core == core)
/-- Whether a pass may run its next step: its slot is READY, the work before it on its slices is done (R320, R328), and so are the accesses
that its members' starts cover (R141). R320 lets a pass wait
while its slot is LOADPEND, and R309 lets the load wait behind every pass formed before it; a pass formed before the waiting load is
chosen, as R309 has it, or neither would ever go on (DEDUCED; log entry 58). -/
def MArray.choosable (a : MArray) (p : Pass) : Bool :=
  (p.state == 1 || p.state == 4) && !a.loadBefore p && p.members.all (fun m => m.arrived)
    && !(List.range 8).any (fun c => p.mask.getLsbD c && a.earlier p.pid (pwSet p.word) c)
/-- The better of two passes: the higher priority, then the earlier (R320). -/
def betterPass (a b : Pass) : Pass := if a.prio > b.prio || (a.prio == b.prio && a.pid < b.pid) then a else b
/-- The pass that R320 chooses. -/
def MArray.choose (a : MArray) : Option Pass :=
  match a.passes.filter a.choosable with
  | [] => none
  | p :: l => some (l.foldl betterPass p)
/-- The pass that occupies the array. -/
def MArray.running (a : MArray) : Option Pass := a.passes.find? (fun p => p.state == 2 || p.state == 3)
/-- The array with a pass changed. -/
def MArray.modPass (a : MArray) (pid : Nat) (k : Pass → Pass) : MArray := { a with passes := a.passes.map (fun q => if q.pid == pid then k q else q) }
/-- The array with a pass replaced. -/
def MArray.putPass (a : MArray) (p : Pass) : MArray := { a with passes := a.passes.map (fun q => if q.pid == p.pid then p else q) }
/-- The array with a pass DONE, counted as completed (R333). -/
def MArray.donePass (a : MArray) (pid : Nat) : MArray :=
  { a with
    passes := a.passes.map (fun q => if q.pid == pid then { q with state := 6 } else q), passcnt := (a.passcnt + 1) % 2 ^ 64 }
/-- The array without its DONE passes, whose successors' releases have been sent: their entries are FREE (R333). -/
def MArray.freeDone (a : MArray) : MArray := { a with passes := a.passes.filter (fun q => q.state != 6) }
/-- The formed passes queued, as `MSTAT` and QSTAT count them: every entry that is not FREE (R320, R332, R334; DESIGN CHOICE, log
entry 59). -/
def MArray.queuedPasses (a : MArray) : Nat := a.passes.length
/-- The drains queued: those that the drain unit has not taken yet (R323, R332, R334). -/
def MArray.queuedDrains (a : MArray) : Nat := a.drains.length + a.dready.length

/-! ## Order of work (R307, R328) -/

/-- A zeroing performed (R312). -/
def MArray.zero (a : MArray) (z : ZeroJob) : MArray :=
  let set := pwSet z.word
  let bit := BitVec.ofNat 8 (2 ^ z.core)
  let rows := (List.range (pwM z.word)).map (fun r => pwRow0 z.word + r)
  let a := rows.foldl (fun a r => (List.range 8).foldl (fun a j => a.putElem set r (8 * z.core + j) 0) a) a
  a.modSet set (fun e =>
    let live := if z.free then e.live &&& ~~~bit else e.live ||| bit
    { e with
      flags := vset e.flags z.core 0
      i32 := if pwA z.word == 4 then e.i32 ||| bit else e.i32 &&& ~~~bit
      live := live
      tag := if live == 0 then none else some (e.tag.getD z.tag) })

/-- The zeroings whose turn has come are performed, and their results answered (R312). -/
def State.runZeros (s : State) (g : Nat) : Nat → State
  | 0 => s
  | n + 1 =>
    let a := s.arr g
    match a.zeros.find? (fun z => !a.earlier z.seq (pwSet z.word) z.core) with
    | none => s
    | some z =>
      let s := s.modArr g (fun a => ({ a with zeros := a.zeros.filter (fun y => y.seq != z.seq) } : MArray).zero z)
      (s.answerWord z.ep z.win z.fid z.uid 0).runZeros g n

/-- The agent of a geode, its array and census combiner, as the network sees it; no endpoint number of R16 (log entry 63). -/
def geodeEp (g : Nat) : Nat := 28672 + g
/-- A member's end (R326, R438): its successor is released, or, with NONE in a gang node's member, its done message sent. -/
def memberEnd (s : State) (ep : Nat) (m : Registration) (status detail : Nat) : State :=
  match m.succ, m.fire with
  | none, some f => s.send 0 ep f.engine (.nodeDone f ep status detail)
  | r, _ => s.releaseSucc (geodeEp (epGeode ep)) r status detail

/-- Every member of a pass ends with one status and the detail's flags zero (R320, R326); one whose start's accesses are not all performed
ends when they are (R141). -/
def releaseMembers (s : State) (g : Nat) (l : List Registration) (status detail : Nat) : State :=
  l.foldl (fun t m => if m.arrived then memberEnd t (8 * g + m.core) m status detail
    else t.modArr g (fun a => { a with ends := a.ends ++ [(m, status, detail)] })) s

/-- Passes whose slot is EMPTY, with no earlier load to come, end with NOSLOT (R320). -/
def State.dropNoSlot (s : State) (g : Nat) : Nat → State
  | 0 => s
  | n + 1 =>
    let a := s.arr g
    match a.passes.find? (fun p => p.state == 1 && !a.loadBefore p && !(a.slot (pwSlot p.word)).full) with
    | none => s
    | some p => ((releaseMembers (s.modArr g (fun a => a.donePass p.pid)) g p.members 16 0).laterOnce (.gangFormation g none)).dropNoSlot g n

/-- The `MDRAIN`s whose turn has come become ready (R323): every pass formed before one on its slice has finished its last step, and no
`MDRAIN` before it on that slice has still to become ready. Zeroings before it wait for nothing that the drain unit serves after it. -/
def MArray.readyDrains (a : MArray) : MArray :=
  let behind := fun (d : DrainJob) (m : Registration) =>
    a.passes.any (fun p => p.pid < d.seq && p.stepping && p.uses (pwSet m.word) m.core)
      || a.drains.any (fun e => e.seq < d.seq && e.uses (pwSet m.word) m.core && !e.members.all (fun m => m.arrived))
  let ok := fun (d : DrainJob) => d.members.all (fun m => m.arrived && !behind d m)
  { a with dready := a.dready ++ a.drains.filter ok, drains := a.drains.filter (fun d => !ok d) }

/-- The members of the gang that can form at a priority (R317): each enabled core's oldest registration of the priority. -/
def MArray.formable (a : MArray) (p : Nat) : Option (List Registration) :=
  let cores := (List.range 8).filter (fun c => a.cmask.getLsbD c)
  let oldest := cores.map (fun c => a.regs.find? (fun r => r.core == c && r.level.toNat == p))
  if cores.isEmpty || a.passes.length ≥ 8 || oldest.any (fun o => o.isNone) then none
  else some (oldest.filterMap (fun o => o))
/-- The highest priority at which a gang can form, with its members. -/
def MArray.gang (a : MArray) : Option (List Registration) :=
  ((List.range 8).reverse.map a.formable).findSome? (fun o => o)

/-- What can go on in an array is begun: zeroings, NOSLOT ends, drains, slot loads, formation, the next pass. -/
def State.arrayKick (s : State) (g : Nat) : State :=
  let s := s.runZeros g ((s.arr g).zeros.length + 1)
  let s := s.dropNoSlot g 9
  let s := s.modArr g MArray.readyDrains
  let a := s.arr g
  let s := if a.draining.isNone && !a.dready.isEmpty then s.laterOnce (.drainJobStart g) else s
  let s := if a.running.isNone && a.choose.isSome then s.laterOnce (.passStart g) else s
  let s := if a.gang.isSome then s.laterOnce (.gangFormation g none) else s
  a.slots.foldl (fun t p => match p.2.loads with
    | l :: _ =>
      if !l.ready || !(a.readers p.1 l.seq).isEmpty then t
      else match l.src with
        | .copy e tid => t.laterOnce (.transferBegin e tid)
        | _ => t.laterOnce (.slotLoadDone g p.1 l.seq)
    | [] => t) s

/-! ## Checks of the instructions (R304-R306) -/

/-- Cause 58 with a code (R305). -/
def State.raise58 (s : State) (code : Nat) : State := s.raise 58 (s.evalCode code)
/-- Whether there is no array for the issuing frame (R305). -/
def State.noArray (s : State) : Bool := isMemCore s.iss.ep || (!s.cf.fm && s.firmware s.iss.ep)
/-- The slice of the issuing core. -/
def State.slice (s : State) : Nat := s.iss.ep % 8
/-- Whether the issuing core's slice is enabled. -/
def State.sliceOn (s : State) : Bool := s.ca.cmask.getLsbD s.slice
/-- Whether a set is tagged for the issuing frame. -/
def State.myTag (s : State) (e : AccSet) : Bool := e.tag == some (s.cf.level, s.cf.asid)
/-- Whether a slice is live, and whether it is I32, once the core's earlier instructions have taken effect (R307). -/
def MArray.sliceView (a : MArray) (set core : Nat) : Bool × Bool :=
  let e := a.set set
  let zs := (a.zeros.filter (fun z => pwSet z.word == set && z.core == core)).map (fun z => (z.seq, !z.free, some (pwA z.word == 4)))
  let ds := (a.allDrains.filter (fun d => d.free && d.uses set core)).map (fun d => (d.seq, false, (none : Option Bool)))
  (sortBy (fun p => p.1) (zs ++ ds)).foldl (fun v p => (p.2.1, p.2.2.getD v.2)) (e.live.getLsbD core, e.i32.getLsbD core)
/-- The next place in a geode's work order. -/
def State.nextSeq (s : State) (g : Nat) : Nat × State := ((s.arr g).seq, s.modArr g (fun a => { a with seq := a.seq + 1 }))

/-- `MCFG` (R313). -/
def execMcfg (rs1 : Reg) (s : State) : Out :=
  let o := s.xr rs1
  let d := (List.range 4).map (fun k => s.lmWordInOrder (o.toNat + 8 * k))
  .next (if s.noArray then s.raise58 0
    else if o.toNat % 8 != 0 || o.toNat + 32 > 0x80000 then s.raise58 1
    else if !mdOk d then s.raise58 1
    else s.modCf (fun f => { f with mdesc := some d }))

/-- Where an `MBLD` reads from: the checks of R120 that R308 lists, as a load with element size 2. -/
def State.loadSource (s : State) (hn : HReg) (off : Word) (n : Nat) : Sum LoadSrc (Nat × Word) :=
  let h := s.cf.getH hn
  let ev := evalAcc hn false off
  let a := h.base.toNat + off.toNat
  if !h.valid then .inr (48, ev)
  else if h.space != 0 && !(h.space == 3 && h.base.toNat / 2 ^ 32 == epSlab s.iss.ep) then .inr (26, ev)
  else if !bitOf h.w3 0 then .inr (5, ev)
  else if bitOf h.w3 5 then .inr (49, ev)
  else if off.toNat + n > h.bound.toNat then .inr (25, ev)
  else if a % 2 != 0 then .inr (4, ev)
  else .inl (if h.space == 0 then .lm s.iss.ep a else .bedrock (a % 2 ^ 32))

/-- `MBLD` (R308). -/
def execMbld (rs2 rs1 rd : Reg) (s : State) : Out :=
  let o := s.xr rs2
  let w0 := s.lmWordInOrder o.toNat
  let w1 := s.lmWordInOrder (o.toNat + 8)
  let b := fld w1 8 3
  let g := epGeode s.iss.ep
  .next (if s.noArray then s.raise58 0
    else if o.toNat % 8 != 0 || o.toNat + 16 > 0x80000 then s.raise58 1
    else if !zeroField w1 23 41 || !zeroField w1 11 5 || !zeroField w1 3 5 || 5 ≤ b then s.raise58 1
    else match s.loadSource (BitVec.ofNat 3 (fld w1 0 3)) w0 (64 * cb b) with
    | .inr (c, v) => s.raise c v
    | .inl src => match s.succWord (s.xr rs1) with
      | .bad => s.raise58 3
      | .fault c v => s.raise c v
      | sw =>
        if s.det && rd != 0 then s.raise 51 0
        else if 4 ≤ s.ca.loadCount then
          (if rd == 0 then s.raise58 9 else s.withRoom 1 0 (fun s => let (u, s) := s.newResult rd; s.answerCf u 1))
        else
          let near : Scope := match src with | .bedrock _ => .module | _ => .core
          let sc := widerScope near (succScope s.iss.ep sw.rel?)
          s.withRoom (if rd == 0 then 0 else 1) 1 (fun s =>
          let s := s.acceptSucc sw
          let (q, s) := s.nextSeq g
          let k := fld w1 16 7
          let l := SlotLoad.mk q b src sw.rel? false false
          let s := s.modArr g (fun a => a.modSlot k (fun t => { t with loads := t.loads ++ [l] }))
          let (u, s) := s.newResult rd
          (s.answerCf u 0).releaseThen sc [(4, 0, 0, .slotLoadDone g k q)]))

/-- `MZERO` (R312). -/
def execMzero (q : Bool) (rs1 rd : Reg) (s : State) : Out :=
  let w := s.xr rs1
  let g := epGeode s.iss.ep
  let e := s.ca.set (pwSet w)
  .next (if s.noArray then s.raise58 0
    else if pwBad w false || pwSlot w != 0 || pwB w != 0 then s.raise58 3
    else if !s.sliceOn then s.raise58 7
    else if e.tag.isSome && !s.myTag e then s.raise58 5
    else if s.det && rd != 0 then s.raise 51 0
    else s.withRoom (if rd == 0 then 0 else 1) 0 (fun s =>
      let (u, s) := s.newResult rd
      let (n, s) := s.nextSeq g
      let tag := (s.cf.level, s.cf.asid)
      let z := ZeroJob.mk n s.slice w tag q s.iss.ep s.iss.win s.cf.fid u
      (s.modArr g (fun a => { (a.modSet (pwSet w) (fun e => { e with tag := some tag })) with zeros := a.zeros ++ [z] })).arrayKick g))

/-- The firing of a gang node whose member the issuing frame is (R438). -/
def State.gangFire (s : State) : Option Firing :=
  let f := s.cf
  let x := firingOf f.rel f.otag
  if f.okind == 2 && (s.inst x.slot).gen == x.gen && (s.inst x.slot).kind x.node == 2 then some x else none
/-- The registration of the issuing core for a pass or a drain. -/
def State.mkReg (s : State) (seq : Nat) (w : Word) (d : List Word) (q : Bool) (scale : Half) (succ : Option Release) : Registration :=
  Registration.mk seq s.slice w d s.cf.level s.cf.asid q scale succ s.iss.win s.cf.fid false s.gangFire
/-- With NONE the array sends a gang member's done message, and its frame's pop sends none (R438). -/
def State.noteArray (s : State) (succ : Option Release) : State :=
  if succ.isNone && s.gangFire.isSome then s.modCf (fun f => { f with arrayDone := true }) else s
/-- The nodes whose gang has formed are never ended by the watchdog (R445). -/
def State.noteFormed (s : State) (ms : List Registration) : State :=
  ms.foldl (fun t m => match m.fire with
    | none => t
    | some f => t.modInst f.slot (fun i => match i.nodes.find f.node with
      | some e => if i.gen == f.gen && e.tries == f.tries then { i with nodes := i.nodes.put f.node { e with formed := true } } else i
      | none => i)) s

/-- A gang formed: one pass, or a mismatch that releases every member with STATUS 17 (R317). -/
def State.form (s : State) (g : Nat) (ms : List Registration) : State :=
  let s := s.modArr g (fun a => { a with regs := a.regs.filter (fun r => !(ms.any (fun m => m.seq == r.seq))) })
  match ms with
  | [] => s
  | m :: l =>
    if l.all (fun r => r.word == m.word && r.asid == m.asid) then
      let (q, s) := s.nextSeq g
      let a := s.arr g
      let e := ((List.range 8).find? (fun k => !a.passes.any (fun p => p.entry == k))).getD 0
      (s.noteFormed ms).modArr g (fun a => { a with passes := a.passes ++ [Pass.mk q e 1 a.cmask 0 ms false] })
    else releaseMembers s g ms 17 0
/-- The highest gang that can form does (R317). -/
def State.formGang (s : State) (g : Nat) : State := match (s.arr g).gang with | none => s | some ms => s.form g ms
/-- The scope at which an `MGANG` starts: its own (core, R316), widened by what its end releases, its successor or, with NONE in a gang node's
member, the node's completion scope (R140, R141, R438). -/
def State.gangScope (s : State) (succ : Option Release) : Scope :=
  match succ with
  | some r => relScope r s.iss.ep
  | none => if s.gangFire.isSome then (s.cf.endScope s.iss.ep).getD .core else .core

/-- `MGANG` (R316): the registration takes its place in the work order as it issues (R307), and a gang that it completes forms then
(R317). -/
def execMgang (rs3 : Reg) (q : Bool) (rs2 rs1 rd : Reg) (s : State) : Out :=
  let w := s.xr rs2
  let g := epGeode s.iss.ep
  .next (if s.noArray then s.raise58 0
    else match s.cf.mdesc with
    | none => s.raise58 2
    | some d =>
      if pwBad w true then s.raise58 3
      else match s.succWord (s.xr rs1) with
      | .bad => s.raise58 3
      | .fault c v => s.raise c v
      | sw =>
        let v := s.ca.sliceView (pwSet w) s.slice
        if !s.sliceOn then s.raise58 7
        else if !s.myTag (s.ca.set (pwSet w)) || !v.1 then s.raise58 5
        else if (pwA w == 4) != v.2 then s.raise58 6
        else if !aOk d w || (q && (!cOk d w || acOverlap d w)) then s.raise58 4
        else if s.det && rd != 0 then s.raise 51 0
        else if 4 ≤ (s.ca.regs.filter (fun r => r.core == s.slice)).length then
          (if rd == 0 then s.raise58 9 else s.withRoom 1 0 (fun s => let (u, s) := s.newResult rd; s.answerCf u 1))
        else
          let sc := s.gangScope sw.rel?
          s.withRoom (if rd == 0 then 0 else 1) 1 (fun s =>
          let s := s.acceptSucc sw
          let (n, s) := s.nextSeq g
          let r := s.mkReg n w d q (if q then (s.fr rs3).setWidth 32 else 0) sw.rel?
          let s := (s.modArr g (fun a => { a with regs := a.regs ++ [r] })).formGang g
          let (u, s) := s.newResult rd
          ((s.answerCf u 0).noteArray sw.rel?).releaseThen sc [(4, 0, 0, .gangFormation g (some n))]))

/-- `MDRAIN` (R324), whose request names no scope and is a module release (R141). -/
def execMdrain (rs3 : Reg) (q : Bool) (rs2 rs1 rd : Reg) (s : State) : Out :=
  let w := s.xr rs2
  let g := epGeode s.iss.ep
  .next (if s.noArray then s.raise58 0
    else match s.cf.mdesc with
    | none => s.raise58 2
    | some d =>
      if pwBad w false || pwA w != 0 || pwB w != 0 || pwSlot w != 0 then s.raise58 3
      else match s.succWord (s.xr rs1) with
      | .bad => s.raise58 3
      | .fault c v => s.raise c v
      | sw =>
        if !s.sliceOn then s.raise58 7
        else if !s.myTag (s.ca.set (pwSet w)) || !(s.ca.sliceView (pwSet w) s.slice).1 then s.raise58 5
        else if !cOk d w then s.raise58 4
        else if s.det && rd != 0 then s.raise 51 0
        else if 8 ≤ s.ca.queuedDrains then
          (if rd == 0 then s.raise58 9 else s.withRoom 1 0 (fun s => let (u, s) := s.newResult rd; s.answerCf u 1))
        else
          let sc := widerScope .module (succScope s.iss.ep sw.rel?)
          s.withRoom (if rd == 0 then 0 else 1) 1 (fun s =>
          let s := s.acceptSucc sw
          let (n, s) := s.nextSeq g
          let r := s.mkReg n w d true ((s.fr rs3).setWidth 32) sw.rel?
          let s := s.modArr g (fun a => { a with drains := a.drains ++ [DrainJob.mk n none a.cmask q [r]] })
          let (u, s) := s.newResult rd
          ((s.answerCf u 0).noteArray sw.rel?).releaseThen sc [(4, 0, 0, .gangFormation g (some n))]))

/-- `MSTAT` (R332). -/
def execMstat (rs1 rd : Reg) (s : State) : Out :=
  let x := s.xr rs1
  let sel := fld x 0 4
  let a := s.ca
  let setBits := fun (k : Nat) =>
    let e := a.set k
    bitNat e.tag.isNone * 8 + bitNat (s.myTag e) * 4 + bitNat (e.live.getLsbD s.slice) * 2 + bitNat (e.i32.getLsbD s.slice)
  let k := fld x 8 7
  let v := match sel with
    | 0 => a.cmask.toNat
    | 1 => setBits 0 + 16 * setBits 1 + 256 * setBits 2 + 4096 * setBits 3
    | 2 => a.slotState k + 256 * (a.readers k a.seq).length
    | _ => (a.regs.filter (fun r => r.core == s.slice)).length + 256 * a.queuedPasses + 2 ^ 16 * a.queuedDrains
  .next (if s.noArray then s.raise58 0
    else if 4 ≤ sel || !zeroField x 15 49 || !zeroField x 4 4 || (sel != 2 && !zeroField x 8 7) then s.raise58 1
    else if s.det && sel != 0 then s.raise 51 0
    else s.withRoom (if rd == 0 then 0 else 1) 0 (fun s =>
      let (u, s) := s.newResult rd
      s.answerCf u (BitVec.ofNat 64 v)))

/-- Unformed registrations withdrawn, their successors released (R319, R329, R330). -/
def State.withdraw (s : State) (g : Nat) (l : List Registration) : State :=
  let s := s.modArr g (fun a => { a with regs := a.regs.filter (fun r => !(l.any (fun q => q.seq == r.seq))) })
  releaseMembers s g l 1 0

/-- `MCANCEL` (R319). -/
def execMcancel (rs1 rd : Reg) (s : State) : Out :=
  let x := s.xr rs1
  let p := fld x 0 3
  let asid := if s.cf.fm then BitVec.ofNat 16 (fld x 16 16) else s.cf.asid
  let g := epGeode s.iss.ep
  let hit := (List.range 8).filterMap (fun c =>
    s.ca.regs.find? (fun r => r.core == c && r.level.toNat == p && r.asid == asid))
  .next (if s.noArray then s.raise58 0
    else if !zeroField x 32 32 || !zeroField x 3 13 || (!s.cf.fm && 6 ≤ p) then s.raise58 1
    else if s.det then s.raise 51 0
    else s.withRoom (if rd == 0 then 0 else 1) 0 (fun s =>
      let (u, s) := s.newResult rd
      ((s.withdraw g hit).answerCf u (BitVec.ofNat 64 hit.length)).arrayKick g))

/-! ## Slot loads (R308-R310) -/

/-- A slot load ended: the slot becomes READY, or EMPTY when it failed; its successor is released. -/
def State.slotEnd (s : State) (g k seq : Nat) (ok : Bool) (status detail : Nat) : State :=
  match (s.arr g).slot k |>.loads.find? (fun l => l.seq == seq) with
  | none => s
  | some l =>
    let s := s.modArr g (fun a => a.modSlot k (fun t =>
      { full := ok, bfmt := if ok then l.bfmt else t.bfmt, loads := t.loads.filter (fun x => x.seq != seq) }))
    (s.releaseSucc (geodeEp g) l.rel status detail).arrayKick g

/-- Column bytes written to a slot: column `n` of the source at `512 n` (R303, R308). -/
def State.slotStore (s : State) (g k b : Nat) (bytes : List Byte) : State :=
  (List.range 64).foldl (fun t n => t.poke (micaKey g (k * 0x8000 + 512 * n)) ((bytes.drop (cb b * n)).take (cb b))) s

/-- The groups a started load reads change their count of readers. -/
def State.countLoads (s : State) (sl : Nat) (gs : List Nat) (up : Bool) : State :=
  gs.foldl (fun t g => (t.modGroup sl g (fun b => { b with loads := if up then b.loads + 1 else b.loads - 1 })).groupKick sl g) s

/-- `SLOT_LOAD_DONE` (R308, R309, R386): when its turn has come, and no refresh window holds it, a load writes its columns; the
slot becomes READY. An uncorrectable error in its data fails the load with DETAIL 1, a bedrock group that is not SEALED with 2. -/
def execSlotLoadDone (g slot seq : Nat) (s : State) : Out :=
  let s := s.modArr g (fun a => a.modSlot slot (fun t =>
    { t with loads := t.loads.map (fun l => if l.seq == seq then { l with ready := true } else l) }))
  let a := s.arr g
  .next (match (a.slot slot).loads with
    | [] => s
    | l :: _ =>
      if l.seq != seq || !(a.readers slot seq).isEmpty then s
      else
        let n := 64 * cb l.bfmt
        match l.src with
        | .copy _ _ => s
        | .lm core off =>
          if s.lmBad core off n then (s.machineCheck core 7).slotEnd g slot seq false 2 1
          else (s.slotStore g slot l.bfmt (s.lmRead core off n)).slotEnd g slot seq true 0 0
        | .bedrock off =>
          let sl := g / 128
          let gs := groupsTouched off n
          if !l.started then
            if gs.any (fun k => (s.group sl k).st != 2) then s.slotEnd g slot seq false 2 2
            else
              let s := s.modArr g (fun a => a.modSlot slot (fun t =>
                { t with full := false, loads := t.loads.map (fun x => if x.seq == seq then { x with started := true } else x) }))
              (s.countLoads sl gs true).later (.slotLoadDone g slot seq)
          else if gs.any (inWindow s.sched) then (s.laterOnce .refreshWindow).later (.slotLoadDone g slot seq)
          else if memBad s.bad (bedKey sl off) n then (s.countLoads sl gs false).slotEnd g slot seq false 2 1
          else ((s.slotStore g slot l.bfmt (memRead s.mem (bedKey sl off) n)).countLoads sl gs false).slotEnd g slot seq true 0 0)

/-! ## Gangs and passes (R317-R322, R333) -/

/-- `GANG_FORMATION` (R317, R333): entries that are DONE become FREE; the accesses that the start of a registration or drain covers have been
performed, and the member ends now if it already had; the highest gang that can form does. -/
def execGangFormation (g : Nat) (seq : Option Nat) (s : State) : Out :=
  let here := fun (r : Registration) => if some r.seq == seq then { r with arrived := true } else r
  let s := s.modArr g (fun a => { a.freeDone with
    regs := a.regs.map here, drains := a.drains.map (fun d => { d with members := d.members.map here })
    passes := a.freeDone.passes.map (fun p => { p with members := p.members.map here }) })
  let owed := (s.arr g).ends.filter (fun e => some e.1.seq == seq)
  let s := s.modArr g (fun a => { a with ends := a.ends.filter (fun e => some e.1.seq != seq) })
  .next ((owed.foldl (fun t e => memberEnd t (8 * g + e.1.core) e.1 e.2.1 e.2.2) s).formGang g |>.arrayKick g)

/-- `PASS_START` (R320): the chosen pass begins, or, its slot holding another format, ends with NOSLOT. -/
def execPassStart (g : Nat) (s : State) : Out :=
  let a := s.arr g
  .next (match a.running, a.choose with
    | none, some p =>
      if p.state == 1 && (a.slot (pwSlot p.word)).bfmt != pwB p.word then
        ((releaseMembers (s.modArr g (fun a => a.donePass p.pid)) g p.members 16 0).laterOnce (.gangFormation g none)).arrayKick g
      else (s.modArr g (fun a => a.putPass { p with state := 2 })).laterOnce (.passStep g)
    | _, _ => s)

/-- The values of step `j`'s share of an A row or B column (R302, R303): `which` is the block within the bytes. -/
def bxTagOf (code : Nat) : Tag := match code with | 1 => .bx8 | 2 => .bx6 | _ => .bx4
/-- The 32 values of block `k` in a row or column of a BX format. -/
def bxVals (code : Nat) (bytes : List Byte) (k : Nat) : List FVal :=
  let t := bxTagOf code
  let blk := (bytes.drop (bxBytes t * k)).take (bxBytes t)
  (List.range 32).map (bxVal t blk)
/-- The 16 values of BF16 from element `k` on. -/
def bf16Vals (bytes : List Byte) (k : Nat) : List FVal :=
  (List.range 16).map (fun i => Fmt.bf16.decode (ofBytes ((bytes.drop (2 * (k + i))).take 2)))
/-- 32 values of INT8 from element `k` on. -/
def i8Vals (bytes : List Byte) (k : Nat) : List Int := (List.range 32).map (fun i => (bytes.getD (k + i) 0).toInt)

/-- One step on one accumulator element (R100-R102): `row` is the core's A row, `col` the B column, `j` the step. -/
def stepElem (a b j c : Nat) (row col : List Byte) : Nat × FlagSet :=
  match a with
  | 4 =>
    let sum := ((i8Vals row 0).zip (i8Vals col (32 * j))).foldl (fun t p => t + p.1 * p.2) 0
    narrow true true 32 ((BitVec.ofNat 32 c).toInt + sum)
  | 0 =>
    let (t, f1) := dotRound .f32 0 ((bf16Vals row 0).zip (bf16Vals col (16 * j))) []
    let (v, f2) := fAdd .f32 0 c t
    (v, f1 ||| f2)
  | _ =>
    let (t, f1) := dotRound .f32 0 ((bxVals a row (if a == 3 then j % 2 else 0)).zip (bxVals b col j)) []
    let (v, f2) := fAdd .f32 0 c t
    (v, f1 ||| f2)

/-- Bytes that the array reads, and whether a word of them holds an uncorrectable error: their value is then free (R522). -/
def State.arrayRead (s : State) (key n : Nat) : List Byte × Bool × State :=
  if memBad s.bad key n then let (b, s) := s.freeBytes n; (b, true, s) else (memRead s.mem key n, false, s)
/-- The bytes of several places that the array reads, each with its number. -/
def State.arrayReads (s : State) (n : Nat) : List (Nat × Nat) → List (Nat × List Byte) × Bool × State
  | [] => ([], false, s)
  | (i, key) :: l =>
    let (b, x, s) := s.arrayRead key n
    let (r, y, s) := s.arrayReads n l
    ((i, b) :: r, x || y, s)

/-- One step of a pass over all its rows and enabled slices (R321). An uncorrectable error in B marks the pass (R522). -/
def State.stepAll (s : State) (g : Nat) (p : Pass) (j : Nat) : State :=
  let w := p.word
  let src := p.stepCore j
  match p.members.find? (fun m => m.core == src) with
  | none => s
  | some m =>
    let (cols, bad, s) := s.arrayReads (cb (pwB w)) (((List.range 64).filter (fun n => p.mask.getLsbD (n / 8))).map (fun n =>
      (n, micaKey g (pwSlot w * 0x8000 + 512 * n))))
    let (rows, _, s) := s.arrayReads (arb (pwA w)) ((List.range (pwM w)).map (fun r =>
      (pwRow0 w + r, lmKey (8 * g + src) (mdA m.desc + r * mdAs m.desc))))
    let one := fun (a : MArray) (r : Nat × List Byte) (c : Nat × List Byte) =>
      let (v, fl) := stepElem (pwA w) (pwB w) j (a.elem (pwSet w) r.1 c.1) r.2 c.2
      let a := a.stepTo (pwSet w) r.1 c.1 v
      if fl == 0 then a else a.modSet (pwSet w) (fun e => { e with flags := vset e.flags (c.1 / 8) (vget 0 e.flags (c.1 / 8) ||| fl) })
    s.modArr g (fun a => (rows.foldl (fun a r => cols.foldl (fun a c => one a r c) a) a).modPass p.pid (fun q => { q with bad := q.bad || bad }))

/-- STATUS and DETAIL of a member's release (R326, R522): a pass that met an error in the mica store says so. -/
def Pass.outcome (p : Pass) (flags : Nat) : Nat × Nat := if p.bad then (2, 0xE200) else (0, p.mask.toNat * 256 + flags)
/-- The last step of a pass ends (R323, R326, R333): members without a drain are released; the others form one drain job. -/
def State.lastStep (s : State) (g : Nat) (p : Pass) : State :=
  let (ds, rest) := (p.members.filter (fun m => m.q), p.members.filter (fun m => !m.q))
  let s := releaseMembers s g rest (p.outcome 0).1 (p.outcome 0).2
  if ds.isEmpty then (s.modArr g (fun a => a.donePass p.pid)).laterOnce (.gangFormation g none)
  else s.modArr g (fun a => { (a.putPass { p with state := 5, step := p.steps }) with
    dready := a.dready ++ [DrainJob.mk p.pid (some p.pid) p.mask false ds] })

/-- `PASS_STEP` (R321, R322): the next step of the running pass; at its end the pass finishes, is pre-empted by a higher pass
that is choosable, or goes on. -/
def execPassStep (g : Nat) (s : State) : Out :=
  .next (match (s.arr g).running with
    | none => s
    | some p =>
      let j := p.stepFrom p.step
      let s := if j < p.steps then s.stepAll g p j else s
      let p := { ((s.arr g).passes.find? (fun q => q.pid == p.pid)).getD p with state := 3, step := j + 1 }
      if p.stepFrom p.step ≥ p.steps then (s.lastStep g p).arrayKick g
      else
        let s := s.modArr g (fun a => a.putPass p)
        match (s.arr g).choose with
        | some h =>
          if h.prio > p.prio then
            (s.modArr g (fun a => { (a.putPass { p with state := 4 }) with preemptcnt := (a.preemptcnt + 1) % 2 ^ 64 })).arrayKick g
          else s.laterOnce (.passStep g)
        | none => s.laterOnce (.passStep g))

/-! ## Drains (R323-R326; R104) -/

/-- One accumulator element converted (R104): the bytes of the output format, and the flags. -/
def drainElem (i32 : Bool) (ofmt : Nat) (c : Nat) (scale : Half) : Nat × FlagSet :=
  let x : FVal := if i32 then finOfInt (BitVec.ofNat 32 c).toInt 0 false else Fmt.f32.decode c
  let y := Fmt.f32.decode scale.toNat
  let fp := fun (f : Fmt) => dotRound f 0 [(x, y)] []
  let int := fun (n : Nat) =>
    let (v, inv) := mulVal x y
    let (r, fl) := valToInt 0 true n v
    ((r % 2 ^ n).toNat, fl ||| nvFlag (inv || x.isSig || y.isSig))
  match ofmt with
  | 0 => fp .f32
  | 1 => fp .bf16
  | 2 => fp .f16
  | 3 => int 32
  | _ => int 8

/-- One slice drained: its C rows written in ascending order (R314, R323); the flags of the conversion. An element with an uncorrectable
error drains as the canonical NaN (R522). -/
def State.drainSlice (s : State) (g : Nat) (m : Registration) : State × FlagSet :=
  let a := s.arr g
  let set := pwSet m.word
  let o := mdO m.desc
  let i32 := (a.set set).i32.getLsbD m.core
  let elem := fun (row col : Nat) =>
    if a.accBad.contains (accKey set row col) then drainElem false o Fmt.f32.nan m.scale else drainElem i32 o (a.elem set row col) m.scale
  let row := fun (r : Nat) => (List.range 8).map (fun j => elem (pwRow0 m.word + r) (8 * m.core + j))
  (List.range (pwM m.word)).foldl (fun (p : State × FlagSet) r =>
    let es := row r
    (p.1.lmWrite (8 * g + m.core) (mdC m.desc + mdCs m.desc * r) (es.flatMap (fun e => toBytes (outSize o) e.1)),
      es.foldl (fun f e => f ||| e.2) p.2)) (s, 0)

/-- The flags of a drain delivered (R325): to the frame that asked, when it is live, and to the geode's STICKY. -/
def State.drainFlags (s : State) (g : Nat) (m : Registration) (fl : FlagSet) : State :=
  let ep := 8 * g + m.core
  let f := s.frame ep m.win
  if f.fid == m.fid && f.st != .free && f.st != .lost then (s.flagsMeet ep m.win fl).accrueFlags ep m.win fl
  else s.modGeode g (fun x => { x with sticky := x.sticky ||| fl })

/-- `DRAIN_JOB_START` (R323): the drain unit takes the next job. -/
def execDrainJobStart (g : Nat) (s : State) : Out :=
  let a := s.arr g
  .next (match a.draining, a.dready with
    | none, d :: l => (s.modArr g (fun a => { a with draining := some d, dready := l })).laterOnce (.drainJobDone g)
    | _, _ => s)

/-- Whether a drain meets an element with an uncorrectable error (R522). -/
def MArray.drainBad (a : MArray) (m : Registration) : Bool :=
  (List.range (pwM m.word)).any (fun r => (List.range 8).any (fun j => a.accBad.contains (accKey (pwSet m.word) (pwRow0 m.word + r) (8 * m.core + j))))
/-- One slice of a drain job (R323-R326, R522): its columns written, its flags delivered and cleared, and with `.f` the slice freed. -/
def State.drainMember (s : State) (g : Nat) (d : DrainJob) (m : Registration) : State :=
  let bad := (s.arr g).drainBad m
  let pass := d.pid.bind (fun p => (s.arr g).passes.find? (fun q => q.pid == p))
  let (s, fl) := s.drainSlice g m
  let set := pwSet m.word
  let all := fl ||| vget 0 ((s.arr g).set set).flags m.core
  let s := s.modArr g (fun a => a.modSet set (fun e =>
    let live := if d.free then e.live &&& ~~~(BitVec.ofNat 8 (2 ^ m.core)) else e.live
    { e with flags := vset e.flags m.core 0, live := live, tag := if live == 0 then none else e.tag }))
  let out := if bad then (2, 0xE100) else match pass with
    | some p => p.outcome all.toNat
    | none => (0, d.mask.toNat * 256 + all.toNat)
  memberEnd (s.drainFlags g m all) (8 * g + m.core) m out.1 out.2

/-- `DRAIN_JOB_DONE` (R323-R326): every slice of the job is written, its flags delivered and cleared, its successor released. -/
def execDrainJobDone (g : Nat) (s : State) : Out :=
  .next (match (s.arr g).draining with
    | none => s
    | some d =>
      let s := d.members.foldl (fun t m => t.drainMember g d m) s
      let s := s.modArr g (fun a => { a with draining := none })
      let s := match d.pid with | some p => (s.modArr g (fun a => a.donePass p)).laterOnce (.gangFormation g none) | none => s
      s.arrayKick g)

end Sys2Proof.Machine
end

