-- ==== Sys2Proof/Machine/Census.lean ====
section
/-! DEFINITION. The census network: tiles, solicits, responders, combining, tile moves and barriers (10_census.md R335-R365). -/

namespace Sys2Proof.Machine

/-- Cause 59 with a code (R336). -/
def State.raise59 (s : State) (code : Nat) : State := s.raise 59 (s.evalCode code)
/-- The census port of a core. -/
def State.port (s : State) (ep : Nat) : CensusPort := (s.core ep).census
/-- The state with a census port changed. -/
def State.modPort (s : State) (ep : Nat) (k : CensusPort → CensusPort) : State := s.modCore ep (fun c => { c with census := k c.census })
/-- The state with a tile entry changed. -/
def State.modTile (s : State) (ep n : Nat) (k : Tile → Tile) : State :=
  s.modPort ep (fun p => match p.dir.find n with | some t => { p with dir := p.dir.put n (k t) } | none => p)
/-- The module census root (R16). -/
def censusRoot : Nat := agentEp 0 3
/-- The state with the module root changed. -/
def State.modRoot (s : State) (k : CensusRoot → CensusRoot) : State := { s with census := k s.census }
/-- A node of the census tree: geode 0 to 511, slab root 512 to 515, module root 516. -/
def State.node (s : State) (n : Nat) : Combiner := s.nodes.get Combiner.reset n
/-- The state with a node changed. -/
def State.modNode (s : State) (n : Nat) (k : Combiner → Combiner) : State := { s with nodes := s.nodes.put n (k (s.node n)) }

/-! ## Folding (R348-R350) -/

/-- One word folded (R348). -/
def foldWord (op a b : Nat) : Nat × FlagSet :=
  let ia := (BitVec.ofNat 32 a).toInt; let ib := (BitVec.ofNat 32 b).toInt
  match op with
  | 1 => fAdd .f32 0 a b
  | 2 => narrow true true 32 (ia + ib)
  | 3 => fMinMax .f32 true a b
  | 4 => fMinMax .f32 false a b
  | 5 => (if ia < ib then b else a, 0)
  | 6 => (if ib < ia then b else a, 0)
  | 7 => (Nat.max a b, 0)
  | 8 => (Nat.min a b, 0)
  | _ => (a, 0)

/-- Two log-sum-exp payloads folded (R349). -/
def foldLse (a b : List Nat) : List Nat × FlagSet :=
  let ma := a.headD 0; let mb := b.headD 0
  let (m, f0) := fMinMax .f32 true ma mb
  let (da, f1) := fSub .f32 0 ma m
  let (db, f2) := fSub .f32 0 mb m
  let (wa, f3) := fExp2 0 da
  let (wb, f4) := fExp2 0 db
  let dec := fun (x : Nat) => Fmt.f32.decode x
  let rest := ((a.drop 1).zip (b.drop 1)).map (fun p => dotRound .f32 0 [(dec p.1, dec wa), (dec p.2, dec wb)] [])
  (m :: rest.map Prod.fst, rest.foldl (fun f p => f ||| p.2) (f0 ||| f1 ||| f2 ||| f3 ||| f4))

/-- Two payloads folded, the earlier first (R348). -/
def foldPay (op : Nat) (a b : List Half) : List Half × FlagSet :=
  let x := a.map BitVec.toNat; let y := b.map BitVec.toNat
  let (r, f) := if op == 9 then foldLse x y
    else
      let z := (x.zip y).map (fun p => foldWord op p.1 p.2)
      (z.map Prod.fst, z.foldl (fun f p => f ||| p.2) 0)
  (r.map (BitVec.ofNat 32), f)

/-- Answers folded in order (R350): counts summed, flags ORed, the payloads of those with responders folded. -/
def foldAnswers (op : Nat) (l : List Answer) : Answer :=
  let sum := fun (k : Answer → Nat) => l.foldl (fun n a => n + k a) 0
  let flags := l.foldl (fun f a => f ||| a.flags) 0
  match l.filter (fun a => a.nresp > 0) with
  | [] => Answer.mk 0 (sum Answer.nmiss) (sum Answer.nfault) flags []
  | a :: r =>
    let (p, f) := r.foldl (fun (p : List Half × FlagSet) b => let (q, g) := foldPay op p.1 b.payload; (q, p.2 ||| g)) (a.payload, flags)
    Answer.mk (sum Answer.nresp) (sum Answer.nmiss) (sum Answer.nfault) f p

/-- The completion of a graph node's firing (R437). -/
def State.fireDone (s : State) (src : Nat) (f : Option Firing) (status detail : Nat) : State :=
  match f with
  | none => s
  | some f => s.send 0 src f.engine (.firingCompletion f status detail)

/-! ## Solicit blocks (R341) -/

/-- SCOPE of a census. -/
def solScope (w : List Word) : Nat := fld (w.getD 2 0) 0 3
/-- OP. -/
def solOp (w : List Word) : Nat := fld (w.getD 2 0) 4 4
/-- P. -/
def solP (w : List Word) : Nat := fld (w.getD 2 0) 8 7
/-- NDEV; a census that came over Fjarlink lists none here. -/
def solNdev (w : List Word) : Nat := fld (w.getD 2 0) 16 8
/-- ROFF. -/
def solRoff (w : List Word) : Nat := fld (w.getD 2 0) 32 19
/-- SCORE. -/
def solScore (w : List Word) : Nat := fld (w.getD 3 0) 0 12
/-- The half that lists device `k`. -/
def solHalf (w : List Word) (k : Nat) : Nat := fld (w.getD (5 + k / 2) 0) (32 * (k % 2)) 32
/-- The devices listed. -/
def solDevs (w : List Word) : List (BitVec 22) := (List.range (Nat.min 6 (solNdev w))).map (fun k => BitVec.ofNat 22 (solHalf w k))
/-- Whether the reserved fields of a block are zero. -/
def solReservedOk (w : List Word) : Bool :=
  let w2 := w.getD 2 0
  zeroField w2 51 13 && zeroField w2 24 8 && zeroField w2 15 1 && zeroField w2 3 1 && zeroField (w.getD 3 0) 12 52
    && (List.range 6).all (fun k => if k < solNdev w then solHalf w k < 2 ^ 22 else solHalf w k == 0)
/-- Whether the values of a block are in range. -/
def State.solOk (s : State) (w : List Word) : Bool :=
  let ds := solDevs w
  let sc := solScope w; let op := solOp w; let p := solP w
  1 ≤ sc && sc ≤ 3 && op ≤ 9 && p ≤ 120 && !(op == 0 && p != 0) && !(op == 9 && p < 3) && solNdev w ≤ 6
    && (solNdev w == 0 || sc == 3) && !(s.didv && ds.contains s.devId) && ds.eraseDups.length == ds.length
    && solRoff w % 8 == 0 && solRoff w + 16 + 4 * p ≤ 0x74000
    && (if sc == 3 then solScore w == 0 else !s.disabled (solScore w))
/-- The scope of the release of a census (R341). -/
def solRelScope (w : List Word) : Scope := match solScope w with | 1 => .geode | 2 => .slab | _ => .module
/-- Words of the issuing core's LM in program order. -/
def State.lmWords (s : State) (o n : Nat) : List Word := (List.range n).map (fun k => s.lmWordInOrder (o + 8 * k))
/-- Whether a block of `n` bytes at an offset is 8-aligned and within LM. -/
def blockOk (o : Word) (n : Nat) : Bool := zeroField o 19 45 && o.toNat % 8 == 0 && o.toNat + n ≤ 0x80000

/-- A record's busy bit cleared for an operation that was refused (R341). -/
def State.unaccept (s : State) (r : Option Release) : State :=
  match r with
  | none => s
  | some r => (s.unbusy r).countRecv r.srcEp r.asid

/-- `SOLICIT` (R341). -/
def execSolicit (rs2 rs1 rd : Reg) (s : State) : Out :=
  let o := s.xr rs1
  let w := s.lmWords o.toNat 8
  .next (if isMemCore s.iss.ep then s.raise59 0
    else if !blockOk o 64 || !solReservedOk w then s.raise59 1
    else if !s.solOk w then s.raise59 2
    else match s.succWord (s.xr rs2) with
    | .bad => s.raise59 7
    | .fault c v => s.raise c v
    | sw =>
      if s.det && rd != 0 then s.raise 51 0
      else s.withRoom (if rd == 0 then 0 else 1) 1 (fun s =>
        let s := s.acceptSucc sw
        let (u, s) := s.newResult rd
        let q := Solicit.mk w s.cf.asid s.iss.ep s.iss.win s.cf.fid u sw.rel? none 0 none
        s.releaseThen (widerScope (solRelScope w) (succScope s.iss.ep sw.rel?)) [(0, s.iss.ep, censusRoot, .solicitRequest q)]))

/-! ## The module root (R343, R344, R362) -/

/-- Whether a new id may be issued: every LIVE id within 8,192 of it, and a slot free (R344). -/
def CensusRoot.mayLive (r : CensusRoot) : Bool :=
  r.slots.length < 16 && r.slots.all (fun c => c.st != 2 || (r.nextId + 65536 - c.q.id) % 65536 ≤ 8192)

/-- The cores of a geode that are not disabled (R342). -/
def State.coresIn (s : State) (g : Nat) : List Nat := (List.range 8).filter (fun c => !s.disabled (8 * g + c))
/-- The geodes of a slab with such cores. -/
def State.geodesIn (s : State) (sl : Nat) : List Nat := (List.range 128).filter (fun g => !(s.coresIn (128 * sl + g)).isEmpty)
/-- A census opened at a node. -/
def State.openNode (s : State) (n id : Nat) (need : List Nat) : State :=
  s.modNode n (fun c => { c with under := c.under ++ [NodeCensus.mk id need []] })
/-- A solicit sent down to the cores of a geode. -/
def State.solicitGeode (s : State) (g : Nat) (q : Solicit) : State :=
  (s.coresIn g).foldl (fun t c => t.send 0 censusRoot (8 * g + c) (.solicitScan (8 * g + c) (8 * g + c) q)) (s.openNode g q.id (s.coresIn g))
/-- A solicit sent down to the geodes of a slab. -/
def State.solicitSlab (s : State) (sl : Nat) (gs : List Nat) (q : Solicit) : State :=
  gs.foldl (fun t g => t.solicitGeode (128 * sl + g) q) (s.openNode (512 + sl) q.id gs)

/-- The census sent to a listed device; one that has no route, or any while this device has no id, answers as empty (R17, R351). -/
def State.solicitDev (s : State) (q : Solicit) (k : Nat) (d : BitVec 22) : State :=
  if !s.didv || (s.fjPort d).isNone then s.later (.answerFold 516 q.id (4 + k) none)
  else s.send 0 censusRoot fjPlace
    (.fjarlinkPacket 31 (.census d { q with origin := some (s.srcDev, q.id * 8 + k), rel := none, uid := none }))

/-- A LIVE census sent down the tree (R343). -/
def State.solicitAll (s : State) (q : Solicit) : State :=
  let w := q.words
  let devs := if q.origin.isSome then [] else solDevs w
  match if q.origin.isSome then 3 else solScope w with
  | 1 =>
    let g := solScore w / 8
    ((s.openNode 516 q.id [g / 128]).openNode (512 + g / 128) q.id [g % 128]).solicitGeode g q
  | 2 =>
    let sl := solScore w / 1024
    (s.openNode 516 q.id [sl]).solicitSlab sl (s.geodesIn sl) q
  | _ =>
    let sls := (List.range 4).filter (fun sl => !(s.geodesIn sl).isEmpty)
    let s := s.openNode 516 q.id (sls ++ (List.range devs.length).map (fun k => 4 + k))
    let s := sls.foldl (fun t sl => t.solicitSlab sl (t.geodesIn sl) q) s
    (devs.zip (List.range devs.length)).foldl (fun t p => t.solicitDev q p.2 p.1) s

/-- Every core of the module that is not disabled. -/
def State.allCores (s : State) : List Nat := (List.range 4096).filter (fun c => !s.disabled c)

/-- A request becomes LIVE (R343, R344, R360): its id is issued and the solicit sent; every 4,096 ids an epoch mark follows. -/
def State.makeLive (s : State) (q : Solicit) : State :=
  let r := s.census
  let id := r.nextId
  let q := { q with id := id }
  let slot := ((List.range 16).find? (fun k => !r.slots.any (fun c => c.slot == k))).getD 0
  let s := s.modRoot (fun r => { r with
    nextId := (id + 1) % 65536, slots := r.slots ++ [CensusSlot.mk slot 2 q (Answer.mk 0 0 0 0 []) 0 0 0] })
  let s := (s.answerWord q.asker q.win q.fid q.uid (BitVec.ofNat 64 id)).solicitAll q
  if id % 4096 == 0 then s.allCores.foldl (fun t c => t.send 0 censusRoot c (.epochMarkApply c id)) s else s
/-- Queued requests become LIVE, the oldest first, while R344 lets them. -/
def State.fillSlots (s : State) : Nat → State
  | 0 => s
  | n + 1 => match s.census.queue with
    | [] => s
    | q :: l => if s.census.mayLive then ((s.modRoot (fun r => { r with queue := l })).makeLive q).fillSlots n else s

/-- `CENSUS_LIVE` (R343, R344, R362): the oldest queued requests become LIVE. -/
def execCensusLive (s : State) : Out := .next (s.fillSlots 16)

/-- A request arrives at the root (R344, R362): LIVE at once, or queued behind others; `full` says what a full queue does with it. -/
def State.takeRequest (s : State) (q : Solicit) (full : State → State) : State :=
  let s := s.fillSlots 16
  if s.census.queue.isEmpty && s.census.mayLive then s.makeLive q
  else if 48 ≤ s.census.queue.length then full s
  else s.modRoot (fun r => { r with queue := r.queue ++ [q] })

/-- `SOLICIT_REQUEST` (R341, R344, R362): LIVE, queued, or refused when 48 are queued. -/
def execSolicitRequest (q : Solicit) (s : State) : Out :=
  .next (s.takeRequest q (fun s => match q.uid with
    | some _ => (s.unaccept q.rel).answerWord q.asker q.win q.fid q.uid (BitVec.ofNat 64 (2 ^ 63 + 1))
    | none => if q.fire.isSome then s.later (.censusResubmit q) else s.releaseSucc censusRoot q.rel 16 0))

/-- `REMOTE_CENSUS` (R351): a census from another device is taken as one of module scope; a full queue answers as empty. -/
def execRemoteCensus (q : Solicit) (s : State) : Out :=
  .next (s.takeRequest q (fun s => match q.origin with
    | some (d, k) => s.send 1 censusRoot fjPlace (.fjarlinkPacket 31 (.censusAnswer d (k / 8) (k % 8) none))
    | none => s))

/-- Whether a stamp has aged at an epoch mark (R360). -/
def aged (mark stamp : Nat) : Bool :=
  let d := (mark + 65536 - stamp) % 65536
  2 ^ 14 ≤ d && d < 2 ^ 15
/-- An epoch mark applied: stamps that have aged become invalid (R360). -/
def State.applyMark (s : State) (ep mark : Nat) : State :=
  s.modPort ep (fun p => { p with
    lastEpoch := mark
    dir := p.dir.map (fun e => (e.1, if e.2.sv && aged mark e.2.stamp then { e.2 with sv := false } else e.2)) })
/-- `EPOCH_MARK_APPLY` (R360): a migrating core holds the mark behind the solicits it holds (R361). -/
def execEpochMarkApply (ep mark : Nat) (s : State) : Out :=
  .next (if (s.core ep).code == 2 then s.modPort ep (fun p => { p with held := p.held ++ [.epochMarkApply ep mark] })
    else s.applyMark ep mark)

/-! ## Responders (R340, R345-R347, R357, R358) -/

/-- Whether a tile has the key and ASID that a census seeks (R340). -/
def Tile.sought (t : Tile) (q : Solicit) : Bool :=
  (t.key ^^^ q.words.getD 0 0) &&& q.words.getD 1 0 == 0 && t.asid == q.asid
/-- Whether an entry matches a census (R340). -/
def Tile.matching (t : Tile) (q : Solicit) : Bool := (t.st == 1 || t.st == 2) && !t.removed && t.sought q
/-- Whether an entry is blocked by its stamp (R358). -/
def Tile.blocked (t : Tile) (id : Nat) : Bool := t.sv && (t.stamp + 65536 - id) % 65536 < 2 ^ 15
/-- Whether a port must wait for an INCOMING entry before it answers a census (R357). -/
def CensusPort.defers (p : CensusPort) (q : Solicit) : Bool := p.dir.any (fun e => e.2.st == 3 && e.2.sought q)

/-- The record of a responder (R345). -/
def responderRecord (q : Solicit) (n : Nat) (t : Tile) : List Word :=
  [t.kind, BitVec.ofNat 64 (q.asid.toNat * 2 ^ 48 + 4 * 2 ^ 28 + n * 2 ^ 16 + q.id), BitVec.ofNat 64 (t.len * 2 ^ 32 + t.base),
    t.user, t.key, q.words.getD 4 0, BitVec.ofNat 64 (q.id * 2 ^ 48 + q.asker), 0]

/-- An entry answers a census: it is stamped, and its responder's release, counted as sent and received at once (R470), arrives at the core
after those of earlier entries (R345). -/
def State.spawnResponder (s : State) (ep asId : Nat) (q : Solicit) (n : Nat) (t : Tile) : State :=
  let s := s.modTile ep n (fun t => { t with stamp := q.id, sv := true, live := t.live + 1 })
  let s := s.modPort ep (fun p => { p with
    rows := p.rows.map (fun r => if r.q.id == q.id && r.asId == asId then { r with left := r.left + 1 } else r) })
  let dev := match q.origin with | some (d, _) => d | none => s.srcDev
  let r := Release.mk dev q.asker 0 ep none (BitVec.ofNat 3 (fld t.kind 0 3)) q.asid 0 0 (BitVec.ofNat 16 n) false
  let (e, s) := s.mkEntry ep r (responderRecord q n t) none none
  let e := { e with census := some (q.id, n + 128 * asId) }
  let first := (s.port ep).spawned.isEmpty
  let s := ((s.countSent ep q.asid).countRecv ep q.asid).modPort ep (fun p => { p with spawned := p.spawned ++ [e] })
  if first then s.later (.releaseArrival ep e) else s

/-- Rows whose responders have all ended, and that no INCOMING entry defers, answer (R347). -/
def State.answerKick (s : State) (ep : Nat) : State :=
  let p := s.port ep
  p.rows.foldl (fun t r => if r.left == 0 && !p.defers r.q then t.laterOnce (.coreAnswer ep r.asId r.q.id) else t) s

/-- The answer of a core, for the id `asId`, leaves for its geode's combiner (R350, R355). -/
def State.answerUp (s : State) (ep asId census : Nat) (a : Answer) : State :=
  s.send 1 ep (geodeEp (asId / 8)) (.answerFold (asId / 8) census (asId % 8) (some a))
/-- The scan of a solicit (R345, R347): the directory in order; each entry that matches and is not blocked spawns its responder. A halted
core answers at once, and so does a vacated one whose forwarding entry is cleared, with no entries, where R229 would have packets refused
(DESIGN CHOICE; log entry 83). -/
def State.scan (s : State) (ep asId : Nat) (q : Solicit) : State :=
  let p := s.port ep
  let hit := p.dir.filter (fun e => e.2.matching q)
  if (s.core ep).code == 4 then s.answerUp ep asId q.id (Answer.mk 0 0 hit.length 0 [])
  else
    let row := ((List.range 64).find? (fun k => !p.rows.any (fun r => r.row == k))).getD 0
    let s := s.modPort ep (fun p => { p with rows := p.rows ++ [OpenRow.mk row q asId 0 0 0 0 []] })
    let s := (hit.filter (fun e => !e.2.blocked q.id)).foldl (fun t e => t.spawnResponder ep asId q e.1 e.2) s
    s.answerKick ep

/-- `SOLICIT_SCAN` (R345, R347, R361): a migrating core holds the solicit, once no tile is on its way from it any more. -/
def execSolicitScan (ep asId : Nat) (q : Solicit) (s : State) : Out :=
  .next (if (s.core ep).code == 2 && !(s.port ep).dir.any (fun t => t.2.st == 2) then s.modPort ep (fun p => { p with held := p.held ++ [.solicitScan ep asId q] })
    else s.scan ep asId q)
/-- Solicits and marks that a migration held, in their order, at the destination (R361). -/
def State.scanHeld (s : State) (ep : Nat) (l : List Event) : State :=
  l.foldl (fun t e => match e with
    | .solicitScan _ asId q => t.scan ep asId q
    | .epochMarkApply _ m => t.applyMark ep m
    | _ => t) s

/-- `RESPOND` (R346). -/
def execRespond (rs1 : Reg) (s : State) : Out :=
  let o := s.xr rs1
  .next (if isMemCore s.iss.ep then s.raise59 0
    else match s.cf.responder with
    | none => s.raise59 3
    | some r =>
      if r.responded then s.raise59 3
      else
        let mine := fun (x : OpenRow) => x.q.id == r.census && x.asId == r.partIdx
        let p := match (s.port s.iss.ep).rows.find? mine with | some x => solP x.q.words | none => 0
        let sc : Scope := match (s.port s.iss.ep).rows.find? mine with | some x => solRelScope x.q.words | none => .module
        if !zeroField o 19 45 || o.toNat % 4 != 0 || o.toNat + 4 * p > 0x80000 then s.raise59 1
        else s.withRoom 0 1 (fun s =>
          let pay := (List.range p).map (fun k => BitVec.ofNat 32 (ofBytes (s.lmInOrder (o.toNat + 4 * k) 4)))
          let fid := s.cf.fid
          let s := s.modPort s.iss.ep (fun c => { c with
            rows := c.rows.map (fun x => if mine x then { x with pays := x.pays ++ [(fid, pay, false)] } else x) })
          (s.modCf (fun f => { f with responder := some { r with responded := true } })).releaseThen sc []))

/-- A responder has ended (R347): `ok` when its frame popped by `END` or `ENDS`. Its entry may now be freed or committed. -/
def State.responderEnd (s : State) (ep census asId entry fid : Nat) (ok responded : Bool) : State :=
  let upd := fun (r : OpenRow) =>
    if r.q.id == census && r.asId == asId then
      if ok && responded then { r with
        left := r.left - 1, nresp := r.nresp + 1, pays := r.pays.map (fun p => if p.1 == fid then (p.1, p.2.1, true) else p) }
      else if ok then { r with left := r.left - 1, nmiss := r.nmiss + 1 }
      else { r with left := r.left - 1, nfault := r.nfault + 1, pays := r.pays.filter (fun p => p.1 != fid) }
    else r
  let s := s.modPort ep (fun p => { p with rows := p.rows.map upd })
  let s := s.modTile ep entry (fun t => { t with live := t.live - 1 })
  let s := match (s.port ep).dir.find entry with
    | some t =>
      if t.live != 0 then s
      else if t.removed && t.st == 1 then s.modPort ep (fun p => { p with dir := p.dir.del entry })
      else match t.move with
        | some m => if t.st == 2 && t.len ≤ t.moved then s.laterOnce (.tileCommit m) else s
        | none => s
    | none => s
  s.answerKick ep

/-- Whether a release that a `RESPOND` of the row performs is not done yet (R353). -/
def Core.respondPending (c : Core) (r : OpenRow) : Bool :=
  c.oq.any (fun e => (match e.item with | .release _ _ => true | _ => false) && r.pays.any (fun p => p.1 == e.fid))
/-- `CORE_ANSWER` (R347, R353): the answer leaves for the geode combiner, after the releases of its responders. -/
def execCoreAnswer (ep asId census : Nat) (s : State) : Out :=
  let p := s.port ep
  let mine := fun (r : OpenRow) => r.q.id == census && r.asId == asId
  .next (match p.rows.find? mine with
    | none => s
    | some r =>
      if r.left != 0 || p.defers r.q then s
      else if (s.core ep).respondPending r then s.later (.coreAnswer ep asId census)
      else
        let pays := (r.pays.filter (fun x => x.2.2)).map (fun x => Answer.mk 1 0 0 0 x.2.1)
        let a := foldAnswers (solOp r.q.words) pays
        let s := s.modPort ep (fun p => { p with rows := p.rows.filter (fun x => !mine x) })
        s.answerUp ep asId census { a with nresp := r.nresp, nmiss := r.nmiss, nfault := r.nfault })

/-- A core that halts answers every open census (R347): the entries that matched and have not ended count in NFAULT. -/
def State.censusHalt (s : State) (ep : Nat) : State :=
  let p := s.port ep
  let one := fun (t : State) (r : OpenRow) =>
    let pays := (r.pays.filter (fun x => x.2.2)).map (fun x => Answer.mk 1 0 0 0 x.2.1)
    let a := foldAnswers (solOp r.q.words) pays
    t.answerUp ep r.asId r.q.id { a with nresp := r.nresp, nmiss := r.nmiss, nfault := r.nfault + r.left }
  p.rows.foldl one (s.modPort ep (fun p => { p with rows := [] }))

/-! ## Combining and completion (R350-R354) -/

/-- The node above. -/
def nodeAbove (n : Nat) : Nat × Nat := if n < 512 then (512 + n / 128, n % 128) else (516, n - 512)
/-- The agent of a node: a geode's combiner, slab agent 1 for a slab root, the module root (R16). -/
def nodeEp (n : Nat) : Nat := if n < 512 then geodeEp n else if n < 516 then agentEp (n - 512) 1 else censusRoot

/-- Every answer is in at the module root: the result is written, or returned to the device that asked (R351, R352). The census is LIVE no
more, so the age test of R344 may now hold for the next. -/
def State.censusAnswered (s : State) (id unreach roots : Nat) (a : Answer) : State :=
  match s.census.slots.find? (fun c => c.q.id == id && c.st == 2) with
  | none => s
  | some c =>
    match c.q.origin with
    | some (d, k) =>
      ((s.modRoot (fun r => { r with slots := r.slots.filter (fun x => x.slot != c.slot) })).send 1 censusRoot fjPlace
        (.fjarlinkPacket 31 (.censusAnswer d (k / 8) (k % 8) (some a)))).laterOnce .censusLive
    | none =>
      let upd := fun (x : CensusSlot) => if x.slot == c.slot then { x with st := 3, answer := a, unreach := unreach, roots := roots } else x
      ((s.modRoot (fun r => { r with slots := r.slots.map upd })).later (.censusResultWrite id)).laterOnce .censusLive

/-- `ANSWER_FOLD` (R350): a child's answer joins; when all are in, they are folded in order and answered upward. -/
def execAnswerFold (node census child : Nat) (a : Option Answer) (s : State) : Out :=
  .next (match (s.node node).under.find? (fun u => u.id == census) with
    | none => s
    | some u =>
      if !u.need.contains child || (u.got.find child).isSome then s
      else
        let u' := { u with got := u.got.put child (a.getD (Answer.mk 0 0 0 0 [])) }
        let unreach := if node == 516 && a.isNone then 2 ^ (child - 4) else 0
        let mark := fun (x : CensusSlot) => if x.q.id == census && x.st == 2 then { x with unreach := x.unreach ||| unreach } else x
        let s := if unreach == 0 then s else s.modRoot (fun r => { r with slots := r.slots.map mark })
        if u'.got.length < u.need.length then
          s.modNode node (fun c => { c with under := c.under.map (fun x => if x.id == census then u' else x) })
        else
          let s := s.modNode node (fun c => { c with under := c.under.filter (fun x => x.id != census) })
          match s.census.slots.find? (fun c => c.q.id == census) with
          | none => s
          | some c =>
            let f := foldAnswers (solOp c.q.words) (u'.got.map Prod.snd)
            if node == 516 then s.censusAnswered census c.unreach u.need.length f
            else s.send 1 (nodeEp node) (nodeEp (nodeAbove node).1) (.answerFold (nodeAbove node).1 census (nodeAbove node).2 (some f)))

/-- The result of a census as it is written (R352). -/
def resultBytes (c : CensusSlot) : List Byte :=
  let a := c.answer
  let w0 := c.q.id * 2 ^ 48 + c.unreach * 2 ^ 40 + a.flags.toNat * 2 ^ 32 + a.nresp % 2 ^ 32
  let pay := if a.nresp == 0 then List.replicate (solP c.q.words) (0 : Half) else a.payload
  toBytes 8 w0 ++ toBytes 8 (a.nmiss % 2 ^ 32 * 2 ^ 32 + a.nfault % 2 ^ 32) ++ pay.flatMap (fun v => toBytes 4 v.toNat)

/-- A store of a root into a core's LM. -/
def rootStore (agent core off id part : Nat) (asid : BitVec 16) (b : List Byte) : Access :=
  Access.mk agent 0 0 asid id 1 core off none part false false (.store b) 0

/-- `CENSUS_RESULT_WRITE` (R352): the result is written to the asker's LM by remote stores, of 8 bytes each and at last perhaps of 4 (R236). -/
def execCensusResultWrite (census : Nat) (s : State) : Out :=
  .next (match s.census.slots.find? (fun c => c.q.id == census && c.st == 3) with
    | none => s
    | some c =>
      let b := resultBytes c
      let n := ceilDiv b.length 8
      let s := s.modRoot (fun r => { r with slots := r.slots.map (fun x => if x.slot == c.slot then { x with acks := n } else x) })
      (List.range n).foldl (fun t k => t.send 0 censusRoot c.q.asker
        (.store (rootStore censusRoot c.q.asker (solRoff c.q.words + 8 * k) census 1 c.q.asid ((b.drop (8 * k)).take 8)))) s)

/-- A store of a census root acknowledged: a result's, or a barrier's, whose release then goes (R352, R363). -/
def State.rootAck (s : State) (a : Access) : State :=
  if a.part == 1 then
    match s.census.slots.find? (fun c => c.q.id == a.id && c.st == 3) with
    | none => s
    | some c =>
      let s := s.modRoot (fun r => { r with slots := r.slots.map (fun x => if x.slot == c.slot then { x with acks := c.acks - 1 } else x) })
      if c.acks ≤ 1 then s.later (.censusComplete a.id) else s
  else
    match s.census.stores.find? (fun p => p.1 == a.id) with
    | none => s
    | some p => (s.modRoot (fun r => { r with stores := r.stores.filter (fun x => x.1 != a.id) })).releaseSucc a.core p.2.1 0 p.2.2

/-- `CENSUS_COMPLETE` (R352, R362): the slot frees, the flags reach the asker's geode, the successor is released. -/
def execCensusComplete (census : Nat) (s : State) : Out :=
  .next (match s.census.slots.find? (fun c => c.q.id == census && c.st == 3) with
    | none => s
    | some c =>
      let a := c.answer
      let s := s.modRoot (fun r => { r with slots := r.slots.filter (fun x => x.slot != c.slot) })
      let s := s.modGeode (epGeode c.q.asker) (fun g => { g with sticky := g.sticky ||| a.flags })
      let st := if a.nfault == 0 && c.unreach == 0 then 0 else 2
      ((s.releaseSucc censusRoot c.q.rel st a.flags.toNat).fireDone censusRoot c.q.fire st a.flags.toNat).laterOnce .censusLive)

/-! ## Tiles (R337-R339, R356, R357) -/

/-- Whether an instruction on tiles finds no census port (R336). -/
def State.noPort (s : State) (fw : Bool) : Bool := isMemCore s.iss.ep || (fw && !s.cf.fm && s.firmware s.iss.ep)

/-- `TILEREG` (R338). -/
def execTilereg (rs1 rd : Reg) (s : State) : Out :=
  let o := s.xr rs1
  let b := s.lmWords o.toNat 4
  let w1 := b.getD 1 0; let k := b.getD 2 0
  let len := fld w1 32 19; let base := fld w1 0 19
  .next (if s.noPort true then s.raise59 0
    else if !blockOk o 32 || !zeroField w1 51 13 || !zeroField w1 19 13 then s.raise59 1
    else if len < 64 || len % 64 != 0 || base % 64 != 0 || base + len > 0x74000 then s.raise59 5
    else if !zeroField k 57 7 || !zeroField k 3 2 then s.raise59 1
    else if !s.cf.fm && 6 ≤ fld k 0 3 then s.raise 52 o
    else match (List.range 128).find? (fun n => ((s.port s.iss.ep).dir.find n).isNone) with
    | none => if rd == 0 then s.raise59 6
      else s.withRoom 1 0 (fun s => let (u, s) := s.newResult rd; s.answerCf u (BitVec.ofNat 64 (2 ^ 63 + 1)))
    | some n => s.withRoom (if rd == 0 then 0 else 1) 0 (fun s =>
      let t := Tile.mk 1 (b.getD 0 0) s.cf.asid base len k (b.getD 3 0) 0 false 0 false 0 0 none
      let (u, s) := s.newResult rd
      (s.modPort s.iss.ep (fun p => { p with dir := p.dir.put n t })).answerCf u (BitVec.ofNat 64 n)))

/-- `TILEDEL` (R339). -/
def execTiledel (rs1 rd : Reg) (s : State) : Out :=
  let x := s.xr rs1
  let n := x.toNat
  let e := (s.port s.iss.ep).dir.find n
  let mine := fun (t : Tile) => t.asid == s.cf.asid || s.cf.fm
  .next (if s.noPort false then s.raise59 0
    else if !zeroField x 7 57 then s.raise59 4
    else s.withRoom (if rd == 0 then 0 else 1) 0 (fun s =>
      let (u, s) := s.newResult rd
      match e with
      | none => s.answerCf u 2
      | some t =>
        if !mine t then s.answerCf u 3
        else if t.st != 1 then s.answerCf u 1
        else if t.live == 0 then (s.modPort s.iss.ep (fun p => { p with dir := p.dir.del n })).answerCf u 0
        else (s.modTile s.iss.ep n (fun t => { t with removed := true })).answerCf u 0))

/-- `TILEMOVE` (R356). -/
def execTilemove (rs2 rs1 rd : Reg) (s : State) : Out :=
  let c := s.xr rs1; let w := s.xr rs2
  let n := fld c 0 7
  let dst := fld w 0 12; let base := fld w 12 19
  let result := match (s.port s.iss.ep).dir.find n with
    | none => 2
    | some t => if t.asid != s.cf.asid && !s.cf.fm then 3 else if t.st != 1 || t.removed then 1 else 0
  .next (if s.noPort true then s.raise59 0
    else if !zeroField c 17 47 || !zeroField c 7 1 || !zeroField w 31 33 then s.raise59 4
    else if result != 0 then
      (if rd == 0 then s.raise59 6
        else s.withRoom 1 0 (fun s => let (u, s) := s.newResult rd; s.answerCf u (BitVec.ofNat 64 result)))
    else match (s.port s.iss.ep).dir.find n with
    | none => s
    | some t =>
      if base % 64 != 0 || base + t.len > 0x74000 then s.raise59 5
      else if dst == s.iss.ep || s.disabled dst || (!s.cf.fm && s.cc.firewalled dst) then s.raise 55 w
      else if s.det then s.raise 51 0
      else
        let chk : SuccWord := if bitOf c 16 then .none
          else match s.postChecks (BitVec.ofNat 64 (fld c 8 8)) (BitVec.ofNat 64 dst) with
            | .fault k v => .fault k v
            | .ok r => .ok r
        match chk with
        | .fault k v => s.raise k v
        | sw => s.withRoom (if rd == 0 then 0 else 1) 1 (fun s =>
          let s := s.acceptSucc sw
          let (id, s) := s.fresh
          let m := TileMove.mk s.iss.ep n dst base none t.key t.asid t.len t.kind t.user sw.rel? id s.cf.level.toNat
          let s := s.modTile s.iss.ep n (fun t => { t with st := 2, peer := dst, moved := 0, move := some m })
          let (u, s) := s.newResult rd
          (s.answerCf u 0).releaseThen (widerScope .module (succScope s.iss.ep sw.rel?)) [(0, s.iss.ep, dst, .tileReserve m)]))

/-- Whether a tile's source has still to scan a census that seeks the tile and that the destination has scanned already (R359). -/
def State.scanOwed (s : State) (m : TileMove) : Bool :=
  let owed := fun (ep : Nat) (hit : Solicit → Bool) => s.net.any (fun x => match x.ev with
    | .solicitScan e _ q => e == ep && hit q
    | _ => false)
  match (s.port m.src).dir.find m.entry with
  | none => false
  | some t => owed m.src (fun q => t.sought q && !owed m.dst (fun r => r.id == q.id))
/-- `TILE_RESERVE` (R356): the destination's lowest FREE entry becomes INCOMING; with none, or where packets are refused (R229), the source
hears that there is none. It waits while the source has still to scan a census that the destination has answered, for which the tile
would else be missed (R359; DEDUCED, log entry 84). -/
def execTileReserve (m : TileMove) (s : State) : Out :=
  let n := if (s.core m.dst).refuses then none else (List.range 128).find? (fun n => ((s.port m.dst).dir.find n).isNone)
  .next (if s.scanOwed m then s.requeue 0 m.src m.dst (.tileReserve m) else match n with
    | none => s.send 1 m.dst m.src (.tileCommit m)
    | some n =>
      let t := Tile.mk 3 m.key m.asid m.base m.len m.kind m.user 0 false 0 false m.src 0 none
      (s.modPort m.dst (fun p => { p with dir := p.dir.put n t })).send 1 m.dst m.src (.tileCommit { m with dentry := some n }))

/-- A move given up (R356): the source entry is RESIDENT again; its successor is released. -/
def State.moveEnd (s : State) (m : TileMove) (status : Nat) : State :=
  (s.modTile m.src m.entry (fun t => { t with st := 1, move := none, moved := 0 })).releaseSucc m.src m.rel status 0

/-- The entry whose move a packet names, while that move is under way. -/
def CensusPort.moving (p : CensusPort) (m : TileMove) : Option Tile :=
  match p.dir.find m.entry with
  | some t => if t.st == 2 && t.move.map TileMove.id == some m.id then some t else none
  | none => none
/-- `TILE_COMMIT` (R356): the next bytes are sent; when all are acknowledged and LIVE is 0 the source entry is freed and the
commit goes to the destination, whose acknowledgement finds the move over. NOROOM and a destination that is halted or refuses packets
(R229) end the move. -/
def execTileCommit (m : TileMove) (s : State) : Out :=
  let gone := (s.core m.dst).refuses || s.disabled m.dst
  .next (match m.dentry, (s.port m.src).moving m with
    | none, some _ => s.moveEnd m (if gone then 2 else 18)
    | none, none => s
    | some d, some t =>
      if gone then
        ((s.modPort m.dst (fun p => { p with dir := p.dir.del d })).moveEnd m 2).answerKick m.dst
      else if t.moved < t.len then
        let b := s.lmRead m.src (t.base + t.moved) 8
        let a := Access.mk m.src (8 + m.entry) 0 m.asid d 1 m.dst (m.base + t.moved) none 0 false false (.store b) m.prio
        (s.modTile m.src m.entry (fun t => { t with move := some m })).send 0 m.src m.dst (.store a)
      else if t.live != 0 then s.modTile m.src m.entry (fun t => { t with move := some m })
      else (s.modPort m.src (fun p => { p with dir := p.dir.del m.entry })).send 0 m.src m.dst (.tileCommitArrival m t.stamp t.sv)
    | some _, none => s)

/-- A store of a moving tile acknowledged (R356); each moves 8 bytes (R236). -/
def State.tileAck (s : State) (a : Access) : State :=
  let n := a.win - 8
  match (s.port a.core).dir.find n with
  | none => s
  | some t => match t.move with
    | none => s
    | some m => (s.modTile a.core n (fun t => { t with moved := t.moved + 8 })).laterOnce (.tileCommit m)

/-- `TILE_COMMIT_ARRIVAL` (R356, R357, R360): the entry is RESIDENT with its stamp; deferred censuses meet it in the order in which their
ids were issued; the successor is released, and the commit acknowledged (R355). A core that refuses packets refuses the commit: a machine
check names the source, and the successor is released with STATUS 2 (R229, R356). -/
def execTileCommitArrival (m : TileMove) (stamp : Nat) (sv : Bool) (s : State) : Out :=
  let n := m.dentry.getD 0
  let sv := sv && !aged (s.port m.dst).lastEpoch stamp
  let t := s.modTile m.dst n (fun t => { t with st := 1, stamp := stamp, sv := sv, peer := 0 })
  let rows := sortBy (fun (r : OpenRow) => (r.q.id + 65536 - s.census.nextId) % 65536) (t.port m.dst).rows
  let one := fun (s : State) (r : OpenRow) => match (s.port m.dst).dir.find n with
    | some t => if t.matching r.q && !t.blocked r.q.id then s.spawnResponder m.dst r.asId r.q n t else s
    | none => s
  .next (if (s.core m.dst).refuses then (s.machineCheck m.src 0x14).releaseSucc m.dst m.rel 2 0
    else (((rows.foldl one t).releaseSucc m.dst m.rel 0 n).answerKick m.dst).send 1 m.dst m.src (.tileCommit m))

/-! ## The combining barrier (R363) and the query (R364) -/

/-- The node of a scope (R363). -/
def scopeNode (scope score : Nat) : Nat :=
  match scope with
  | 1 => score / 8
  | 2 => 512 + score / 1024
  | _ => 516
/-- How many barriers a node holds. -/
def nodeBars (n : Nat) : Nat := if n < 512 then 4 else if n < 516 then 8 else 16
/-- The agent that writes a node's results. -/
def nodeAgent (n : Nat) : Nat := nodeEp n

/-- The scope that a barrier's contribution waits at (R363): that of its SCOPE field. -/
def barScope (sc : Nat) : Scope := match sc with | 1 => .geode | 2 => .slab | _ => .module

/-- `CBAR` (R363). -/
def execCbar (rs1 rd : Reg) (s : State) : Out :=
  let o := s.xr rs1
  let b := s.lmWords o.toNat 4
  let w := b.getD 0 0
  let sc := fld w 0 3; let op := fld w 4 4; let np := fld w 16 12; let score := fld w 32 12
  .next (if s.noPort false then s.raise59 0
    else if !blockOk o 32 || !zeroField w 44 20 || !zeroField w 28 4 || !zeroField w 3 1 || !zeroField (b.getD 1 0) 32 32 then s.raise59 1
    else if sc == 0 || 3 < sc || op == 0 || 8 < op || np == 0 || (if sc == 3 then score != 0 else s.disabled score) then s.raise59 2
    else match s.succWord (b.getD 2 0) with
    | .bad => s.raise59 7
    | .fault c v => s.raise c v
    | sw =>
      if s.det && rd != 0 then s.raise 51 0
      else s.withRoom (if rd == 0 then 0 else 1) 1 (fun s =>
        let s := s.acceptSucc sw
        let (u, s) := s.newResult rd
        let n := scopeNode sc score
        let q := BarReq.mk n s.cf.asid w ((b.getD 1 0).setWidth 32) s.iss.ep o.toNat sw.rel? s.iss.win s.cf.fid u
        s.releaseThen (widerScope (barScope sc) (succScope s.iss.ep sw.rel?)) [(1, s.iss.ep, nodeAgent n, .barrierContribution q)]))

/-- A complete barrier (R363): the values are folded by core; the result goes to every block, then each successor is released. -/
def State.barDone (s : State) (b : Barrier) : State :=
  let l := sortBy (fun (q : BarReq) => q.core) b.joined
  let (v, fl) := match l with
    | [] => (0, 0)
    | q :: r => r.foldl (fun (p : Nat × FlagSet) (x : BarReq) => let (w, g) := foldWord (fld b.word0 4 4) p.1 x.value.toNat; (w, p.2 ||| g)) (q.value.toNat, 0)
  let one := fun (s : State) (q : BarReq) =>
    let (id, s) := s.fresh
    let a := nodeAgent q.node
    (s.modRoot (fun r => { r with stores := r.stores ++ [(id, q.rel, fl.toNat)] })).send 0 a q.core
      (.store (rootStore a q.core (q.off + 24) id 2 q.asid (toBytes 8 (v % 2 ^ 32 + fl.toNat * 2 ^ 32))))
  l.foldl one s

/-- `BARRIER_CONTRIBUTION` (R363). -/
def execBarrierContribution (q : BarReq) (s : State) : Out :=
  let c := s.node q.node
  let mine := fun (b : Barrier) => b.asid == q.asid && fld b.word0 8 8 == fld q.word0 8 8
  let yes := fun (s : State) => s.answerWord q.core q.win q.fid q.uid 0
  .next (match c.bars.find? mine with
    | none =>
      if nodeBars q.node ≤ c.bars.length then
        match q.uid with
        | some _ => (s.unaccept q.rel).answerWord q.core q.win q.fid q.uid 1
        | none => s.releaseSucc (nodeEp q.node) q.rel 16 0
      else
        let idx := ((List.range 16).find? (fun k => !c.bars.any (fun b => b.idx == k))).getD 0
        let b := Barrier.mk idx q.asid q.word0 [q]
        if fld q.word0 16 12 ≤ 1 then (yes s).barDone b
        else yes (s.modNode q.node (fun c => { c with bars := c.bars ++ [b] }))
    | some b =>
      if b.word0 != q.word0 || b.joined.any (fun x => x.core == q.core) then (yes s).releaseSucc (nodeEp q.node) q.rel 17 0
      else
        let b' := { b with joined := b.joined ++ [q] }
        if fld b.word0 16 12 ≤ b'.joined.length then
          (yes (s.modNode q.node (fun c => { c with bars := c.bars.filter (fun x => x.idx != b.idx) }))).barDone b'
        else yes (s.modNode q.node (fun c => { c with bars := c.bars.map (fun x => if x.idx == b.idx then b' else x) })))

/-- `CENSQ` (R364). -/
def execCensq (rs1 rd : Reg) (s : State) : Out :=
  let x := s.xr rs1
  let id := x.toNat
  let mine := fun (q : Solicit) => s.cf.fm || q.asid == s.cf.asid
  let got := match (s.node 516).under.find? (fun u => u.id == id) with | some u => u.got.length | none => 0
  let v := match s.census.slots.find? (fun c => c.q.id == id && mine c.q) with
    | some c => if c.st == 2 then got * 2 ^ 32 + 2 else c.roots * 2 ^ 32 + 3
    | none => 0
  .next (if s.noPort false then s.raise59 0
    else if !zeroField x 16 48 then s.raise59 2
    else if s.det then s.raise 51 0
    else s.withRoom (if rd == 0 then 0 else 1) 0 (fun s =>
      let (u, s) := s.newResult rd
      s.answerCf u (BitVec.ofNat 64 v)))

/-- Firmware ends a LIVE census (R354): its successor is released with STATUS 1; later answers are discarded. -/
def State.censusEnd (s : State) (id : Nat) : State :=
  match s.census.slots.find? (fun c => c.q.id == id && c.st == 2) with
  | none => s
  | some c =>
    let s := s.modRoot (fun r => { r with slots := r.slots.filter (fun x => x.slot != c.slot) })
    let s := { s with nodes := s.nodes.map (fun (p : Nat × Combiner) => (p.1, { p.2 with under := p.2.under.filter (fun u => u.id != id) })) }
    ((s.releaseSucc censusRoot c.q.rel 1 0).fireDone censusRoot c.q.fire 1 0).laterOnce .censusLive

/-- Firmware frees a barrier entry (R363): each joined successor is released with STATUS 1. -/
def State.barFree (s : State) (node idx : Nat) : State :=
  match (s.node node).bars.find? (fun b => b.idx == idx) with
  | none => s
  | some b =>
    let s := s.modNode node (fun c => { c with bars := c.bars.filter (fun x => x.idx != idx) })
    b.joined.foldl (fun t q => t.releaseSucc (nodeEp node) q.rel 1 0) s

end Sys2Proof.Machine
end

