-- ==== Sys2Proof/Machine/Remote.lean ====
section
/-! DEFINITION. Results written back (02_bundles.md R41, R44), the outbound queue (05_task_core.md R172), accesses at an LM
owning port (07_message_unit.md R236), and monitors at one (06_frame_unit.md R213). -/

namespace Sys2Proof.Machine

/-- `FIXED_RESULT_WRITEBACK` (R41, R48): at the end of its cycle the result is written, with every other of its core that is due, CSR
writes before flags; until then it waits. -/
def execFixedResultWriteback (ep win uid : Nat) (s : State) : Out :=
  .next (match (s.frame ep win).outs.find? (fun r => r.uid == uid) with
    | none => s
    | some r => match r.due with
      | none => s
      | some d => if d ≤ s.now + 1 then s.settleBy (s.now + 1) ep else s.later (.fixedResultWriteback ep win uid))

/-- `ACCESS_LEAVES_QUEUE` (R172): the entry leaves when nothing holds it, and waits otherwise. -/
def execAccessLeavesQueue (ep id : Nat) (s : State) : Out :=
  .next (match (s.core ep).oq.find? (fun e => e.id == id && !e.left) with
    | none => s
    | some e => if (s.core ep).canLeave ep e then s.leave ep e else s.later (.accessLeavesQueue ep id))

/-- A monitor armed at an LM port: a sample that holds fires at once; a full port refuses (R213). -/
def State.lmArm (s : State) (q : ArmReq) : State :=
  let ep := q.owner
  let c := s.core ep
  let ack := fun (t : State) (refused : Bool) => t.send 1 ep q.rel.srcEp (.armack q refused)
  if 16 ≤ c.monitors.length || c.portRefuses then ack s true
  else if s.armHoldsLm ep q then ack (s.sendRelease ep q.rel) false
  else
    let idx := ((List.range 16).find? (fun i => !c.monitors.any (fun m => m.idx == i))).getD 0
    ack (s.setCore ep { c with monitors := c.monitors ++ [Monitor.mk idx q] }) false

/-- An access that a vacated core refuses (R229): what it would read comes back poisoned, a store is a machine check. -/
def State.refuseAccess (s : State) (a : Access) : State :=
  if a.op.reads then
    let (b, s) := s.freeBytes a.op.size
    s.send 1 a.owner a.core (.data a b true)
  else (s.machineCheck a.core 2).send 1 a.owner a.core (.data a [] false)

/-- What an LM port does with an arrival (R229, R236). -/
def lmServe (ev : Event) (s : State) : State :=
  let acc := fun (a : Access) =>
    if (s.core a.owner).portRefuses then s.refuseAccess a
    else
      match a.pair? with
      | some (x, y) =>
        let t := (s.lmPerform a.owner a.addr (.store x)).1
        let t := (t.lmPerform a.owner (a.addr + x.length) (.store y)).1
        t.send 1 a.owner a.core (.data a [] false)
      | none =>
        let (t, r, bad) := s.lmPerform a.owner a.addr a.op
        t.send 1 a.owner a.core (.data a r bad)
  match ev with
  | .load a => acc a
  | .store a => acc a
  | .atomic a => acc a
  | .arm q => s.lmArm q
  | _ => s

/-- The header that an LM port's trace ring sees (R417): a store from a copy engine or the census network, a moving tile's among them, is
KIND 4; that of a host SIGNAL is a STORE. -/
def lmHdr (_ : State) (ev : Event) : Option Hdr :=
  let mk := fun (a : Access) (k : Nat) => some (Hdr.mk a.asid k a.core none (log2Up a.op.size) a.addr)
  match ev with
  | .load a => mk a 3
  | .store a => mk a (if epClass a.core == 2 || (a.core != hostEp && (epClass a.core == 3 || 8 ≤ a.win)) then 4 else 0)
  | .atomic a => mk a 1
  | .arm q => some (Hdr.mk q.rel.asid 2 q.rel.srcEp none (if q.d then 3 else 2) q.addr)
  | _ => none

/-- `LOAD` (R236): the owning port answers with the bytes. -/
def execLoad (a : Access) (s : State) : Out := .next (s.arrive a.owner (.load a) lmHdr lmServe)
/-- `STORE` (R236): performed and acknowledged. -/
def execStore (a : Access) (s : State) : Out := .next (s.arrive a.owner (.store a) lmHdr lmServe)
/-- `ATOMIC` (R167, R236): performed in one step and answered with the old value. -/
def execAtomic (a : Access) (s : State) : Out := .next (s.arrive a.owner (.atomic a) lmHdr lmServe)

/-- `ARM` (R213): at an LM port, or at the home of a GLOBAL word, whose trace ring logs no arm (R417). -/
def execArm (q : ArmReq) (s : State) : Out :=
  .next (if q.space == 2 then
      s.homeArrive (HomeReq.mk (.armReq q) 512 q.rel.srcEp q.rel.asid q.owner (lineOf q.addr) false 0 0 false 0 0 false false 0 false q.rel.prio.toNat true)
    else s.arrive q.owner (.arm q) lmHdr lmServe)

/-- `ARMACK` (R213): a refused arm is sent again. -/
def execArmack (q : ArmReq) (refused : Bool) (s : State) : Out :=
  .next (if refused then s.send 0 q.rel.srcEp q.owner (.arm q) else s)

end Sys2Proof.Machine
end

