-- ==== Sys2Proof/Machine/Handles.lean ====
section
/-! DEFINITION. Handle instructions (05_task_core.md R184-R188; 04_memory.md R111-R117). -/

namespace Sys2Proof.Machine

/-- HTCOUNT of an ASID; none of its entries exist when its descriptor is not usable (R111). -/
def State.htCount (s : State) (asid : BitVec 16) : Nat := if s.asidOk asid then fld (s.asidWord asid 1) 0 13 else 0
/-- The physical address of an ASID's handle entry (R111, R112). -/
def State.entryAddr (s : State) (asid : BitVec 16) (i : Nat) : Nat := fld (s.asidWord asid 0) 5 47 * 32 + 32 * i

/-- Whether BASE and BOUND suit the space (R113). -/
def rangeOk (space base bound : Nat) : Bool :=
  match space with
  | 0 => base % 8 == 0 && base < 0x80000 && base + bound ≤ 0x80000
  | 1 => base % 8 == 0 && base < 0x80000 && base + bound ≤ 0x80000
  | 3 => base < 2 ^ 34 && base % 2 ^ 32 + bound ≤ 2 ^ 32
  | 4 => base % 8 == 0 && base + bound ≤ 2 ^ 64
  | _ => base < 2 ^ 57 && base + bound ≤ 2 ^ 57

/-- Whether a POLICY is allowed for a space (R114). -/
def policyOk (space policy : Nat) : Bool :=
  match policy with
  | 0 => space != 4
  | 1 => space == 2 || space == 5
  | 2 => space == 2
  | 3 => space == 4
  | _ => false

/-- Whether a handle entry keeps R112 and R113. -/
def handleOk (ws : List Word) : Bool :=
  match ws with
  | [base, bound, w2, w3] =>
    let space := fld w2 0 3
    let remote := space == 1
    bitOf w3 7 && space ≤ 5 && zeroField w2 13 4 && zeroField w2 3 5 && zeroField w3 8 56 && !bitOf w3 6 && !bitOf w3 3
      && policyOk space (fld w2 8 4) && rangeOk space base.toNat bound.toNat
      && (space == 5 || zeroField w2 42 22)
      && (remote || (zeroField w2 30 12 && !bitOf w2 12))
      && (!(remote && bitOf w2 12) || zeroField w2 35 5)
  | _ => false

/-- CAP of a loaded entry (R116): `core` is the module core id of a task core, none where there is no issuing core. -/
def capOf (w2 w3 : Word) (core : Option Nat) : Bool :=
  if !bitOf w3 1 then false
  else if !bitOf w3 4 then true
  else bitOf w2 17 && core == some (fld w2 18 12)

/-- A handle register loaded with an entry (R116, R185). -/
def handleFrom (ws : List Word) (asid : BitVec 16) (index : Nat) (core : Option Nat) : Handle :=
  match ws with
  | [base, bound, w2, w3] =>
    Handle.mk base bound w2 (if capOf w2 w3 core then w3 ||| 0x100 else w3) asid index
  | _ => Handle.empty

/-- The module core id of an endpoint, for WHOLDER: task cores only. -/
def coreIdOf (ep : Nat) : Option Nat := if epClass ep == 0 then some ep else none

/-- A handle entry as an engine or the front end loads it for itself (R116, R117): its words when it exists and is valid. -/
def State.engineHandle (s : State) (asid : BitVec 16) (i : Nat) : Option Handle :=
  let ws := s.paWords (s.entryAddr asid i) 4
  if i < s.htCount asid && handleOk ws then some (handleFrom ws asid i none) else none

/-- `HANDLE_ENTRY_READ` (R117, R185): the entry arrives from the slab's handle cache or from the table, and the hold ends. -/
def execHandleEntryRead (ep win : Nat) (asid : BitVec 16) (index : Nat) (s : State) : Out :=
  let sl := epSlab ep
  let hit := (s.slab sl).hcache.find? (fun e => e.1 == asid && e.2.1 == index)
  let ws := match hit with
    | some e => e.2.2
    | none => s.paWords (s.entryAddr asid index) 4
  let s := if hit.isSome then s
    else s.modSlab sl (fun b => let l := b.hcache ++ [(asid, index, ws)]; { b with hcache := l.drop (l.length - 1024) })
  .next (s.modFrame ep win (fun f =>
    if f.hold == .answer && f.asid == asid then { f with answer := some (BitVec.ofNat 64 index :: ws) } else f))

/-- The words of entry `i` in the answer that a hold waited for, if they are that entry's. -/
def handleAnswer (a : Option (List Word)) (i : Nat) : Option (List Word) :=
  match a with
  | some (k :: ws) => if k.toNat == i then some ws else none
  | _ => none

/-- `HLD` (R185): the bundle is held until its entry has been read; then it faults, or the register is loaded. -/
def execHld (hd : HReg) (rs1 : Reg) (s : State) : Out :=
  let iw := s.xr rs1
  let i := iw.toNat
  let f := s.cf
  .next (if i ≥ s.htCount f.asid then s.raise 48 iw
    else match handleAnswer f.answer i with
      | none => ((s.hold .answer).modCf (fun f => { f with answer := none })).later (.handleEntryRead s.iss.ep s.iss.win f.asid i)
      | some ws =>
        let w3 := ws.getD 3 0
        if !handleOk ws then (s.modCf (fun f => { f with answer := none })).raise 48 iw
        else if s.det && (bitOf w3 1 || bitOf w3 2) && !bitOf w3 4 && !bitOf w3 5 then
          (s.modCf (fun f => { f with answer := none })).raise 27 iw
        else s.withRoom 1 0 (fun s =>
          let s := s.modCf (fun f => { f with answer := none })
          let (u, s) := s.addResult (.h hd) none (.word 0) 0 1
          s.later (.variableResultWriteback s.iss.ep s.iss.win f.fid u
            (.handle (handleFrom ws f.asid i (coreIdOf s.iss.ep))) 0 false)))

/-- `HQRY` (R186): one word of the copy held. -/
def execHqry (hs : HReg) (rs1 rd : Reg) (s : State) : Out :=
  let h := s.cf.getH hs
  let v := match fld (s.xr rs1) 0 2 with
    | 0 => h.base
    | 1 => h.bound
    | 2 => h.w2
    | _ => h.w3
  .next (s.withRoom 1 0 (fun s =>
    let (u, s) := s.addResult (dstX rd) none (.word 0) 0 1
    s.answerWord s.iss.ep s.iss.win s.cf.fid (some u) v))

/-- A held `HLD` whose entry is among those that changed reads it again (R117, R187), whatever the bundle is held for by then. -/
def State.reread (s : State) (asid : BitVec 16) (hit : Nat → Bool) : State :=
  s.cores.foldl (fun t p => (List.range 8).foldl (fun u w =>
    let f := p.2.win w
    match f.answer with
    | some [k, _, _, _, _] =>
      if f.asid == asid && hit k.toNat then
        (u.modFrame p.1 w (fun f => { f with answer := none, hold := .answer })).later (.handleEntryRead p.1 w asid k.toNat)
      else u
    | _ => u) t) s

/-- CAP cleared or set in a handle register. -/
def setCap (h : Handle) (b : Bool) : Handle := { h with w3 := setFld h.w3 8 1 (bitNat b) }
/-- CAP cleared in a handle that copies an entry. -/
def capDropped (h : Handle) (asid : BitVec 16) (index : Nat) : Handle :=
  if h.valid && h.asid == asid && h.index == index then setCap h false else h
/-- CAP cleared in every handle register of a frame that holds an entry (R187). -/
def Frame.dropCap (f : Frame) (asid : BitVec 16) (index : Nat) : Frame := { f with h := f.h.map (fun h => capDropped h asid index) }
/-- CAP cleared in a result on its way to a handle register of a core. -/
def dropCapIn (ep : Nat) (asid : BitVec 16) (index : Nat) (m : Msg) : Msg :=
  match m.ev with
  | .variableResultWriteback e w f u (.handle h) fl p =>
    if e == ep then { m with ev := .variableResultWriteback e w f u (.handle (capDropped h asid index)) fl p } else m
  | _ => m
/-- CAP of an entry cleared in every core but one (R188). -/
def State.dropCapsBut (s : State) (keep : Nat) (asid : BitVec 16) (index : Nat) : State :=
  { s with
    cores := s.cores.map (fun p => if p.1 == keep then p else (p.1, { p.2 with wins := p.2.wins.map (fun f => f.dropCap asid index) }))
    net := s.net.map (fun m => match m.ev with
      | .variableResultWriteback e _ _ _ _ _ _ => if e == keep then m else dropCapIn e asid index m
      | _ => m) }
/-- CAP of an entry cleared throughout a core: in its registers, and in the results of `HLD`s not yet written back (R187, R188). -/
def State.dropCaps (s : State) (ep : Nat) (asid : BitVec 16) (index : Nat) : State :=
  { s.modCore ep (fun c => { c with wins := c.wins.map (fun f => f.dropCap asid index) }) with
    net := s.net.map (dropCapIn ep asid index) }

/-- `HGIVE` (R187): the capability is dropped at issue; a release of the earlier accesses at module scope precedes the request that
takes the entry's line at its home, whose acknowledgement ends the handover. -/
def execHgive (hs : HReg) (rs1 rd : Reg) (s : State) : Out :=
  let h := s.cf.getH hs
  let t := s.xr rs1
  .next (if !h.valid then s.raise 48 (evalAcc hs false 0)
    else if !bitOf h.w3 4 || !h.cap then s.raise 27 (evalAcc hs true 0)
    else if !zeroField t 12 52 || s.disabled (fld t 0 12) then s.raise 7 t
    else s.withRoom 1 1 (fun s =>
      let s := s.dropCaps s.iss.ep h.asid h.index
      let (u, s) := s.addResult (dstX rd) none (.word 0) 0 1
      let pa := s.entryAddr h.asid h.index + 16
      let q := { frameReq .wb s.iss.ep s.iss.win (lineOf pa) h.asid false false with
        once := true
        mask := BitVec.ofNat 128 (0xC <<< (pa % 128))
        limit := t.toNat
        tid := h.index * 8 + hs.toNat
        tag := u + 1 }
      s.releaseThen .module [(0, s.iss.ep, q.home, q.event)]))

/-- The handover done (R187, R188), in one step: WHOLDER and WHV are written at the entry's home and in every slab's handle cache, no
register or result of another core than the new holder keeps CAP, held `HLD`s read the entry again, and x[rd] is 0; given to itself, the
register has CAP again. It waits while the line is busy or claimed. -/
def State.handleGiven (s : State) (q : HomeReq) : State :=
  let index := q.tid / 8
  let pa := s.entryAddr q.asid index + 16
  if !s.rangeFree pa 8 then (s.guestRecall pa 8).later (.homeAck q false)
  else
    let give := fun (w : Word) => setFld (setFld w 18 12 q.limit) 17 1 1
    let s := s.devWrite pa (toBytes 8 (give (s.paWord pa)).toNat) false false
    let upd := fun (e : BitVec 16 × Nat × List Word) =>
      if e.1 == q.asid && e.2.1 == index then (e.1, e.2.1, listSet e.2.2 2 (give (e.2.2.getD 2 0))) else e
    let s := (List.range 4).foldl (fun t k => t.modSlab k (fun b => { b with hcache := b.hcache.map upd })) s
    let s := (s.dropCapsBut q.limit q.asid index).reread q.asid (fun k => k == index)
    let u := q.tag - 1
    match (List.range 8).find? (fun w => (s.frame q.src w).outs.any (fun r => r.uid == u)) with
    | none => s
    | some w =>
      let hs := BitVec.ofNat 3 (q.tid % 8)
      let back := fun (f : Frame) =>
        let h := f.getH hs
        if coreIdOf q.src == some q.limit && h.asid == q.asid && h.index == index then f.putH hs (setCap h true) else f
      let s := s.modFrame q.src w back
      match (s.frame q.src w).outs.find? (fun r => r.uid == u) with
      | some r => s.writeBack q.src w r (.word 0) 0 r.bad
      | none => s

end Sys2Proof.Machine
end

