-- ==== Sys2Proof/Machine/Message.lean ====
section
/-! DEFINITION. The message unit: active messages, handlers, and what a Fjarlink port does with a packet for a device
(07_message_unit.md R244-R260). The delivery response is in Complete.lean. -/

namespace Sys2Proof.Machine

/-- A handler entry of a core. -/
def Core.handler (c : Core) (h : Nat) : Handler := vget Handler.empty c.handlers h
/-- The state with a handler entry replaced. -/
def State.setHandler (s : State) (ep h : Nat) (e : Handler) : State := s.modCore ep (fun c => { c with handlers := vset c.handlers h e })

/-! ## Control words and destinations (R248, R255) -/

/-- NWORDS of a control word. -/
def ctlWords (c : Word) : Nat := fld c 16 6
/-- Whether a control word keeps R248. -/
def ctlOk (c : Word) : Bool := zeroField c 22 42 && zeroField c 14 2 && zeroField c 6 2 && ctlWords c ≤ 61

/-- Where a message goes. -/
structure Dest where
  core : Nat
  dev : Option (BitVec 22)
  fe : Bool
  deriving DecidableEq, Repr

/-- A destination word read (R255): a target word, or the front end's event handler. -/
def State.destWord (s : State) (t : Word) : Option Dest :=
  if bitOf t 35 then
    (if zeroField t 36 28 && zeroField t 0 35 && bitOf s.cc.feroute 63 then some (Dest.mk (fld s.cc.feroute 0 12) none true) else none)
  else match s.targetWord t with
    | some (c, d) => some (Dest.mk c d false)
    | none => none

/-- Whether a destination may be sent to (R246, R256): no disabled core, no device without a route, and for a T-mode frame no
firewalled core unless its FWHMASK bit is set. -/
def State.destOk (s : State) (d : Dest) (handler : Nat) : Bool :=
  match d.dev with
  | some x => (s.fjPort x).isSome
  | none => !s.disabled d.core && (s.cf.fm || !s.cc.firewalled d.core || s.cc.fwhmask.getLsbD handler)

/-- How an active message leaves (R235, R260). -/
def activeEvent (m : ActiveMsg) : Nat × Nat × Nat × Event :=
  match m.dstDev with
  | none => (0, m.src, m.dst, .active m)
  | some _ => (0, m.src, fjPlace, .fjarlinkPacket 31 (.active m))

/-- Cause 55 for a malformed message at an offset (R256). -/
def badMessage (o : Word) : Word := o ||| 0x8000000000000000

/-- Whether a frame of a core still waits for a result. -/
def Core.awaits (c : Core) (u : Nat) : Bool := c.wins.toList.any (fun f => f.outs.any (fun r => r.uid == u))
/-- A message's status result, counted among the core's messages outstanding until it comes (R256, R261). -/
def State.newMail (s : State) (rd : Reg) : Option Nat × State :=
  match s.newResult rd with
  | (some u, s) => (some u, s.modCore s.iss.ep (fun c => { c with mail := c.mail.filter c.awaits ++ [u] }))
  | r => r
/-- A message of the issuing frame sent (R256): read in program order, one place in the outbound queue, the status as result. -/
def State.sendMessage (s : State) (o : Word) (handler : Word → Nat) (dest : State → Option Dest) (bad : Word) (rd : Reg) : State :=
  let c := s.lmWordInOrder o.toNat
  if !zeroField o 19 45 || o.toNat % 8 != 0 then s.raise 55 (badMessage o)
  else if !ctlOk c || o.toNat + 8 + 8 * ctlWords c > 0x80000 then s.raise 55 (badMessage o)
  else match dest s with
    | none => s.raise 55 bad
    | some d =>
      let h := if d.fe then 63 else handler c
      if !s.destOk d h then s.raise 55 bad
      else if s.det && rd != 0 then s.raise 51 0
      else s.withRoom (if rd == 0 then 0 else 1) 1 (fun s =>
        let body := (List.range (ctlWords c)).map (fun k => s.lmWordInOrder (o.toNat + 8 + 8 * k))
        let (u, s) := s.newMail rd
        let m := ActiveMsg.mk s.srcDev s.iss.ep d.core d.dev s.cf.asid s.cf.level s.cf.fm (setFld c 0 6 h) body s.iss.win s.cf.fid u
        (s.countSent s.iss.ep s.cf.asid).releaseThen .core [activeEvent m])

/-- `SEND` (R256). -/
def execSend (rs2 rs1 rd : Reg) (s : State) : Out :=
  let t := s.xr rs2
  .next (s.sendMessage (s.xr rs1) (fun c => fld c 0 6) (fun s => s.destWord t) t rd)

/-- `REPLY` (R257). -/
def execReply (rs1 rd : Reg) (s : State) : Out :=
  .next (match s.cf.reply with
    | none => s.raise 55 0
    | some (dev, src, next) =>
      let own := dev == s.srcDev
      let t := BitVec.ofNat 64 (src + (if own then 0 else 2 ^ 34 + dev.toNat * 2 ^ 12))
      s.sendMessage (s.xr rs1) (fun _ => next) (fun _ => some (Dest.mk src (if own then none else some dev) false)) t rd)

/-! ## Handlers (R252, R258, R259) -/

/-- Whether an index operand names a handler the frame may change (R254). -/
def State.handlerOk (s : State) (i : Word) : Bool := i.toNat < 64 && (s.cf.fm || (i != 0 && i != 63))
/-- Whether a kind word may be bound (R258). -/
def State.kindOk (s : State) (k : Word) : Bool := zeroField k 57 7 && zeroField k 3 2 && (s.cf.fm || fld k 0 3 < 6)
/-- A result code answered to the issuing frame. -/
def State.answerCode (s : State) (rd : Reg) (v : Nat) : State :=
  let (u, s) := s.newResult rd
  s.answerWord s.iss.ep s.iss.win s.cf.fid u (BitVec.ofNat 64 v)
/-- Whether a frame owns an entry (R252). -/
def State.ownsHandler (s : State) (e : Handler) : Bool := s.cf.fm || e.asid == s.cf.asid

/-- The ASID that an entry holds with a kind word: 0 when its PRIO is 6 or 7 (R249). -/
def handlerAsid (kind : Word) (asid : BitVec 16) : BitVec 16 := if 6 ≤ fld kind 0 3 then 0 else asid
/-- `BIND` (R258). -/
def execBind (rs2 rs1 rd : Reg) (s : State) : Out :=
  let i := s.xr rs1; let o := s.xr rs2
  let w0 := s.lmWordInOrder o.toNat; let w1 := s.lmWordInOrder (o.toNat + 8)
  let lg := fld w1 32 4; let base := fld w1 0 32
  .next (if !s.handlerOk i then s.raise 55 i
    else if !zeroField o 19 45 || o.toNat % 8 != 0 || o.toNat + 16 > 0x80000 then s.raise 55 (badMessage o)
    else if !zeroField w1 36 28 || lg > 6 || base % 512 != 0 || base + 512 * 2 ^ lg > 0x74000 || !s.kindOk w0 then s.raise 55 (badMessage o)
    else s.withRoom (if rd == 0 then 0 else 1) 0 (fun s =>
      let e := s.cc.handler i.toNat
      if e.state != 0 then s.answerCode rd 1
      else (s.setHandler s.iss.ep i.toNat { e with
        kind := w0, asid := handlerAsid w0 s.cf.asid, state := 1, head := 0, rxlog2 := lg, rxbase := base, staged := 0, waiters := [] }).answerCode rd 0))

/-- Results that waited for a commit are answered. -/
def State.answerWaiters (s : State) (ep : Nat) (l : List (Nat × Nat × Nat)) (v : Word) : State :=
  l.foldl (fun t w => t.answerWord ep w.1 w.2.1 (some w.2.2) v) s

/-- `UNBIND` (R252, R259): the entry is EMPTY and keeps its busy bits; its kind word, ASID, HEAD and ring fields read 0 from then on,
which the spec does not state (DESIGN CHOICE; log entry 54). -/
def execUnbind (rs1 rd : Reg) (s : State) : Out :=
  let i := s.xr rs1
  .next (if !s.handlerOk i then s.raise 55 i
    else s.withRoom (if rd == 0 then 0 else 1) 0 (fun s =>
      let e := s.cc.handler i.toNat
      if e.state == 0 then s.answerCode rd 2
      else if !s.ownsHandler e then s.answerCode rd 3
      else ((s.setHandler s.iss.ep i.toNat { Handler.empty with busy := e.busy }).answerWaiters s.iss.ep e.waiters 2).answerCode rd 0))

/-- `SWAPH` (R252, R259): the result comes at the commit. -/
def execSwaph (rs2 rs1 rd : Reg) (s : State) : Out :=
  let i := s.xr rs1; let k := s.xr rs2
  .next (if !s.handlerOk i then s.raise 55 i
    else if !s.kindOk k then s.raise 55 k
    else s.withRoom (if rd == 0 then 0 else 1) 0 (fun s =>
      let e := s.cc.handler i.toNat
      if e.state == 0 then s.answerCode rd 2
      else if !s.ownsHandler e then s.answerCode rd 3
      else
        let (u, s) := s.newResult rd
        let w := u.toList.map (fun u => (s.iss.win, s.cf.fid, u))
        (s.setHandler s.iss.ep i.toNat { e with state := 2, staged := k, waiters := e.waiters ++ w }).later (.handlerCommit s.iss.ep i.toNat)))

/-- `HANDLER_COMMIT` (R252): the staged kind serves, and every waiting `SWAPH` returns 0. -/
def execHandlerCommit (ep h : Nat) (s : State) : Out :=
  let e := (s.core ep).handler h
  .next (if e.state != 2 then s
    else (s.setHandler ep h { e with
        kind := e.staged, asid := handlerAsid e.staged e.asid, state := 1, staged := 0, waiters := [] }).answerWaiters ep e.waiters 0)

/-! ## Delivery (R247, R249, R250) -/

/-- The DELIVERY response to a message, toward its source or its source's device. -/
def State.respondMessage (s : State) (m : ActiveMsg) (st : Nat) : State :=
  let s := if st == 1 || st == 3 || st == 4 then s.modCore m.dst (fun c => { c with refcnt := (c.refcnt + 1) % 2 ^ 64 }) else s
  if m.srcDev == s.srcDev then s.send 1 m.dst m.src (.delivery m st)
  else s.send 1 m.dst fjPlace (.fjarlinkPacket 31 (.delivery m st))

/-- `ACTIVE` (R249): a slot of the handler's ring is written and a task of its kind arrives, or the message is turned away. -/
def execActive (m : ActiveMsg) (s : State) : Out :=
  let c := s.core m.dst
  let h0 := fld m.control 0 6
  let (h, st) := if (c.handler h0).state == 0 then (0, 2) else (h0, 0)
  let e := c.handler h
  .next (if c.portRefuses then (s.machineCheckOf m.srcDev m.src 2).respondMessage m 4
    else if c.code == 3 || c.code == 4 || c.code == 5 then s.respondMessage m 4
    else if e.state == 0 then s.respondMessage m 3
    else if fld e.kind 0 3 < 6 && h != 0 && m.asid != e.asid then s.respondMessage m 3
    else if e.busy.getLsbD e.head then s.respondMessage m 1
    else
      let k := e.head
      let off := e.rxbase + 512 * k
      let s := s.setHandler m.dst h { e with busy := e.busy ||| BitVec.ofNat 64 (2 ^ k), head := (k + 1) % 2 ^ e.rxlog2 }
      let s := s.lmWrite m.dst off ((m.control :: m.body).flatMap (fun w => toBytes 8 w.toNat))
      let arg := fun (i : Nat) => m.body.getD i 0
      let words := [e.kind, BitVec.ofNat 64 (e.asid.toNat * 2 ^ 48), BitVec.ofNat 64 off, m.control, arg 0, arg 1, arg 2, arg 3]
      let r := Release.mk m.srcDev m.src 0 m.dst none (BitVec.ofNat 3 (fld e.kind 0 3)) e.asid 0 0 (BitVec.ofNat 16 h) m.fm
      let (en, s) := s.mkEntry m.dst r words (some (h, k)) (some (m.srcDev, m.src, fld m.control 8 6))
      let s := if m.srcDev == s.srcDev then s.countRecv m.dst m.asid else s
      (s.respondMessage m st).later (.releaseArrival m.dst en))

/-- A slot's busy bit cleared at the end of the task that its delivery started (R251). -/
def State.freeSlot (s : State) (ep : Nat) (slot : Option (Nat × Nat)) : State :=
  match slot with
  | none => s
  | some (h, k) =>
    let e := (s.core ep).handler h
    s.setHandler ep h { e with busy := e.busy &&& ~~~(BitVec.ofNat 64 (2 ^ k)) }

/-! ## Fjarlink (R246, R260) -/

/-- Whether a port's map firewalls a core (R246): the map of its device, whose geodes boot takes from the firmware column. -/
def State.portFirewall (s : State) (core : Nat) : Bool := epClass core == 0 && s.pkg.portmap.getLsbD (epGeode core)

/-- A packet without a route (R260), at the port where it was found: UNREACHABLE for an active message, else a machine check that names
its source. The engine of a LINK access is told that the device is unreachable (R376; log entry 67), and the root of a census is
answered as by an empty device, its unreachable bit set (R351). -/
def State.fjLost (s : State) (port : Nat) (p : FjPacket) : State :=
  let here := fjPlace + port
  match p with
  | .active m =>
    if m.srcDev == s.srcDev then s.send 1 here m.src (.delivery m 4) else s.send 1 here fjPlace (.fjarlinkPacket 31 (.delivery m 4))
  | .release r => s.machineCheckOf r.srcDev r.srcEp 3
  | .pull r => s.machineCheckOf (r.dstDev.getD s.srcDev) r.dst 3
  | .record r _ => s.machineCheckOf r.srcDev r.srcEp 3
  | .delivery m _ => s.machineCheckOf (m.dstDev.getD s.srcDev) m.dst 3
  | .linkRequest q =>
    let s := s.machineCheckOf q.srcDev q.engine 3
    if q.srcDev == s.srcDev then s.send 1 here q.engine (.fjarlinkPacket port (.linkAnswer q 2 []))
    else s.send 1 here fjPlace (.fjarlinkPacket 31 (.linkAnswer q 2 []))
  | .linkAnswer q _ _ => s.machineCheckOf q.dev q.engine 3
  | .census _ q =>
    let (d, k) := q.origin.getD (s.srcDev, 0)
    let s := s.machineCheckOf d (agentEp 0 3) 3
    if d == s.srcDev then s.later (.answerFold 516 (k / 8) (4 + k % 8) none)
    else s.send 1 here fjPlace (.fjarlinkPacket 31 (.censusAnswer d (k / 8) (k % 8) none))
  | .censusAnswer _ _ _ _ => s.machineCheck (agentEp 0 3) 3
  | .other _ _ d e _ _ => s.machineCheckOf d e 3

end Sys2Proof.Machine
end

