-- ==== Sys2Proof/Machine/Copy.lean ====
section
/-! DEFINITION. Copy engines, copy barriers, bedrock seals and the LLC carve-out (11_copy_engines.md R366-R395; 04_memory.md
R129-R131, R142, R144). How a transfer ends is in Complete.lean. -/

namespace Sys2Proof.Machine

/-- A copy engine. -/
def State.engine (s : State) (ep : Nat) : Engine := s.engines.get Engine.reset ep
/-- The state with an engine changed. -/
def State.modEngine (s : State) (ep : Nat) (k : Engine → Engine) : State := { s with engines := s.engines.put ep (k (s.engine ep)) }
/-- The state with a core's copy state changed. -/
def State.modCopy (s : State) (ep : Nat) (k : CopyPort → CopyPort) : State := s.modCore ep (fun c => { c with copy := k c.copy })
/-- Cause 60 with a code (R371). -/
def State.raise60 (s : State) (code : Nat) : State := s.raise 60 (s.evalCode code)

/-! ## The request (R368, R369, R382) -/

/-- Word `k` of a request. -/
def CopyEnt.word (e : CopyEnt) (k : Nat) : Word := e.q.words.getD k 0
/-- LEN. -/
def cqLen (w : List Word) : Nat := fld (w.getD 2 0) 32 32
/-- OP. -/
def cqOp (w : List Word) : Nat := fld (w.getD 2 0) 29 3
/-- DSTK. -/
def cqSlot (w : List Word) : Bool := bitOf (w.getD 2 0) 26
/-- SRC. -/
def cqSrc (w : List Word) : Nat := (w.getD 0 0).toNat
/-- DST. -/
def cqDst (w : List Word) : Nat := (w.getD 1 0).toNat
/-- The engine that a request names. -/
def cqEngine (w : List Word) : Nat := copyEp (fld (w.getD 2 0) 24 2) (fld (w.getD 2 0) 0 5)
/-- SELF. -/
def cqSelf (w : List Word) : Bool := bitOf (w.getD 2 0) 17
/-- NONE of SUCC. -/
def cqNone (w : List Word) : Bool := bitOf (w.getD 3 0) 55
/-- The scope of CSCOPE (R372). -/
def cqScope (w : List Word) : Scope :=
  match fld (w.getD 2 0) 5 3 with
  | 1 => .geode | 2 => .slab | 4 => .system | _ => .module

/-- Whether a request keeps the table of R368, the slot address apart. -/
def cqOk (w : List Word) : Bool :=
  let w2 := w.getD 2 0; let u := w.getD 3 0
  let op := cqOp w
  1 ≤ cqLen w && op ≤ 2 && (if op == 1 then fld w2 27 2 ≤ 1 else zeroField w2 27 2) && (op == 0 || zeroField w2 21 3)
    && (!cqSlot w || zeroField w2 18 3) && zeroField w2 16 1 && zeroField w2 8 2 && fld w2 5 3 ≤ 4
    && (op == 1 || zeroField u 35 20)
    && (!cqSelf w || (zeroField u 0 35 && !cqNone w)) && (!cqNone w || (zeroField u 0 35 && zeroField u 56 8))

/-- Whether a slot address and its length keep R382. -/
def cqSlotOk (w : List Word) : Bool :=
  let d := w.getD 1 0
  zeroField d 19 45 && fld d 16 3 < 5 && zeroField d 15 1 && zeroField d 7 1 && cqOp w == 0 && cqLen w == 64 * cb (fld d 16 3)

/-- Steps 1 to 7 of R120 for a side of a request, with the reach of the engine (R367, R372). -/
def State.copyCheck (h : Handle) (hn : HReg) (st : Bool) (off : Word) (n : Nat) : Option (Nat × Word) :=
  let ev := evalAcc hn st off
  let reach := h.space == 0 || h.space == 1 || h.space == 2 || h.space == 5 || (st && h.space == 3)
  if !h.valid then some (48, ev)
  else if !reach then some (26, ev)
  else if !bitOf h.w3 (if st then 1 else 0) then some (if st then 7 else 5, ev)
  else if bitOf h.w3 5 then some (49, ev)
  else if st && bitOf h.w3 4 && !h.cap then some (27, ev)
  else if off.toNat + n > h.bound.toNat then some (25, ev)
  else none

/-- Whether addresses and length are aligned as R369 requires. -/
def cqAligned (w : List Word) (sh dh : Handle) : Bool :=
  let n := if cqOp w == 1 then 16 else 8
  cqLen w % n == 0 && (cqSlot w || (dh.base.toNat + cqDst w) % n == 0) && (cqOp w != 0 || (sh.base.toNat + cqSrc w) % 8 == 0)

/-- The checks of a request's successor (R372). -/
def State.cqSucc (s : State) (w : List Word) : SuccWord :=
  if cqNone w then .none
  else
    let i := fld (w.getD 3 0) 56 8
    if cqSelf w then
      if s.cc.recbusy.getLsbD i then .fault 31 (BitVec.ofNat 64 i)
      else if !s.cf.fm && 6 ≤ fld (s.recWord i 0) 0 3 then .fault 52 (BitVec.ofNat 64 i)
      else .ok (s.mkRelease i s.iss.ep none)
    else match s.postChecks (BitVec.ofNat 64 i) (BitVec.ofNat 64 (fld (w.getD 3 0) 0 35)) with
      | .fault c v => .fault c v
      | .ok r => .ok r

/-- The checks that the handles, alignment and slot of a request pass, in the order of R372. -/
def State.cqFault (w : List Word) (s : State) : Option (State → State) :=
  let w2 := w.getD 2 0
  let sn := BitVec.ofNat 3 (fld w2 21 3); let dn := BitVec.ofNat 3 (fld w2 18 3)
  let fs := if cqOp w == 0 then State.copyCheck (s.cf.getH sn) sn false (w.getD 0 0) (cqLen w) else none
  let fd := if cqSlot w then none else State.copyCheck (s.cf.getH dn) dn true (w.getD 1 0) (cqLen w)
  match fs, fd with
  | some (c, v), _ => some (fun t => t.raise c v)
  | none, some (c, v) => some (fun t => t.raise c v)
  | none, none =>
    if !cqAligned w (s.cf.getH sn) (s.cf.getH dn) then some (fun t => t.raise60 2)
    else if cqSlot w && !cqSlotOk w then some (fun t => t.raise60 3)
    else none

/-- The copy barrier that a request counts on, if any (R368). -/
def cqBar (w : List Word) : Option Nat := if bitOf (w.getD 2 0) 10 then some (fld (w.getD 2 0) 11 5) else none
/-- A copy barrier. -/
def CopyPort.bar (c : CopyPort) (b : Nat) : CopyBar := vget (CopyBar.mk 0 false false) c.bars b
/-- Whether a barrier can count no more requests (R372). -/
def CopyPort.barFull (c : CopyPort) (bar : Option Nat) : Bool := match bar with | some b => 65535 ≤ (c.bar b).count | none => false
/-- One more request counted on a barrier (R380). -/
def CopyPort.countBar (c : CopyPort) (bar : Option Nat) : CopyPort :=
  match bar with
  | some b => { c with bars := vset c.bars b { c.bar b with count := (c.bar b).count + 1 } }
  | none => c

/-- A held bundle keeps its successor as it was fixed when it was first issued (R199). -/
def State.keepSucc (s : State) (sw : SuccWord) : State :=
  s.modCf (fun f => { f with latch := f.latch.map (fun l => { l with succ := sw.rel? }) })
/-- The successor that a held bundle has kept. -/
def State.keptSucc (s : State) : SuccWord :=
  match s.cf.latch.bind Latch.succ with
  | some r => .ok r
  | none => .none
/-- A checked request enters the core's copy FIFO (R372). -/
def State.enterFifo (s : State) (w : List Word) (sw : SuccWord) (rd : Reg) : State :=
  let w2 := w.getD 2 0
  let s := s.modCf (fun f => { f with answer := none })
  let (u, s) := s.newResult rd
  let (id, s) := s.fresh
  let q := CopyReq.mk s.iss.ep (cqEngine w) w (s.cf.getH (BitVec.ofNat 3 (fld w2 21 3)))
    (s.cf.getH (BitVec.ofNat 3 (fld w2 18 3))) s.cf.asid sw.rel? s.iss.win s.cf.fid u (cqBar w) id none none s.cf.level.toNat
  let s := s.acceptSucc sw
  let s := s.modCopy s.iss.ep (fun c => { c.countBar (cqBar w) with fifo := c.fifo ++ [CopyEnt.mk id q false false] })
  s.releaseThen (widerScope (cqScope w) (succScope s.iss.ep sw.rel?)) [(4, 0, 0, .copyReady s.iss.ep (some id))]
/-- `CPY` (R372). Its release is at the wider of the scope that the request names and the successor's (log entry 64). A `CPY` that stalls on
a full FIFO has read and checked its block, which is not read again. -/
def execCpy (n : Bool) (rs1 rd : Reg) (s : State) : Out :=
  let o := s.xr rs1
  let w := (List.range 4).map (fun k => s.lmWordInOrder (o.toNat + 8 * k))
  let enter := fun (w : List Word) (sw : SuccWord) => s.withRoom (if rd == 0 then 0 else 1) 1 (fun s => s.enterFifo w sw rd)
  .next (match s.cf.answer with
  | some w => if 4 ≤ s.cc.copy.fifo.length then s.hold .copyFifo else enter w s.keptSucc
  | none =>
    if !zeroField o 19 45 || o.toNat % 8 != 0 || o.toNat + 32 > 0x80000 then s.raise60 0
    else if !cqOk w then s.raise60 1
    else match s.cqFault w with
    | some k => k s
    | none => match s.cqSucc w with
      | .bad => s.raise60 1
      | .fault c v => s.raise c v
      | sw =>
        if s.det && (n || rd != 0) then s.raise 51 0
        else if s.cc.copy.barFull (cqBar w) then s.raise60 1
        else if 4 ≤ s.cc.copy.fifo.length then
          if n then (if rd == 0 then s.raise60 4
            else s.withRoom 1 0 (fun s => let (u, s) := s.newResult rd; s.answerCf u (BitVec.ofNat 64 (2 ^ 63 + 1))))
          else ((s.hold .copyFifo).modCf (fun f => { f with answer := some w })).keepSucc sw
        else enter w sw)

/-! ## The copy FIFO and acceptance (R373, R391) -/

/-- The head of a core's copy FIFO sent to its engine once its release condition holds; `again` after a Ready. -/
def State.sendHead (s : State) (ep : Nat) (again : Bool) : State :=
  match (s.core ep).copy.fifo with
  | [] => s
  | e :: l =>
    if e.ready && (again || !e.sent) then
      (s.modCopy ep (fun c => { c with fifo := { e with sent := true } :: l })).send 0 ep e.q.engine (.copyRequest e.q)
    else s

/-- `COPY_READY` (R391): a request's release condition holds, or the engine has a free slot; the head is sent. -/
def execCopyReady (ep : Nat) (entry : Option Nat) (s : State) : Out :=
  let mark := fun (e : CopyEnt) => if some e.id == entry then { e with ready := true } else e
  .next ((s.modCopy ep (fun c => { c with fifo := c.fifo.map mark })).sendHead ep entry.isNone)

/-- Up to four transfers of an engine are ACTIVE, in the order of their identifiers (R367). -/
def State.engineKick (s : State) (ep : Nat) : State :=
  let e := s.engine ep
  match e.xfers.find? (fun t => !t.active) with
  | none => s
  | some t =>
    if 4 ≤ (e.xfers.filter (fun t => t.active)).length then s
    else
      let on := fun (x : Transfer) => if x.id == t.id then { x with active := true } else x
      (s.modEngine ep (fun e => { e with xfers := e.xfers.map on })).laterOnce (.transferBegin ep t.id)

/-- The transfer word of a transfer (R373). -/
def transferWord (engine tid : Nat) : Word :=
  BitVec.ofNat 64 (tid % 2 ^ 48 + engine % 32 * 2 ^ 48 + epSlab engine * 2 ^ 54)

/-- `COPY_REQUEST` (R373): the engine accepts when it has a free slot; otherwise it defers a core's request, and an agent's waits. -/
def execCopyRequest (q : CopyReq) (s : State) : Out :=
  let e := s.engine q.engine
  .next (if 64 ≤ e.xfers.length then
      if epClass q.src == 3 then s.requeue 0 q.src q.engine (.copyRequest q)
      else (s.modEngine q.engine (fun e => { e with deferred := e.deferred.filter (fun x => x != q.src) ++ [q.src] })).send
        1 q.engine q.src (.copyDeferral q)
    else
      let slot := ((List.range 64).find? (fun k => !e.xfers.any (fun t => t.slot == k))).getD 0
      let t := Transfer.mk slot e.nextId false false q 0 [] [] [] 0 false none
      let s := s.modEngine q.engine (fun e => { e with xfers := e.xfers ++ [t], nextId := (e.nextId + 1) % 2 ^ 48 })
      (s.send 1 q.engine q.src (.copyAcceptance q t.id)).engineKick q.engine)

/-- `COPY_ACCEPTANCE` (R373): the FIFO entry frees, the result is the transfer word, the next head is sent. -/
def execCopyAcceptance (q : CopyReq) (tid : Nat) (s : State) : Out :=
  .next (if epClass q.src == 3 then s
    else
      let s := s.modCopy q.src (fun c => { c with fifo := c.fifo.filter (fun e => e.id != q.tag) })
      (s.answerWord q.src q.win q.fid q.uid (transferWord q.engine tid)).sendHead q.src false)

/-- `COPY_DEFERRAL` (R391): the request stays at the head of the FIFO until the engine is ready. -/
def execCopyDeferral (q : CopyReq) (s : State) : Out :=
  .next (s.modCopy q.src (fun c => { c with fifo := c.fifo.map (fun e => if e.id == q.tag then { e with sent := true } else e) }))

/-! ## Philox (R369) -/

/-- One round of Philox-4x32. -/
def philoxRound (c : Nat × Nat × Nat × Nat) (k0 k1 : Nat) : Nat × Nat × Nat × Nat :=
  let p0 := 0xD2511F53 * c.1
  let p1 := 0xCD9E8D57 * c.2.2.1
  ((p1 / 2 ^ 32) ^^^ c.2.1 ^^^ k0, p1 % 2 ^ 32, (p0 / 2 ^ 32) ^^^ c.2.2.2 ^^^ k1, p0 % 2 ^ 32)
/-- Rounds of Philox-4x32 with the key raised after each. -/
def philoxRounds : Nat → Nat × Nat × Nat × Nat → Nat → Nat → Nat × Nat × Nat × Nat
  | 0, c, _, _ => c
  | n + 1, c, k0, k1 =>
    philoxRounds n (philoxRound c k0 k1) ((k0 + 0x9E3779B9) % 2 ^ 32) ((k1 + 0xBB67AE85) % 2 ^ 32)
/-- Block `i` of a RANDOM request (R369). -/
def philoxBlock (k0 k1 stream i : Nat) : List Nat :=
  let c := philoxRounds 10 (i % 2 ^ 32, stream % 2 ^ 32, 0, 0) k0 k1
  [c.1, c.2.1, c.2.2.1, c.2.2.2]
/-- The word that a raw word gives: itself, or a uniform FP32 value (R369). -/
def randomWord (uniform : Bool) (w : Nat) : Nat :=
  if uniform then (roundFin .f32 0 false (w / 256) (-24)).1 else w

/-- Bytes `off` to `off + n - 1` of a FILL or RANDOM request (R369). -/
def cqMade (w : List Word) (off n : Nat) : List Byte :=
  if cqOp w == 2 then (List.range n).map (fun j => BitVec.ofNat 8 ((w.getD 0 0).toNat >>> (8 * ((off + j) % 8))))
  else
    let k0 := cqSrc w % 2 ^ 32; let k1 := cqSrc w / 2 ^ 32
    let stream := fld (w.getD 3 0) 35 20
    let uni := fld (w.getD 2 0) 27 2 == 1
    let blk := fun (i : Nat) => (philoxBlock k0 k1 stream i).flatMap (fun v => toBytes 4 (randomWord uni v))
    (((List.range (n / 16 + 2)).flatMap (fun i => blk (off / 16 + i))).drop (off % 16)).take n

/-! ## Translation by an engine (R367, R374, R410) -/

/-- The walk of an engine leaves its translation cached. -/
def State.noteEngine (s : State) (ep : Nat) (asid : BitVec 16) (w : Walk) : State :=
  (s.modSlab (epSlab ep) (fun b => b.noteWalk asid w.read)).modEngine ep (fun e => { e with tlb := tlbFill e.tlb w.leaf })

/-- A page translated by an engine: how it ends, the bits of its page, and the state after. -/
def State.engineXlate (s : State) (ep : Nat) (asid : BitVec 16) (va : Nat) (need : Need) : TRes × Nat × State :=
  let tlb := (s.engine ep).tlb
  let w := s.translate tlb (epSlab ep) asid va need
  let hit := tlb.find? (fun e => e.asid == asid && e.page == va / 2 ^ e.bits * 2 ^ e.bits)
  let bits := match hit, w.leaf with
    | some e, _ => e.bits
    | none, some e => e.bits
    | none, none => 12
  (w.res, bits, s.noteEngine ep asid w)

/-- A destination range translated page by page (R374): its pieces, or the fault kind and address. -/
def State.mapRange (s : State) (ep : Nat) (asid : BitVec 16) (need : Need) : Nat → Nat → Nat → Nat → List Extent →
    Sum (List Extent) (Nat × Nat) × State
  | 0, _, _, _, acc => (.inl acc.reverse, s)
  | k + 1, va, off, len, acc =>
    if len == 0 then (.inl acc.reverse, s)
    else
      match s.engineXlate ep asid va need with
      | (.pageFault, _, s) => (.inr (2, va), s)
      | (.unpopulated, _, s) => (.inr (4, va), s)
      | (.ok pa ns, bits, s) =>
        let n := Nat.min len (2 ^ bits - va % 2 ^ bits)
        s.mapRange ep asid need k (va + n) (off + n) (len - n) (Extent.mk off pa n ns :: acc)

/-- Physically contiguous ranges merged; the list is in rising order of address. -/
def mergeRanges : List (Nat × Nat) → List (Nat × Nat)
  | [] => []
  | (a, b) :: l =>
    match mergeRanges l with
    | [] => [(a, b)]
    | (c, d) :: r => if c ≤ b then (a, Nat.max b d) :: r else (a, b) :: (c, d) :: r
/-- The smallest gap between neighbours. -/
def smallestGap : List (Nat × Nat) → Option Nat
  | (_, b) :: (c, d) :: l => match smallestGap ((c, d) :: l) with
    | some g => some (Nat.min (c - b) g)
    | none => some (c - b)
  | _ => none
/-- The first two neighbours with a gap become one. -/
def closeGap (g : Nat) : List (Nat × Nat) → List (Nat × Nat)
  | (a, b) :: (c, d) :: l => if c - b == g then (a, d) :: l else (a, b) :: closeGap g ((c, d) :: l)
  | l => l
/-- At most 64 ranges (R410). -/
def limitRanges : Nat → List (Nat × Nat) → List (Nat × Nat)
  | 0, l => l
  | k + 1, l => if l.length ≤ 64 then l else match smallestGap l with | some g => limitRanges k (closeGap g l) | none => l

/-- The claims of a destination, in the order of R410: slab, slice, address. -/
def claimsFor (m : List Extent) : List ClaimReq :=
  let rs := m.map (fun e => (lineOf e.pa, lineOf (e.pa + e.len + 127)))
  let ext := limitRanges rs.length (mergeRanges (sortBy (fun p => p.1) rs))
  let homes := fun (p : Nat × Nat) => ((List.range (Nat.min 64 ((p.2 - p.1) / 128))).map (fun i => homeOf (p.1 + 128 * i))).eraseDups
  let all := ext.flatMap (fun p => (homes p).map (fun h => ClaimReq.mk h p.1 p.2))
  sortBy (fun c => c.home * 2 ^ 53 + c.base) all

/-! ## A transfer at work (R374, R376, R410, R411) -/

/-- An engine's transfer. -/
def Engine.find (e : Engine) (tid : Nat) : Option Transfer := e.xfers.find? (fun t => t.id == tid)
/-- The state with a transfer replaced. -/
def State.putXfer (s : State) (ep : Nat) (t : Transfer) : State :=
  s.modEngine ep (fun e => { e with xfers := e.xfers.map (fun x => if x.id == t.id then t else x) })

/-- A request of an engine to a home. -/
def engineReq (k : HomeKind) (ep : Nat) (t : Transfer) (home line : Nat) : HomeReq :=
  HomeReq.mk k (agentId ep) ep t.q.asid home line false 0 0 false 0 t.id (t.q.dh.policy == 1) (t.q.dh.policy == 2) t.slot false
    t.q.prio false

/-- The device of a LINK handle. -/
def linkDev (h : Handle) : BitVec 22 := BitVec.ofNat 22 (fld h.w2 42 22)
/-- A request of an engine to another device, by the Fjarlink port of its route (R381, R260). -/
def State.sendLink (s : State) (ep : Nat) (t : Transfer) (h : Handle) (addr n : Nat) (op : LinkOp) : State :=
  s.send 0 ep fjPlace (.fjarlinkPacket 31 (.linkRequest (LinkReq.mk s.srcDev (linkDev h) ep t.id t.q.asid addr n op (h.policy == 1))))
/-- A claim sent, or its end: to a home, or to the device that owns a LINK destination (R381, R410, R411). -/
def State.sendClaim (s : State) (ep : Nat) (t : Transfer) (c : ClaimReq) (fin : Bool) : State :=
  if c.home == fjPlace then s.sendLink ep t t.q.dh c.base (c.limit - c.base) (if fin then .claimEnd else .claim)
  else s.askHome { engineReq (if fin then .claimEnd else .claim) ep t c.home c.base with limit := c.limit }

/-- A transfer that has stopped frees its claims, then completes (R411). -/
def State.wrapUp (s : State) (ep : Nat) (t : Transfer) : State :=
  if t.busy || t.ends != 0 then s.putXfer ep t
  else if t.held.isEmpty then (s.putXfer ep t).laterOnce (.transferComplete ep t.id)
  else
    let s := s.putXfer ep { t with held := [], ends := t.held.length }
    t.held.foldl (fun u c => u.sendClaim ep t c true) s

/-- The next claim sent, or the transfer begun (R410). -/
def State.nextClaim (s : State) (ep : Nat) (t : Transfer) : State :=
  match t.toClaim with
  | [] => (s.putXfer ep { t with begun := true }).later (.transferBegin ep t.id)
  | c :: _ => (s.putXfer ep { t with busy := true }).sendClaim ep t c false

/-- The slot of a transfer with a slot destination: its geode and number (R382). -/
def cqTarget (q : CopyReq) : Nat × Nat := (epSlab q.engine * 128 + fld (q.words.getD 1 0) 8 7, fld (q.words.getD 1 0) 0 7)

/-- How a transfer finds its destination when it begins: a fault kind and address, or its pieces (R374, R376). -/
def State.beginMap (s : State) (ep : Nat) (t : Transfer) : Sum (List Extent) (Nat × Nat) × State :=
  let q := t.q
  let n := cqLen q.words
  let a := q.dh.base.toNat + cqDst q.words
  let none' := [Extent.mk 0 0 0 false]
  let srcLink := cqOp q.words == 0 && q.sh.space == 5
  let bad := fun (h : Handle) => !s.didv || (s.fjPort (linkDev h)).isNone
  if srcLink && bad q.sh then (.inr (7, q.sh.base.toNat + cqSrc q.words), s)
  else if cqSlot q.words then (.inl none', s)
  else match q.dh.space with
    | 2 => s.mapRange ep q.asid .write (n / 4096 + 2) a 0 n []
    | 3 =>
      if (groupsTouched (a % 2 ^ 32) n).any (fun g => (s.group (a / 2 ^ 32) g).st != 0 || (s.group (a / 2 ^ 32) g).disabled) then (.inr (5, a), s)
      else (.inl none', s)
    | 5 => if bad q.dh then (.inr (7, a), s) else (.inl none', s)
    | _ => (.inl none', s)

/-- The groups of a transfer's bedrock destination: its slab and groups. -/
def cqGroups (q : CopyReq) : Nat × List Nat :=
  let a := q.dh.base.toNat + cqDst q.words
  if !cqSlot q.words && q.dh.space == 3 then (a / 2 ^ 32, groupsTouched (a % 2 ^ 32) (cqLen q.words)) else (0, [])

/-- The claims of a transfer that begins: of a GLOBAL destination at the slices, of a LINK one at its device (R381, R410). -/
def Transfer.claims (t : Transfer) (m : List Extent) : List ClaimReq :=
  let a := t.q.dh.base.toNat + cqDst t.q.words
  if cqSlot t.q.words then []
  else if t.q.dh.space == 2 then claimsFor m
  else if t.q.dh.space == 5 then [ClaimReq.mk fjPlace a (a + cqLen t.q.words)]
  else []
/-- A transfer begins (R374): destination translated, groups tested, lines claimed, a slot's turn taken. -/
def State.beginXfer (s : State) (ep : Nat) (t : Transfer) : State :=
  match s.beginMap ep t with
  | (.inr (k, a), s) => s.later (.transferFault ep t.id k a)
  | (.inl m, s) =>
    let t := { t with dmap := m, toClaim := t.claims m }
    let (sl, gs) := cqGroups t.q
    let s := gs.foldl (fun u g => u.modGroup sl g (fun b => { b with begun := b.begun + 1 })) s
    if cqSlot t.q.words then
      let (g, k) := cqTarget t.q
      let (n, s) := s.nextSeq g
      let l := SlotLoad.mk n (fld (t.q.words.getD 1 0) 16 3) (.copy ep t.id) none true false
      ((s.putXfer ep { t with begun := true }).modArr g (fun a => a.modSlot k (fun x => { x with loads := x.loads ++ [l] }))).arrayKick g
    else s.nextClaim ep t

/-- The slot load of a transfer that has the slot's turn (R309). -/
def State.slotTurn (s : State) (ep : Nat) (t : Transfer) : Bool :=
  let (g, k) := cqTarget t.q
  match ((s.arr g).slot k).loads with
  | l :: _ => l.src == .copy ep t.id && ((s.arr g).readers k l.seq).isEmpty
  | [] => false

/-- The physical address of a byte of a GLOBAL destination. -/
def Transfer.dstPa (t : Transfer) (off : Nat) : Nat :=
  match t.dmap.find? (fun e => e.off ≤ off && off < e.off + e.len) with
  | some e => e.pa + (off - e.off)
  | none => 0
/-- Whether the page of a byte of a GLOBAL destination is NS (R123). -/
def Transfer.dstNs (t : Transfer) (off : Nat) : Bool := t.dmap.any (fun e => e.off ≤ off && off < e.off + e.len && e.ns)

/-- The greatest of 1, 2, 4 and 8 bytes that an address is aligned to and a number of bytes has room for: an access of an LM port
(R236). -/
def lmPiece (a n : Nat) : Nat := if a % 8 == 0 && 8 ≤ n then 8 else if a % 4 == 0 && 4 ≤ n then 4 else if a % 2 == 0 && 2 ≤ n then 2 else 1
/-- How many bytes from the transfer's offset on can be moved together: within a line of either side, a column of a slot, a group of
bedrock. -/
def Transfer.reach (t : Transfer) (srcPa : Nat) : Nat :=
  let left := cqLen t.q.words - t.off
  let n := Nat.min left 128
  let src := if t.q.sh.space == 5 then t.q.sh.base.toNat + cqSrc t.q.words + t.off else srcPa
  let dst := t.q.dh.base.toNat + cqDst t.q.words + t.off
  let n := if cqOp t.q.words == 0 && (t.q.sh.space == 2 || t.q.sh.space == 5) then Nat.min n (128 - src % 128) else n
  if cqSlot t.q.words then let c := cb (fld (t.q.words.getD 1 0) 16 3); Nat.min n (c - t.off % c)
  else if t.q.dh.space == 2 then Nat.min n (128 - t.dstPa t.off % 128)
  else if t.q.dh.space == 3 || t.q.dh.space == 5 then Nat.min n (128 - dst % 128)
  else n
/-- How many bytes from the transfer's offset on are moved together: what can be, and where a side is an LM, an aligned access of at most
8 bytes there (R236, R391). -/
def Transfer.piece (t : Transfer) (srcPa : Nat) : Nat :=
  let lm := fun (h : Handle) => h.space == 0 || h.space == 1
  let n := t.reach srcPa
  let n := if cqOp t.q.words == 0 && lm t.q.sh then lmPiece (t.q.sh.base.toNat + cqSrc t.q.words + t.off) n else n
  if !cqSlot t.q.words && lm t.q.dh then lmPiece (t.q.dh.base.toNat + cqDst t.q.words + t.off) n else n

/-- A transfer goes on by `n` bytes, or stops if it has been told to. -/
def State.advance (s : State) (ep : Nat) (t : Transfer) (n : Nat) : State :=
  let t := { t with busy := false, off := t.off + n }
  let s := s.modEngine ep (fun e => { e with bytes := (e.bytes + n) % 2 ^ 64 })
  if t.stop.isSome then s.wrapUp ep t
  else if cqLen t.q.words ≤ t.off then s.wrapUp ep { t with stop := some (0, 0) }
  else (s.putXfer ep t).later (.transferBegin ep t.id)

/-- An access of an engine to an LM port. -/
def engineAccess (ep : Nat) (t : Transfer) (owner addr : Nat) (op : AccOp) (n : Nat) : Access :=
  Access.mk ep t.slot t.id t.q.asid t.id 1 owner addr none n false false op t.q.prio

/-- The LM port and address of a LOCAL or REMOTE side. -/
def lmSide (q : CopyReq) (h : Handle) (off : Nat) : Nat × Nat := (if h.space == 0 then q.src else h.target, h.base.toNat + off)

/-- Whether a write of a transfer's destination up to a physical address `pa`, `off` bytes of the transfer having then been written, is the
last of its line, so that its claim may pass it: nothing of the destination is left to write in the claim at or below that line. Extents
mapped out of order thus keep PROG from passing a line that is not written yet (R411; log entry 80). -/
def Transfer.lastAt (t : Transfer) (pa off : Nat) : Bool :=
  let top := lineOf (pa - 1) + 128
  let lo := (t.held.filter (fun c => c.base < top && top ≤ c.limit)).foldl (fun m c => Nat.min m c.base) top
  t.dmap.all (fun e =>
    let k := Nat.max e.off off - e.off
    e.len ≤ k || e.pa + e.len ≤ lo || top ≤ e.pa + k)
/-- Bytes written to the destination of a transfer, from its offset on. -/
def State.xferWrite (s : State) (ep : Nat) (t : Transfer) (b : List Byte) : State :=
  let q := t.q
  let n := b.length
  let off := t.off
  if cqSlot q.words then
    let (g, k) := cqTarget q
    let c := cb (fld (q.words.getD 1 0) 16 3)
    let mine := fun (l : SlotLoad) => if l.src == .copy ep t.id then { l with started := true } else l
    let s := s.modArr g (fun a => a.modSlot k (fun x => { x with full := false, loads := x.loads.map mine }))
    (s.putXfer ep { t with busy := true }).send 0 ep (geodeEp g) (.slotWrite ep t.id g k (off / c) (off % c) b)
  else match q.dh.space with
    | 2 =>
      let pa := t.dstPa off
      let o := pa % 128
      let r := { engineReq .claimWrite ep t (homeOf pa) (lineOf pa) with
        data := linePut 0 o b
        mask := BitVec.ofNat 128 ((2 ^ n - 1) <<< o)
        last := t.lastAt (pa + n) (off + n)
        limit := n
        noalloc := q.dh.policy == 1 || t.dstNs off }
      (s.putXfer ep { t with busy := true }).askHome r
    | 3 =>
      let a := q.dh.base.toNat + cqDst q.words + off
      if inWindow s.sched (a % 2 ^ 32 / 2 ^ 28) then ((s.putXfer ep { t with busy := false }).laterOnce .refreshWindow).later (.transferBegin ep t.id)
      else (s.poke (bedKey (a / 2 ^ 32) (a % 2 ^ 32)) b).advance ep t n
    | 5 => (s.putXfer ep { t with busy := true }).sendLink ep t q.dh (q.dh.base.toNat + cqDst q.words + off) n (.write b)
    | _ =>
      let (o, a) := lmSide q q.dh (cqDst q.words + off)
      (s.putXfer ep { t with busy := true }).send 0 ep o (.store (engineAccess ep t o a (.store b) n))

/-- The next piece of a transfer read from its source (R374). -/
def State.xferRead (s : State) (ep : Nat) (t : Transfer) : State :=
  let q := t.q
  let off := t.off
  if cqOp q.words != 0 then s.xferWrite ep t (cqMade q.words off (t.piece 0))
  else
    let a := q.sh.base.toNat + cqSrc q.words + off
    match q.sh.space with
    | 2 => match s.engineXlate ep q.asid a .read with
      | (.pageFault, _, s) => s.later (.transferFault ep t.id 1 a)
      | (.unpopulated, _, s) => s.later (.transferFault ep t.id 3 a)
      | (.ok pa ns, _, s) =>
        (s.putXfer ep { t with busy := true }).askHome { engineReq .rds ep t (homeOf pa) (lineOf pa) with
          once := true, limit := t.piece pa, noalloc := q.sh.policy == 1 || ns, pin := q.sh.policy == 2, mask := BitVec.ofNat 128 (pa % 128) }
    | 5 => (s.putXfer ep { t with busy := true }).sendLink ep t q.sh a (t.piece 0) .read
    | _ =>
      let (o, la) := lmSide q q.sh (cqSrc q.words + off)
      (s.putXfer ep { t with busy := true }).send 0 ep o (.load (engineAccess ep t o la (.load (t.piece 0)) (t.piece 0)))

/-- Whether a transfer accepted before another is ACTIVE and has not begun (R367). -/
def Engine.earlierWaits (e : Engine) (tid : Nat) : Bool :=
  (e.xfers.takeWhile (fun x => x.id != tid)).any (fun x => x.active && x.dmap.isEmpty && x.stop.isNone)
/-- `TRANSFER_BEGIN` (R374): an ACTIVE transfer begins, after those with earlier identifiers (R367); a begun one moves its next
piece. -/
def execTransferBegin (ep tid : Nat) (s : State) : Out :=
  .next (match (s.engine ep).find tid with
    | none => s
    | some t =>
      if !t.active || t.busy || t.stop.isSome then s
      else if t.dmap.isEmpty then (if (s.engine ep).earlierWaits tid then s.later (.transferBegin ep tid) else s.beginXfer ep t)
      else if !t.begun then s
      else if cqSlot t.q.words && !s.slotTurn ep t then s
      else s.xferRead ep t)

/-- Bytes from a source reach the engine: written on, or the transfer stops. Of a piece with an uncorrectable error the words before
the failing one, if there are any, are written first (R376). -/
def State.xferBytes (s : State) (ep : Nat) (t : Transfer) (b : List Byte) (poison : Bool) : State :=
  if t.stop.isSome then s.wrapUp ep { t with busy := false }
  else if poison && b.isEmpty then (s.putXfer ep { t with busy := false }).later (.transferFault ep t.id 6 (t.q.sh.base.toNat + cqSrc t.q.words + t.off))
  else s.xferWrite ep t b

/-- A DATA response reaches an engine: the bytes of a source, or the acknowledgement of a store. -/
def State.engineData (s : State) (a : Access) (b : List Byte) (poison : Bool) : State :=
  match (s.engine a.core).find a.fid with
  | none => s
  | some t => match a.op with
    | .load n => s.xferBytes a.core t (if poison then (let k := firstBad s.bad (lmKey a.owner a.addr) n; if k < n then b.take k else []) else b) poison
    | _ => s.advance a.core t a.part

/-- A line reaches an engine (R409). -/
def State.engineLine (s : State) (q : HomeReq) (d : BitVec 1024) (poison : Bool) : State :=
  match (s.engine q.src).find q.tid with
  | none => s
  | some t => s.xferBytes q.src t (if poison then [] else lineBytes d q.mask.toNat q.limit) poison

/-- A claim of a transfer is acknowledged: the next is sent, or the transfer goes on (R410). -/
def State.claimHeld (s : State) (ep : Nat) (t : Transfer) : State :=
  match t.toClaim with
  | c :: l =>
    let t := { t with busy := false, toClaim := l, held := t.held ++ [c] }
    if t.stop.isSome then s.wrapUp ep t else s.nextClaim ep t
  | [] => s
/-- The end of a claim is acknowledged (R411). -/
def State.claimEnded (s : State) (ep : Nat) (t : Transfer) : State :=
  let t := { t with ends := t.ends - 1 }
  if t.ends == 0 then s.wrapUp ep t else s.putXfer ep t
/-- An acknowledgement of a home reaches an engine: a claim held, a line written, a claim ended (R410, R411). -/
def State.engineAck (s : State) (q : HomeReq) : State :=
  match (s.engine q.src).find q.tid with
  | none => s
  | some t => match q.kind with
    | .claim => s.claimHeld q.src t
    | .claimWrite => s.advance q.src t q.limit
    | .claimEnd => s.claimEnded q.src t
    | _ => s

/-- The fault kind of an answer over Fjarlink (R376): a page fault there, no route, uncorrectable data, an unpopulated address. -/
def linkFault (op : LinkOp) (status : Nat) : Nat :=
  match status with
  | 1 => 8 | 2 => 7 | 3 => 6 | _ => if op == .read then 3 else 4
/-- An answer over Fjarlink reaches an engine (R381): 0 done, 1 page fault, 2 unreachable, 3 uncorrectable data, 4 unpopulated; a fault
answer holds the virtual address that it is about (log entry 80). -/
def State.engineLink (s : State) (q : LinkReq) (status : Nat) (b : List Byte) : State :=
  match (s.engine q.engine).find q.tid with
  | none => s
  | some t => match q.op with
    | .claimEnd => s.claimEnded q.engine t
    | op =>
      if status != 0 then
        if t.stop.isSome then s.wrapUp q.engine { t with busy := false }
        else (s.putXfer q.engine { t with busy := false }).later
          (.transferFault q.engine t.id (linkFault op status) (if b.isEmpty then q.addr else ofBytes b))
      else match op with
      | .claim => s.claimHeld q.engine t
      | .write _ => s.advance q.engine t q.n
      | _ => s.xferBytes q.engine t b false

/-- `SLOT_WRITE` (R382, R391): bytes of one column of a slot written, and acknowledged to the engine. -/
def execSlotWrite (engine tid g slot col off : Nat) (bytes : List Byte) (s : State) : Out :=
  .next ((s.poke (micaKey g (slot * 0x8000 + 512 * col + off)) bytes).send 1 (geodeEp g) engine (.slotWriteAck engine tid bytes.length))
/-- The acknowledgement of a slot write (R391): the engine goes on. -/
def State.slotWritten (s : State) (engine tid n : Nat) : State :=
  match (s.engine engine).find tid with
  | none => s
  | some t => s.advance engine t n

/-- `TRANSFER_FAULT` (R376): the fault is logged and the transfer stops with STATUS 2. -/
def execTransferFault (ep tid kind addr : Nat) (s : State) : Out :=
  let e := s.engine ep
  .next (match e.find tid with
    | none => s
    | some t =>
      if t.stop.isSome then s
      else
        let i := e.logIdx
        let s := s.modEngine ep (fun e => { e with log := e.log.put i (FaultEnt.mk tid kind addr t.off t.q.asid), logIdx := (i + 1) % 64 })
        let s := if kind == 6 then s.machineCheck ep 7 else s
        s.wrapUp ep { t with stop := some (2, kind * 4096 + i * 64) })

/-- A slot copy that still waits for its slot is withdrawn (R309). -/
def State.withdrawCopy (s : State) (ep : Nat) (t : Transfer) : State :=
  let (g, k) := cqTarget t.q
  if cqSlot t.q.words && !s.slotTurn ep t then
    (s.modArr g (fun a => a.modSlot k (fun x => { x with loads := x.loads.filter (fun l => l.src != .copy ep t.id) }))).arrayKick g
  else s
/-- A transfer cancelled by firmware (R393). -/
def State.cancelXfer (s : State) (ep tid : Nat) : State :=
  match (s.engine ep).find tid with
  | none => s
  | some t => if t.stop.isSome then s else (s.withdrawCopy ep t).wrapUp ep { t with stop := some (1, 0) }

/-- The copy barrier of a transfer counted down (R375, R380), at the core that a vacated source has moved to (R228). -/
def State.barDown (s : State) (q : CopyReq) (status : Nat) : State :=
  match q.bar with
  | none => s
  | some b => s.modCopy (if (s.core q.src).code == 3 && bitOf (s.core q.src).fwd 63 then fld (s.core q.src).fwd 0 12 else q.src) (fun c =>
      let x := vget (CopyBar.mk 0 false false) c.bars b
      let n := x.count - 1
      { c with bars := vset c.bars b (CopyBar.mk n (x.done || n == 0) (x.flt || status != 0)) })

/-- What a completed transfer leaves behind at its slot and groups (R309, R384). -/
def State.xferLeave (s : State) (ep : Nat) (t : Transfer) (status : Nat) : State :=
  let (sl, gs) := cqGroups t.q
  let s := if t.dmap.isEmpty then s
    else gs.foldl (fun u g => (u.modGroup sl g (fun b => { b with begun := b.begun - 1 })).groupKick sl g) s
  if !cqSlot t.q.words then s
  else
    let (g, k) := cqTarget t.q
    match ((s.arr g).slot k).loads.find? (fun l => l.src == .copy ep t.id) with
    | none => s
    | some l => s.slotEnd g k l.seq (status == 0) 0 0

/-- An engine with a free slot tells the next core it has deferred, in round-robin order of endpoint (R391). -/
def State.tellReady (s : State) (ep : Nat) : State :=
  let e := s.engine ep
  let next := match (sortBy (fun x => x) e.deferred).find? (fun x => e.rr < x) with
    | some x => some x
    | none => (sortBy (fun x => x) e.deferred).head?
  match next with
  | none => s
  | some x =>
    (s.modEngine ep (fun e => { e with deferred := e.deferred.filter (fun y => y != x), rr := x })).send 0 ep x (.copyReady x none)

/-- A transfer COMPLETE (R374, R375): it leaves its engine, its barrier counts down, its successor is released, its
firing or host packet completed. -/
def State.xferDone (s : State) (ep : Nat) (t : Transfer) (status detail : Nat) : State :=
  let s := s.modEngine ep (fun e => { e with xfers := e.xfers.filter (fun x => x.id != t.id) })
  let s := (s.xferLeave ep t status).barDown t.q status
  let s := match t.q.fire with | some f => s.send 0 ep f.engine (.firingCompletion f status detail) | none => s
  (((s.releaseSucc ep t.q.rel status detail).hostDone t.q.host status detail).engineKick ep).tellReady ep

/-! ## Probes and barriers (R378-R380) -/

/-- The watermark of an engine (R375). -/
def Engine.wm (e : Engine) : Nat := match e.xfers with | t :: _ => t.id | [] => e.nextId

/-- `CPYST` (R379). -/
def execCpyst (rs1 rd : Reg) (s : State) : Out :=
  let w := s.xr rs1
  let e := s.engine (copyEp (fld w 54 2) (fld w 48 5))
  let i := fld w 0 48
  let v := if (e.nextId + 2 ^ 49 - 1 - i) % 2 ^ 48 ≥ 2 ^ 47 then 3 else if e.xfers.any (fun t => t.id == i) then 0 else 1
  .next (if !zeroField w 56 8 || !zeroField w 53 1 then s.raise60 5
    else if s.det then s.raise 51 0
    else s.withRoom (if rd == 0 then 0 else 1) 0 (fun s =>
      let (u, s) := s.newResult rd
      s.answerCf u (BitVec.ofNat 64 v)))

/-- `CPOLL` (R380). -/
def execCpoll (rs1 rd : Reg) (s : State) : Out :=
  let m := s.xr rs1
  let c := s.cc.copy
  let bar := fun (b : Nat) => vget (CopyBar.mk 0 false false) c.bars b
  let hit := ((List.range 32).map (fun k => (c.rot + k) % 32)).find? (fun b => m.getLsbD b && (bar b).done)
  .next (if !zeroField m 32 32 then s.raise60 5
    else if s.det then s.raise 51 0
    else s.withRoom (if rd == 0 then 0 else 1) 0 (fun s =>
      let (u, s) := s.newResult rd
      match hit with
      | none => s.answerCf u (BitVec.ofNat 64 (2 ^ 63))
      | some b =>
        let s := s.modCopy s.iss.ep (fun c => { c with
          bars := vset c.bars b (CopyBar.mk (bar b).count false false), rot := (b + 1) % 32 })
        s.answerCf u (BitVec.ofNat 64 (bitNat (bar b).flt * 256 + b))))

/-! ## Bedrock seals and opens (R384, R385) -/

/-- The groups of a mask. -/
def maskGroups (m : BitVec 16) : List Nat := (List.range 16).filter (fun g => m.getLsbD g)
/-- The bedrock controller of a slab (R16). -/
def bedCtl (sl : Nat) : Nat := agentEp sl 5

/-- A result answered, or, its packet having met an uncorrectable error, a free value that poisons its register (R245). -/
def State.answerOr (s : State) (u : Option Nat) (v : Word) (lost : Bool) : State :=
  match u, lost with
  | some n, true =>
    { s with fv := s.fv + 1 }.later (.variableResultWriteback s.iss.ep s.iss.win s.cf.fid n (.word (Config.freeWord s.fv)) 0 true)
  | _, _ => s.answerCf u v
/-- `BSEAL` and `BOPEN` (R385): checks, the request to the controller, and, when its answer is in, the result, poisoned when the answer was
lost on the way (R245). Operands, successor and its PRIO, ASID and GEN are those of the first issue (R36, R199). The release is at module
scope, which R141 gives a `BOPEN` too (R144). -/
def State.bedrock (s : State) (close : Bool) (rs2 rs1 rd : Reg) : State :=
  let g := s.xr rs1
  let sl := fld g 16 2
  let m := BitVec.ofNat 16 (fld g 0 16)
  if !zeroField g 18 46 || m == 0 || (maskGroups m).any (fun k => (s.group sl k).disabled) then s.raise60 5
  else
    let sw := if s.cf.answer.isSome then s.keptSucc else s.succWord (s.xr rs2)
    let ask := fun (s : State) (rel : Option Release) (id : Nat) (go : Bool) =>
      BedReq.mk close sl m s.cf.fm s.cf.asid rel s.iss.ep s.iss.win s.cf.fid id go none 0
    let go := fun (s : State) (code id : Nat) (lost : Bool) =>
      let s := s.modCf (fun f => { f with answer := none })
      if code != 0 then
        if rd == 0 then s.raise60 4
        else let (u, s) := s.newResult rd; s.answerOr u (BitVec.ofNat 64 code) lost
      else
        let s := s.acceptSucc sw
        let (u, s) := s.newResult rd
        (s.answerOr u 0 lost).releaseThen (widerScope .module (succScope s.iss.ep sw.rel?))
          [(0, s.iss.ep, bedCtl sl, .bedrockRequest (ask s sw.rel? id true))]
    match s.cf.answer with
    | some l => s.withRoom (if rd == 0 then 0 else 1) 1 (fun s => go s ((l.getD 0 0).toNat) ((l.getD 1 0).toNat) (l.length == 3))
    | none => match sw with
      | .bad => s.raise60 1
      | .fault c v => s.raise c v
      | _ =>
        if s.det && rd != 0 then s.raise 51 0
        else if s.cf.waiting then s.hold .answer
        else
          let (id, s) := s.fresh
          (((s.hold .answer).modCf (fun f => { f with waiting := true })).keepSucc sw).send 0 s.iss.ep (bedCtl sl)
            (.bedrockRequest (ask s sw.rel? id false))

/-- `BSEAL` (R385). -/
def execBseal (rs2 rs1 rd : Reg) (s : State) : Out := .next (s.bedrock true rs2 rs1 rd)
/-- `BOPEN` (R385). -/
def execBopen (rs2 rs1 rd : Reg) (s : State) : Out := .next (s.bedrock false rs2 rs1 rd)

/-- The seals and opens of a slab whose groups have all reached their state, and whose release condition holds, release their
successors (R385). -/
def State.bedKick (s : State) (sl : Nat) : State :=
  let finished := fun (q : BedReq) => q.go && q.reached &&& q.groups == q.groups
  let done := (s.slab sl).bedops.filter finished
  let s := s.modSlab sl (fun b => { b with bedops := b.bedops.filter (fun q => !finished q) })
  done.foldl (fun t q => (t.releaseSucc (bedCtl sl) q.rel 0 0).hostDone q.host 0 0) s
/-- A group has reached SEALED or OPEN: the pending seals, or opens, that name it have reached it (R384, R385). -/
def State.groupReached (s : State) (sl g : Nat) (close : Bool) : State :=
  let bit := BitVec.ofNat 16 (2 ^ g)
  (s.modSlab sl (fun b => { b with
    bedops := b.bedops.map (fun q => if q.close == close then { q with reached := q.reached ||| bit } else q) })).bedKick sl

/-- `BEDROCK_REQUEST` (R385): the controller tests owners and states, applies the change and answers; a later word that the
instruction took effect, and that its release condition holds, lets it complete. -/
def execBedrockRequest (q : BedReq) (s : State) : Out :=
  let gs := maskGroups q.groups
  let grp := fun (g : Nat) => s.group q.slab g
  let code := if !q.fm && gs.any (fun g => (grp g).owner != q.asid) then 3
    else if gs.any (fun g => (grp g).st == 1 || (grp g).st == 3) then 1 else 0
  .next (if q.go then
      (s.modSlab q.slab (fun b => { b with
        bedops := b.bedops.map (fun x => if x.id == q.id then { x with go := true, rel := q.rel } else x) })).bedKick q.slab
    else if code != 0 then s.send 1 (bedCtl q.slab) q.src (.bedrockAnswer q code)
    else
      let turn := fun (b : BGroup) => if q.close && b.st == 0 then { b with st := 1 } else if !q.close && b.st == 2 then { b with st := 3 } else b
      let there := gs.filter (fun g => (grp g).st == (if q.close then 2 else 0))
      let q' := { q with reached := BitVec.ofNat 16 (there.foldl (fun n g => n + 2 ^ g) 0) }
      let s := s.modSlab q.slab (fun b => { b with bedops := b.bedops ++ [q'] })
      (gs.foldl (fun t g => (t.modGroup q.slab g turn).groupKick q.slab g) s).send 1 (bedCtl q.slab) q.src (.bedrockAnswer q code))

/-- `BEDROCK_ANSWER` (R385): the hold of the bundle ends; of a host packet, the operation goes on, or is refused (R504). An operation
whose frame has left takes no effect. -/
def execBedrockAnswer (q : BedReq) (code : Nat) (s : State) : Out :=
  .next (if q.host.isSome then
      (if code == 0 then s.send 0 q.src (bedCtl q.slab) (.bedrockRequest { q with go := true }) else s.hostDone q.host 32 0)
    else if (s.frame q.src q.win).fid != q.fid then
      s.modSlab q.slab (fun b => { b with bedops := b.bedops.filter (fun x => x.id != q.id) })
    else s.modFrame q.src q.win (fun f => { f with answer := some [BitVec.ofNat 64 code, BitVec.ofNat 64 q.id], waiting := false }))

/-- `GROUP_SEALED` (R384): a SEALING group with no begun transfer left is SEALED. -/
def execGroupSealed (slab group : Nat) (s : State) : Out :=
  let b := s.group slab group
  .next (if b.st == 1 && b.begun == 0 && !b.disabled then
    (s.modGroup slab group (fun b => { b with st := 2 })).groupReached slab group true else s)
/-- `GROUP_OPENED` (R384): an OPENING group with no B load left is OPEN. -/
def execGroupOpened (slab group : Nat) (s : State) : Out :=
  let b := s.group slab group
  .next (if b.st == 3 && b.loads == 0 && !b.disabled then
    (s.modGroup slab group (fun b => { b with st := 0 })).groupReached slab group false else s)

/-! ## The carve-out (R129-R131, R390) -/

/-- MIN of the live launches (R130). -/
def State.carveMin (s : State) : Nat := s.launches.foldl (fun n l => Nat.max n l.minw) 0
/-- MAX of the live launches (R130). -/
def State.carveMax (s : State) : Nat := Nat.max s.carveMin (s.launches.foldl (fun n l => Nat.max n l.maxw) 0)
/-- A slice takes MIN and MAX, and its carve-out moves into their range (R131). -/
def State.carveTo (s : State) (ep lo hi : Nat) : State :=
  (s.modHome ep (fun h => { h with carveMin := lo, carveMax := hi, carve := Nat.min hi (Nat.max lo h.carve) })).trimCarve ep
/-- The home agents of the module. -/
def allHomes : List Nat := (List.range 4).flatMap (fun sl => (List.range 32).map (fun c => agentEp sl (0x20 + c)))

/-- The slices take MIN and MAX of the live launches (R130). -/
def State.carveAll (s : State) : State := allHomes.foldl (fun t h => t.carveTo h s.carveMin s.carveMax) s

/-- `CARVEOUT_UPDATE` (R130, R390): word of a live launch's new pair, which `launches` holds; a slice recomputes MIN and MAX. -/
def execCarveoutUpdate (home core : Nat) (s : State) : Out :=
  .next ((s.carveTo home s.carveMin s.carveMax).send 1 home core (.carveoutAck core))

/-- `CARVEOUT_SAMPLE` (R131): a slice compares the misses of the interval and moves its carve-out by one way at most. -/
def execCarveoutSample (home : Nat) (s : State) : Out :=
  let h := s.home home
  let p := h.pinMiss; let o := h.ordMiss
  let k := if 8 * p > 8 * o + (p + o) then h.carve + 1 else if 8 * o > 8 * p + (p + o) then h.carve - 1 else h.carve
  .next ((s.setHome home { h with
    carve := Nat.min h.carveMax (Nat.max h.carveMin k), lastPin := p, lastOrd := o, pinMiss := 0, ordMiss := 0 }).trimCarve home)

/-- `LLCFG` (R390). -/
def execLlcfg (rs1 rd : Reg) (s : State) : Out :=
  let x := s.xr rs1
  let lo := fld x 0 4; let hi := fld x 8 4
  let mine := s.launches.filter (fun l => l.asid == s.cf.asid)
  let ep := s.iss.ep
  .next (if !zeroField x 12 52 || !zeroField x 4 4 || hi < lo || 12 < hi then s.raise60 5
    else match mine with
    | [] => s.raise60 5
    | l :: _ => s.withRoom (if rd == 0 then 0 else 1) 0 (fun s =>
      let (u, s) := s.newResult rd
      let s := s.answerCf u (BitVec.ofNat 64 (l.minw + 256 * l.maxw))
      let pair := fun (y : Launch) => if mine.any (fun m => m.id == y.id) then { y with minw := lo, maxw := hi } else y
      let tell := fun (t : State) (m : Launch) => allHomes.foldl (fun t h => t.send 0 ep h (.carveoutUpdate h ep m.id lo hi)) t
      mine.foldl tell { s with launches := s.launches.map pair }))

/-! ## Copies from another device (R381) -/

/-- A range of another device's copy, translated page by page in this device's tables (R127, R381): its pieces, or an answer with the
address that faults. -/
def State.linkMap (s : State) (q : LinkReq) : Nat → Nat → Nat → List Extent → Sum (List Extent) (Nat × Nat)
  | 0, _, _, acc => .inl acc.reverse
  | k + 1, va, len, acc =>
    if len == 0 then .inl acc.reverse
    else
      let w := s.walk 0 q.asid va (if q.op == .read then .read else .write)
      match w.res with
      | .pageFault => .inr (1, va)
      | .unpopulated => .inr (4, va)
      | .ok pa ns =>
        let bits := match w.leaf with | some e => e.bits | none => 12
        let n := Nat.min len (2 ^ bits - va % 2 ^ bits)
        s.linkMap q k (va + n) (len - n) (Extent.mk (va - q.addr) pa n ns :: acc)
/-- A request to a home for another device's transfer, answered at the port where it came in. -/
def linkReq (k : HomeKind) (q : LinkReq) (here home line : Nat) (ns : Bool) : HomeReq :=
  HomeReq.mk k (linkAgent q) here q.asid home line false 0 0 false 0 q.tid (q.noalloc || ns) false 0 false 0 false
/-- Whether a line is the next of a home's claim that is to be written: none of that home's lines between PROG and it is left. -/
def ClaimRec.reaches (c : ClaimRec) (home line : Nat) : Bool :=
  (List.range ((line - c.prog) / 128)).all (fun k => homeOf (c.prog + 128 * k) != home)
/-- The requests at the homes that an access of another device's transfer is, within the pages it maps to (R381, R409-R411): one read or
write within a line, the claims of a range, or their ends. A line counts as passed when it is written to its end and no line of its slice
before it in the claim is left (R411; log entry 80). -/
def State.linkReqs (s : State) (here : Nat) (q : LinkReq) (m : List Extent) : List HomeReq :=
  let e := m.headD (Extent.mk 0 0 0 false)
  let h := homeOf e.pa; let line := lineOf e.pa; let o := e.pa % 128
  let mine := fun (c : ClaimRec) => c.agent == linkAgent q && c.tid == q.tid
  match q.op with
  | .read => [{ linkReq .rds q here h line e.ns with once := true, limit := q.n, mask := BitVec.ofNat 128 o }]
  | .write b => [{ linkReq .claimWrite q here h line e.ns with
      data := linePut 0 o b, mask := BitVec.ofNat 128 ((2 ^ b.length - 1) <<< o), limit := b.length
      last := o + b.length == 128 && (s.home h).claims.any (fun c => mine c && c.base ≤ line && line < c.limit && c.reaches h line) }]
  | .claim => (claimsFor m).map (fun c => { linkReq .claim q here c.home c.base false with limit := c.limit })
  | .claimEnd => s.homes.flatMap (fun p => (p.2.claims.filter mine).map (fun c => linkReq .claimEnd q here p.1 c.base false))
/-- An answer to another device's copy engine. -/
def State.linkBack (s : State) (port : Nat) (q : LinkReq) (status : Nat) (b : List Byte) : State :=
  s.send 1 (fjPlace + port) fjPlace (.fjarlinkPacket 31 (.linkAnswer q status b))
/-- A copy access from another device (R381): translated in this device's tables under the request's ASID, and performed at the homes. -/
def State.linkServe (s : State) (port : Nat) (q : LinkReq) : State :=
  match s.linkMap q (q.n / 4096 + 2) q.addr q.n [] with
  | .inr (st, va) => s.linkBack port q st (toBytes 8 va)
  | .inl m =>
    let l := s.linkReqs (fjPlace + port) q m
    if l.isEmpty then s.linkBack port q 0 [] else s.onceBegin (fjPlace + port) (.link port q) l

/-- A packet from another device taken in at a port (R234, R246, R260); one for an agent of a class that does not accept its KIND is
discarded and reported. An answer to a copy engine is taken by Complete.lean. -/
def State.fjTake (s : State) (port : Nat) (p : FjPacket) : State :=
  let here := fjPlace + port
  match p with
  | .active m =>
    if !coreEp m.dst then s.out (.badKind m.srcDev m.src 6)
    else if s.disabled m.dst || (s.portFirewall m.dst && !(s.core m.dst).fwhmask.getLsbD (fld m.control 0 6)) then
      s.send 1 here fjPlace (.fjarlinkPacket 31 (.delivery m 4))
    else s.send 0 here m.dst (.active { m with dstDev := none })
  | .release r =>
    if !coreEp r.dst then s.out (.badKind r.srcDev r.srcEp 1)
    else if s.disabled r.dst || s.portFirewall r.dst then s.machineCheckOf r.srcDev r.srcEp 2
    else s.send 2 here r.dst (.release r)
  | .pull r =>
    if coreEp r.srcEp || (epClass r.srcEp == 3 && r.srcEp % 1024 == 0) then s.send 0 here r.srcEp (.pull r)
    else s.out (.badKind (r.dstDev.getD s.srcDev) r.dst 5)
  | .record r ws => if coreEp r.dst then s.send 1 here r.dst (.record r ws) else s.out (.badKind r.srcDev r.srcEp 5)
  | .delivery m st => s.send 1 here m.src (.delivery m st)
  | .census _ q => s.later (.remoteCensus q)
  | .censusAnswer _ id place a => s.later (.answerFold 516 id (4 + place) a)
  | .linkRequest q => s.linkServe port q
  | .linkAnswer _ _ _ => s
  | .other _ kind d e _ _ => s.out (.badKind d e kind)

end Sys2Proof.Machine
end

