-- ==== Sys2Proof/Machine/Graph.lean ====
section
/-! DEFINITION. Graph engines: tables, instances, firing, tokens, faults and cones, node events, completion records, and the four
graph instructions (13_graph_engine.md R425-R456). -/

namespace Sys2Proof.Machine

/-- The graph engine of a slab. -/
def State.graph (s : State) (k : Nat) : Graph := s.graphs.get Graph.reset k
/-- The state with a graph engine changed. -/
def State.modGraph (s : State) (k : Nat) (f : Graph → Graph) : State := { s with graphs := s.graphs.put k (f (s.graph k)) }
/-- The endpoint of a slab's graph engine. -/
def graphEp (k : Nat) : Nat := agentEp k 0
/-- The slab of a slot's master (R430). -/
def slotMaster (slot : Nat) : Nat := slot / 64

/-! ## Node records, successor entries (R426, R428) -/

/-- KIND of a record. -/
def nKind (r : List Word) : Nat := fld (r.getD 0 0) 61 3
/-- RETRY. -/
def nRetry (r : List Word) : Nat := fld (r.getD 0 0) 57 4
/-- PLACE. -/
def nPlace (r : List Word) : Nat := fld (r.getD 0 0) 54 3
/-- OSLAB. -/
def nSlab (r : List Word) : Nat := fld (r.getD 0 0) 52 2
/-- PLACEARG. -/
def nArg (r : List Word) : Nat := fld (r.getD 0 0) 40 12
/-- NSIN. -/
def nSin (r : List Word) : Nat := fld (r.getD 0 0) 36 4
/-- NFIRE. -/
def nFire (r : List Word) : Nat := fld (r.getD 0 0) 16 16
/-- NPRED. -/
def nPred (r : List Word) : Nat := fld (r.getD 0 0) 0 12
/-- NSUCC. -/
def nSucc (r : List Word) : Nat := fld (r.getD 1 0) 48 16
/-- SUCCIDX. -/
def nIdx (r : List Word) : Nat := fld (r.getD 1 0) 0 32
/-- Payload word `k`, 2 to 7. -/
def nPay (r : List Word) (k : Nat) : Word := r.getD k 0
/-- Whether an edge streams. -/
def eS (e : Word) : Bool := bitOf e 63
/-- CONS. -/
def eCons (e : Word) : Nat := fld e 55 8
/-- PROD. -/
def eProd (e : Word) : Nat := fld e 47 8
/-- PORT. -/
def ePort (e : Word) : Nat := fld e 44 3
/-- TARGET. -/
def eTarget (e : Word) : Nat := fld e 0 12

/-- NNODES of an instance's header. -/
def Inst.nn (i : Inst) : Nat := fld (i.hdr.getD 0 0) 16 13
/-- A node's record. -/
def Inst.nrec (i : Inst) (n : Nat) : List Word := i.recs.get [] n
/-- A node's successor entries. -/
def Inst.succs (i : Inst) (n : Nat) : List Word := (i.edges.drop (nIdx (i.nrec n))).take (nSucc (i.nrec n))
/-- The initial entry of a node (R431). -/
def initEnt (r : List Word) : NodeEnt :=
  NodeEnt.mk 0 0 0 false false 0 0 (nPred r) (List.replicate 8 0) [] 0 false false false none
/-- A node's entry; one not yet changed in this generation is initial (R431). -/
def Inst.ent (i : Inst) (n : Nat) : NodeEnt := (i.nodes.find n).getD (initEnt (i.nrec n))
/-- The state with a node's entry changed. -/
def State.modEnt (s : State) (slot n : Nat) (f : NodeEnt → NodeEnt) : State :=
  s.modInst slot (fun i => { i with nodes := i.nodes.put n (f (i.ent n)) })
/-- Whether a slot is LIVE in a generation (R441). -/
def State.liveInst (s : State) (slot gen : Nat) : Bool := (s.inst slot).st == 1 && (s.inst slot).gen == gen

/-! ## Reading and validating the table (R425-R429) -/

/-- All values of a list of options, if all are there. -/
def optAll {α : Type} : List (Option α) → Option (List α)
  | [] => some []
  | none :: _ => none
  | some a :: l => (optAll l).map (fun r => a :: r)
/-- `n` words of GLOBAL memory of an ASID from an 8-aligned address; none when the read faults, for want of a translation or by an
uncorrectable error (log entry 68). -/
def State.vaWords (s : State) (sl : Nat) (asid : BitVec 16) (va n : Nat) : Option (List Word) :=
  optAll ((List.range n).map (fun i => match (s.walk sl asid (va + 8 * i) .read).res with
    | .ok pa _ => if s.homePoison (homeOf pa) (lineOf pa) then none else some (s.paWord pa)
    | _ => none))
/-- Whether every page of a range is mapped with W and populated. -/
def State.writable (s : State) (sl : Nat) (asid : BitVec 16) (va n : Nat) : Bool :=
  (pagesOf va n).all (fun p => match (s.walk sl asid (Nat.max p va) .write).res with | .ok _ _ => true | _ => false)

/-- A table as an engine reads it. -/
structure Table where
  hdr : List Word
  recs : List (List Word)
  edges : List Word
  deriving DecidableEq, Repr

/-- Whether a header keeps R425. -/
def headerOk (h : List Word) : Bool :=
  let w := fun (k : Nat) => h.getD k 0
  zeroField (w 0) 56 8 && fld (w 0) 48 8 == 1 && zeroField (w 0) 29 19 && 1 ≤ fld (w 0) 16 13 && fld (w 0) 16 13 ≤ 4096
    && zeroField (w 0) 0 16 && (w 1).toNat ≤ 65536 && zeroField (w 2) 32 32 && (w 2).toNat % 64 == 0
    && zeroField (w 3) 32 32 && (w 3).toNat % 8 == 0 && zeroField (w 4) 32 32 && w 5 == 0 && w 6 == 0 && w 7 == 0

/-- The table of an instance read (R433): none when a read faults or the header breaks R425. -/
def State.readTable (s : State) (sl : Nat) (i : Inst) : Option Table :=
  let base := (i.words.getD 0 0).toNat
  match s.vaWords sl i.asid base 8 with
  | none => none
  | some h =>
    if !headerOk h then none
    else
      let n := fld (h.getD 0 0) 16 13
      let no := base + (h.getD 2 0).toNat; let so := base + (h.getD 3 0).toNat
      match optAll ((List.range n).map (fun k => s.vaWords sl i.asid (no + 64 * k) 8)), s.vaWords sl i.asid so (h.getD 1 0).toNat with
      | some r, some e => some (Table.mk h r e)
      | _, _ => none

/-- A node's record in a table. -/
def Table.nrec (t : Table) (n : Nat) : List Word := t.recs.getD n []
/-- A node's successor entries in a table. -/
def Table.succs (t : Table) (n : Nat) : List Word := (t.edges.drop (nIdx (t.nrec n))).take (nSucc (t.nrec n))
/-- Every edge with its source. -/
def Table.all (t : Table) : List (Nat × Word) :=
  (List.range t.recs.length).flatMap (fun n => (t.succs n).map (fun e => (n, e)))

/-- Whether a kind word's reserved bits are zero (R195). -/
def kindWordOk (w : Word) : Bool := zeroField w 57 7 && zeroField w 3 2
/-- Whether a node's payload keeps R427, R368, R369 and R341 (R429). -/
def State.payloadOk (s : State) (r : List Word) : Bool :=
  let p := nPay r
  match nKind r with
  | 0 => kindWordOk (p 2) && p 7 == 0
  | 2 => kindWordOk (p 2) && p 7 == 0
  | 1 =>
    let w := [p 2, p 3, p 4, BitVec.ofNat 64 (2 ^ 55)]
    zeroField (p 4) 18 6 && zeroField (p 4) 10 8 && zeroField (p 4) 5 3 && cqOk w && fld (p 4) 24 2 == nSlab r
      && cqLen w % (if cqOp w == 1 then 16 else 8) == 0 && zeroField (p 5) 28 36 && zeroField (p 5) 12 4 && p 6 == 0 && p 7 == 0
  | 3 =>
    let w := [p 2, p 3, p 4, p 5, p 6, 0, 0, 0]
    solNdev w == 0 && solReservedOk w && s.solOk w && zeroField (p 7) 12 52
  | 4 => p 3 == 0 && p 4 == 0 && p 5 == 0 && p 6 == 0 && p 7 == 0
  | 5 => zeroField (p 2) 1 63 && p 5 == 0 && p 6 == 0 && p 7 == 0
  | _ => false
/-- Whether a node's own words keep R426 and R429. -/
def State.nodeOk (s : State) (r : List Word) (nsuccs : Nat) : Bool :=
  let w0 := r.getD 0 0
  let place := nPlace r
  zeroField w0 32 4 && zeroField w0 12 4 && place ≤ 5 && nSin r ≤ 8 && nFire r != 0 && zeroField (r.getD 1 0) 32 16
    && nIdx r + nSucc r ≤ nsuccs && s.payloadOk r && (nKind r != 2 || place == 2)
    && (if place ≤ 1 then nArg r / 1024 == nSlab r else if place == 2 then nArg r / 128 == nSlab r
        else nKind r != 0 || nArg r % 4 == nSlab r)
/-- Whether a successor entry keeps R428. -/
def Table.edgeOk (t : Table) (e : Word) : Bool :=
  zeroField e 12 32 && eTarget e < t.recs.length
    && (if eS e then eCons e != 0 && eProd e != 0 && ePort e < nSin (t.nrec (eTarget e)) else zeroField e 44 19)
/-- Whether the edges that enter a node are those its record counts, one to a port. -/
def Table.insOk (t : Table) (n : Nat) : Bool :=
  let l := (t.all.filter (fun e => eTarget e.2 == n)).map Prod.snd
  let st := (l.filter eS).map ePort
  (l.filter (fun e => !eS e)).length == nPred (t.nrec n) && st.length == nSin (t.nrec n) && st.eraseDups.length == st.length
/-- The nodes that a cycle reaches: those left when nodes without a predecessor among them are taken away. -/
def onCycle (edges : List (Nat × Nat)) : Nat → List Nat → List Nat
  | 0, l => l
  | k + 1, l =>
    let l' := l.filter (fun n => edges.any (fun e => e.2 == n && l.contains e.1))
    if l'.length == l.length then l else onCycle edges k l'
/-- Whether the table keeps the rules for an engine's nodes (R429). -/
def State.tableOk (s : State) (sl : Nat) (i : Inst) (t : Table) : Bool :=
  let mine := (List.range t.recs.length).filter (fun n => nSlab (t.nrec n) == sl)
  mine.all (fun n => s.nodeOk (t.nrec n) t.edges.length && (t.succs n).all t.edgeOk && t.insOk n)
    && (onCycle (t.all.map (fun e => (e.1, eTarget e.2))) t.recs.length (List.range t.recs.length)).isEmpty
    && s.writable sl i.asid (i.words.getD 1 0).toNat (32 * t.recs.length)
    && s.writable sl i.asid (i.words.getD 2 0).toNat (64 + t.recs.length)

/-! ## Entries in memory (R431) -/

/-- An entry in the layout of R431. -/
def entWords (gen : Nat) (e : NodeEnt) : List Word :=
  let p := fun (k : Nat) => e.ports.getD k 0 * 2 ^ (16 * (k % 4))
  [BitVec.ofNat 64 (gen * 2 ^ 48 + e.firings % 2 ^ 16 * 2 ^ 32 + e.tries * 2 ^ 28 + bitNat e.canc * 16 + bitNat e.ran * 8 + e.st),
   BitVec.ofNat 64 (e.fstatus * 2 ^ 48 + e.fdetail * 2 ^ 32 + e.missing),
   BitVec.ofNat 64 (p 0 + p 1 + p 2 + p 3), BitVec.ofNat 64 (p 4 + p 5 + p 6 + p 7)]
/-- An entry read from its words. -/
def entOfWords (r : List Word) (ws : List Word) : NodeEnt :=
  let w := fun (k : Nat) => ws.getD k 0
  { initEnt r with
    st := fld (w 0) 0 3, firings := fld (w 0) 32 16, tries := fld (w 0) 28 4, canc := bitOf (w 0) 4, ran := bitOf (w 0) 3
    fstatus := fld (w 1) 48 16, fdetail := fld (w 1) 32 16, missing := fld (w 1) 0 12
    ports := (List.range 8).map (fun k => fld (w (2 + k / 4)) (16 * (k % 4)) 16) }
/-- An entry of the state area that the generation already has, unless the area is initialised anew (R431): the engines' own copy, so that
no store into the area since the slot became LIVE shows (R432). -/
def Inst.heldEnt (i : Inst) (r : List Word) (n : Nat) : Option NodeEnt :=
  if i.fresh then none else (i.held.find n).map (entOfWords r)
/-- The entries of a generation that a state area holds, by node, as the engines take them into their caches (R431, R432). -/
def State.areaEnts (s : State) (m : Nat) (asid : BitVec 16) (b : List Word) (gen : Nat) : SMap (List Word) :=
  match s.vaWords m asid (b.getD 0 0).toNat 1 with
  | some (h :: _) => (List.range (Nat.min 4096 (fld h 16 13))).foldl (fun l n =>
      match s.vaWords m asid ((b.getD 1 0).toNat + 32 * n) 4 with
      | some ws => if fld (ws.getD 0 0) 48 16 == gen then l.put n ws else l
      | none => l) []
  | _ => []

/-! ## Readiness (R434) -/

/-- Whether a node is READY for its next firing (R434). -/
def Inst.mayFire (i : Inst) (n : Nat) : Bool :=
  let e := i.ent n
  let ins := ((List.range i.nn).flatMap i.succs).filter (fun x => eS x && eTarget x == n)
  (e.st == 0 || e.st == 7) && e.missing == 0 && ins.all (fun x => eCons x ≤ e.ports.getD (ePort x) 0)
/-- A node becomes READY at its engine. -/
def State.ready1 (s : State) (slot n : Nat) : State :=
  let i := s.inst slot
  let k := nSlab (i.nrec n)
  ((s.modEnt slot n (fun e => { e with st := 1 })).modGraph k (fun g => { g with ready := g.ready ++ [(slot, i.gen, n)] })).laterOnce (.nodeFire k)
/-- The nodes of a list that may fire become READY, in ascending index (R435). -/
def State.tryReady (s : State) (slot : Nat) (l : List Nat) : State :=
  (sortBy (fun n => n) l.eraseDups).foldl (fun t n => if (t.inst slot).mayFire n then t.ready1 slot n else t) s

/-! ## Node events (R446) -/

/-- An attempt to deliver a node event: a message to handler 63 of the GEFEROUTE core. -/
def State.sendNodeEvent (s : State) (k : Nat) (e : NodeEvent) : State :=
  let m := ActiveMsg.mk s.srcDev (graphEp k) (fld (s.graph k).feroute 0 12) none 0 0 true (BitVec.ofNat 64 (3 * 2 ^ 16 + 63)) e.words 0 e.id none
  s.send 0 (graphEp k) m.dst (.active m)
/-- The events of an engine that are not out are sent, when GEFEROUTE is valid. -/
def State.sendNodeEvents (s : State) (k : Nat) : State :=
  if !bitOf (s.graph k).feroute 63 then s
  else
    let l := (s.graph k).events.filter (fun e => !e.out)
    l.foldl (fun t e => t.sendNodeEvent k e)
      (s.modGraph k (fun g => { g with events := g.events.map (fun e => { e with out := true }) }))
/-- A node's event (R446): GEN, SLOT, the new state, the node, the ASID, and two words. -/
def State.nodeEvent (s : State) (slot n st : Nat) (w1 w2 : Word) : State :=
  let i := s.inst slot
  let k := nSlab (i.nrec n)
  let w0 := BitVec.ofNat 64 (i.gen * 2 ^ 48 + slot * 2 ^ 40 + st * 2 ^ 32 + n * 2 ^ 16 + i.asid.toNat)
  let (id, s) := s.fresh
  (s.modGraph k (fun g => { g with events := g.events ++ [NodeEvent.mk id [w0, w1, w2] i.asid false] })).sendNodeEvents k

/-! ## Ends of nodes (R442-R448) -/

/-- A final state (R447). -/
def finalSt (st : Nat) : Bool := st == 3 || st == 4 || st == 5
/-- An engine whose nodes are all final sends its final counts to the master, which ends the instance when it has those of every owner
(R448, R455). -/
def State.checkEnd (s : State) (slot : Nat) : State :=
  let i := s.inst slot
  let m := slotMaster slot
  let ended := fun (k : Nat) => (List.range i.nn).all (fun n => nSlab (i.nrec n) != k || finalSt (i.ent n).st)
  if i.st != 1 || !i.went || i.broken then s
  else (i.owners.filter ended).foldl (fun t k =>
    let ev := Event.instanceEnd slot i.gen (some k)
    if !i.acks.contains k || t.net.any (fun x => x.ev == ev) then t
    else if k == m then t.later ev else t.send 1 (graphEp k) (graphEp m) ev) s
/-- A cone walk begun at a node, by the master (R443). -/
def State.walkFromNode (s : State) (slot n : Nat) : State :=
  s.later (.cancelWalkStep slot (s.inst slot).gen (slotMaster slot) [n] [n] [n] true false)
/-- A firing's fault (R442): HELD while retries are left, else FAULTED with its cone; without room for its event it waits. -/
def State.nodeFault (s : State) (slot n status detail : Nat) : State :=
  let i := s.inst slot
  let e := i.ent n
  let s := s.modEnt slot n (fun e => { e with members := [], awaited := 0, fault := some (status, detail) })
  if 64 ≤ (s.graph (nSlab (i.nrec n))).events.length then s
  else
    let st := if e.tries < nRetry (i.nrec n) && !e.canc then 6 else 4
    let s := s.modEnt slot n (fun e => { e with st := st, fstatus := status, fdetail := detail, fault := none, refused := false })
    let s := s.nodeEvent slot n st (BitVec.ofNat 64 (detail * 2 ^ 16 + status)) 0
    let s := if st == 4 && !e.canc then s.walkFromNode slot n else s
    s.checkEnd slot

/-- A token delivered to a node (R434, R441): a final node ignores it; a count that would pass 65,535 is refused. -/
def Inst.deliver (i : Inst) (e : Word) : Option Inst :=
  let n := eTarget e
  let t := i.ent n
  if finalSt t.st then some i
  else if eS e then
    let c := t.ports.getD (ePort e) 0 + eProd e
    if 65535 < c then none else some { i with nodes := i.nodes.put n { t with ports := listSet t.ports (ePort e) c } }
  else some { i with nodes := i.nodes.put n { t with missing := t.missing - 1 } }
/-- A token applied; whether it was refused. -/
def State.deliver (s : State) (slot : Nat) (e : Word) : Bool × State :=
  match (s.inst slot).deliver e with
  | some i => (false, { s with insts := s.insts.put slot i })
  | none => (true, s)
/-- A node's edges of one kind delivered in order: applied here, or sent to the engine of the target's slab. -/
def State.deliverAll (s : State) (slot n : Nat) (streaming : Bool) : State :=
  let i := s.inst slot
  let k := nSlab (i.nrec n)
  let one := fun (s : State) (e : Word) =>
    let d := nSlab (i.nrec (eTarget e))
    if d == k then
      let (bad, s) := s.deliver slot e
      if bad then s.modEnt slot n (fun x => { x with refused := true }) else s
    else
      let s := if streaming then s.modEnt slot n (fun x => { x with awaited := x.awaited + 1 }) else s
      s.send 0 (graphEp k) (graphEp d) (.token d slot i.gen e (if streaming then some n else none))
  let l := (i.succs n).filter (fun e => eS e == streaming)
  (l.foldl one s).tryReady slot ((l.map eTarget).filter (fun t => nSlab (i.nrec t) == k))
/-- The end of a firing whose streaming deliveries are all applied or refused (R434, R447). -/
def State.firingEnd (s : State) (slot n : Nat) : State :=
  let i := s.inst slot
  let e := i.ent n
  if e.refused then s.nodeFault slot n 2 0xE000
  else if e.canc then (s.modEnt slot n (fun e => { e with st := 5, ran := true, firings := e.firings + 1 })).checkEnd slot
  else if e.firings + 1 < nFire (i.nrec n) then
    (s.modEnt slot n (fun e => { e with st := 7, firings := e.firings + 1 })).tryReady slot [n]
  else ((s.modEnt slot n (fun e => { e with st := 3, firings := e.firings + 1 })).deliverAll slot n false).checkEnd slot
/-- A firing's work is done (R441): its streaming tokens go out, none when it is cancelled. -/
def State.firingDone (s : State) (slot n : Nat) : State :=
  let s := s.modEnt slot n (fun e => { e with members := [], again := false })
  if ((s.inst slot).ent n).canc then s.firingEnd slot n
  else
    let s := s.deliverAll slot n true
    if ((s.inst slot).ent n).awaited == 0 then s.firingEnd slot n else s

/-! ## Completion scope (R440) -/

/-- A region: its slab, geode and core, as far as it is that narrow; none for the module. -/
abbrev Region := Option (Nat × Option Nat × Option Nat)
/-- The region of a core. -/
def coreRegion (c : Nat) : Region := some (c / 1024, some (c / 8), some c)
/-- The region of a task node's own agent (R440): its core; for steal placement the slab, whose cores may steal it (DEDUCED; log entry 84). -/
def placedRegion (r : List Word) (c : Nat) : Region := if nPlace r == 5 then some (c / 1024, none, none) else coreRegion c
/-- The region of a successor (R440). -/
def Inst.region (i : Inst) (k t : Nat) : Region :=
  let r := i.nrec t
  if nSlab r != k || 3 ≤ nKind r then none
  else if nKind r == 1 then some (nSlab r, none, none)
  else if nKind r == 2 || nPlace r == 2 then some (nArg r / 128, some (nArg r), none)
  else if nPlace r ≤ 1 then coreRegion (nArg r)
  else some (nArg r % 4, none, none)
/-- The narrowest scope that contains regions (R440). -/
def regionScope : List Region → Nat
  | l =>
    let rs := l.filterMap (fun r => r)
    if rs.length != l.length || (rs.map (fun r => r.1)).eraseDups.length != 1 then 3
    else
      let gs := rs.map (fun r => r.2.1); let cs := rs.map (fun r => r.2.2)
      if gs.contains none || gs.eraseDups.length != 1 then 2
      else if cs.contains none || cs.eraseDups.length != 1 then 1 else 0
/-- A node's completion scope code (R440); `own` is its own agent's region. -/
def Inst.scopeOf (i : Inst) (n : Nat) (own : Region) : Nat :=
  let l := i.succs n
  if l.isEmpty then (match i.succ with | some r => if r.dstDev.isSome then 4 else 3 | none => 3)
  else regionScope (own :: l.map (fun e => i.region (nSlab (i.nrec n)) (eTarget e)))

/-! ## Placement and firing (R435-R438) -/

/-- Whether a core is placeable (R435). -/
def State.placeable (s : State) (c : Nat) : Bool := (s.core c).code == 0 && !(s.core c).noplace && !s.firmware c
/-- FIFOCNT of a level (R230). -/
def Core.waiting (c : Core) (p : Nat) : Nat := Nat.min 255 ((vget [] c.fifo p).length + (vget [] c.ring p).length)
/-- The waiting releases of a core at or above a priority, as FIFOCNT counts them (R435). -/
def State.loadOf (s : State) (c p : Nat) : Nat := ((List.range 8).filter (fun k => p ≤ k)).foldl (fun n k => n + (s.core c).waiting k) 0
/-- The least-loaded placeable core of a list, the lowest id of equals. -/
def State.leastLoaded (s : State) (l : List Nat) (p : Nat) : Option Nat :=
  (sortBy (fun c => s.loadOf c p) (l.filter s.placeable)).head?
/-- The cores of a slab. -/
def slabCores (sl : Nat) : List Nat := (List.range 1024).map (fun c => 1024 * sl + c)
/-- Where a task node is placed, or the DETAIL of its fault (R435). -/
def State.placeTask (s : State) (slot n : Nat) (r : List Word) : Sum Nat Nat :=
  let p := fld (nPay r 2) 0 3
  let a := nArg r
  let pick := fun (o : Option Nat) => match o with | some c => Sum.inl c | none => Sum.inr 0xD001
  match nPlace r with
  | 0 => if s.placeable a then .inl a else .inr 0xD000
  | 1 => if s.placeable a then .inl a else .inr 0xD000
  | 2 => pick (s.leastLoaded ((List.range 8).map (fun c => 8 * a + c)) p)
  | 4 =>
    let cs := (slabCores (a % 4)).filter s.placeable
    let h := (slot * 4096 + n) * 0x9E3779B1 % 2 ^ 32
    pick (cs[h % cs.length]?)
  | _ => pick (s.leastLoaded (slabCores (a % 4)) p)

/-- The engine's own count of a message (R470). -/
def State.graphSent (s : State) (k : Nat) (asid : BitVec 16) : State := s.modGraph k (fun g => { g with leaf := g.leaf.countSent asid })
/-- The engine's own count of an arrival (R470). -/
def State.graphRecv (s : State) (k : Nat) (asid : BitVec 16) : State := s.modGraph k (fun g => { g with leaf := g.leaf.countRecv asid })

/-- The record of a task or gang member (R436). -/
def Inst.taskRecord (i : Inst) (slot n : Nat) (arg3 : Word) : List Word :=
  let p := nPay (i.nrec n)
  [p 2, BitVec.ofNat 64 (i.asid.toNat * 2 ^ 48 + i.gen * 2 ^ 32 + 2 * 2 ^ 28 + slot * 2 ^ 12 + n), p 3, p 4, p 5, arg3, i.words.getD 4 0, i.words.getD 5 0]

/-- A task or a gang member fired on a core (R436): a record slot is taken and a release sent, or, for steal placement, an entry
pushed onto the core's deque. -/
def State.fireOn (s : State) (slot n core : Nat) (arg3 : Word) (scope : Nat) (steal : Bool) : State :=
  let i := s.inst slot
  let k := nSlab (i.nrec n)
  let g := s.graph k
  let r := ((List.range 256).find? (fun x => (g.recs.find x).isNone)).getD 0
  let ws := i.taskRecord slot n arg3
  let rel := Release.mk s.srcDev (graphEp k) (BitVec.ofNat 8 r) core none (BitVec.ofNat 3 (fld (nPay (i.nrec n) 2) 0 3)) i.asid
    (BitVec.ofNat 16 i.gen) 0 (BitVec.ofNat 16 ((i.ent n).tries * 2 ^ 12 + scope)) false
  let s := (s.modGraph k (fun g => { g with recs := g.recs.put r (RecSlot.mk ws core n slot) })).graphSent k i.asid
  let s := s.modEnt slot n (fun e => { e with members := e.members ++ [r] })
  if steal then s.send 0 (graphEp k) core (.dequePush core (Child.mk rel ws 0 0 0 0 true 2 false 0))
  else s.sendRelease (graphEp k) rel

/-- The firing that a request of an engine for a node belongs to. -/
def Inst.firing (i : Inst) (slot n : Nat) : Firing :=
  let ep := graphEp (nSlab (i.nrec n))
  Firing.mk ep slot i.gen n (i.ent n).tries ep

/-- A copy node's request, or the DETAIL of its fault (R437). -/
def State.copyNode (s : State) (slot n scope : Nat) : Sum CopyReq Nat :=
  let i := s.inst slot
  let p := nPay (i.nrec n)
  let w := [p 2, p 3, setFld (p 4) 5 3 scope, BitVec.ofNat 64 (2 ^ 55)]
  let load := fun (need : Bool) (idx : Nat) => if !need then some Handle.empty else s.engineHandle i.asid idx
  let chk := fun (h : Handle) (need st : Bool) (off : Word) =>
    if !need then none else if h.space == 0 then some 26 else (State.copyCheck h 0 st off (cqLen w)).map Prod.fst
  match load (cqOp w == 0) (fld (p 5) 16 12), load (!cqSlot w) (fld (p 5) 0 12) with
  | some sh, some dh =>
    match chk sh (cqOp w == 0) false (p 2), chk dh (!cqSlot w) true (p 3) with
    | some c, _ => .inr (0x9000 + c)
    | none, some c => .inr (0x9000 + c)
    | none, none =>
      if !cqAligned w sh dh || (cqSlot w && !cqSlotOk w) then .inr (0x9000 + 60)
      else .inl (CopyReq.mk (graphEp (nSlab (i.nrec n))) (cqEngine w) w sh dh i.asid none 0 0 none none 0 (some (i.firing slot n)) none 0)
  | _, _ => .inr (0x9000 + 48)

/-- A guest node's packet, or nothing when it cannot be submitted (R437, R478). -/
def State.guestNode (s : State) (slot n : Nat) : Option (List Word) :=
  let i := s.inst slot
  let a := (nPay (i.nrec n) 2).toNat
  if a % 8 != 0 then none
  else match s.vaWords (nSlab (i.nrec n)) i.asid a 8 with
    | none => none
    | some w => if s.guest.en && zeroField (w.getD 0 0) 3 45 && fld (w.getD 0 0) 0 3 ≤ 5 && w.getD 1 0 == 0 then some w else none

/-- A request that a node fired, counted and on its way; its answer is awaited. -/
def State.fireRequest (s : State) (slot n dst : Nat) (ev : Event) : State :=
  let i := s.inst slot
  let k := nSlab (i.nrec n)
  ((s.modEnt slot n (fun e => { e with members := [graphEp k] })).graphSent k i.asid).send 0 (graphEp k) dst ev

/-- A READY node fires (R435-R438): it is RUNNING, its ports give up CONS, its work is placed. -/
def State.fire (s : State) (slot n : Nat) : State :=
  let s := if !((s.inst slot).ent n).again then s
    else match s.vaWords (nSlab ((s.inst slot).nrec n)) (s.inst slot).asid
        (((s.inst slot).words.getD 0 0).toNat + ((s.inst slot).hdr.getD 2 0).toNat + 64 * n) 8 with
      | some r => if s.nodeOk r (s.inst slot).edges.length && nSlab r == nSlab ((s.inst slot).nrec n) then
          s.modInst slot (fun i => { i with recs := i.recs.put n r }) else s
      | none => s
  let i := s.inst slot
  let r := i.nrec n
  let k := nSlab r
  let ins := ((List.range i.nn).flatMap i.succs).filter (fun x => eS x && eTarget x == n)
  let take := fun (e : NodeEnt) => if e.again then e else
    { e with ports := ins.foldl (fun l x => listSet l (ePort x) (l.getD (ePort x) 0 - eCons x)) e.ports }
  let s := s.modEnt slot n (fun e => { take e with st := 2, awaited := 0, refused := false, formed := false, again := false })
  let own : Region := some (k, none, none)
  match nKind r with
  | 0 => match s.placeTask slot n r with
    | .inr d => s.nodeFault slot n 2 d
    | .inl c => s.fireOn slot n c (nPay r 6) (i.scopeOf n (placedRegion r c)) (nPlace r == 5)
  | 2 =>
    let g := nArg r
    let cs := (List.range 8).filter (fun c => (s.arr g).cmask.getLsbD c)
    let sc := i.scopeOf n (some (g / 128, some g, none))
    if ((List.range 8).filter (fun c => s.placeable (8 * g + c))).isEmpty then s.nodeFault slot n 2 0xD001
    else if cs.isEmpty then s.firingDone slot n
    else cs.foldl (fun t c => t.fireOn slot n (8 * g + c) (BitVec.ofNat 64 c) sc false) s
  | 1 => match s.copyNode slot n (i.scopeOf n own) with
    | .inr d => s.nodeFault slot n 2 d
    | .inl q => s.fireRequest slot n q.engine (.copyRequest q)
  | 3 =>
    let p := nPay r
    let q := Solicit.mk [p 2, p 3, p 4, p 5, p 6, 0, 0, 0] i.asid (fld (p 7) 0 12) 0 0 none none none 0 (some (i.firing slot n))
    s.fireRequest slot n censusRoot (.solicitRequest q)
  | 4 => match s.guestNode slot n with
    | none => s.nodeFault slot n 2 (0x9000 + 62)
    | some w =>
      let j := GuestJob.mk 0 0 0 1 (fld (w.getD 0 0) 0 3) i.asid w (graphEp k) none (some (i.firing slot n)) false false
      s.fireRequest slot n (agentEp 3 0x80) (.guestSubmission j)
  | _ =>
    let s := s.nodeEvent slot n 2 (nPay r 3) (nPay r 4)
    if bitOf (nPay r 2) 0 then s else s.firingDone slot n

/-- Whether the node at the head of an engine's list must wait: no free record slots, or no room for the event it would add. -/
def State.mustWait (s : State) (slot n : Nat) : Bool :=
  let r := (s.inst slot).nrec n
  let g := s.graph (nSlab r)
  let need := match nKind r with
    | 0 => 1
    | 2 => ((List.range 8).filter (fun c => (s.arr (nArg r)).cmask.getLsbD c)).length
    | _ => 0
  256 < g.recs.length + need || (nKind r == 5 && 64 ≤ g.events.length)

/-- `NODE_FIRE` (R435): the node at the head fires, or waits and keeps its place. -/
def execNodeFire (k : Nat) (s : State) : Out :=
  .next (match (s.graph k).ready with
    | [] => s
    | (slot, gen, n) :: l =>
      let pop := fun (t : State) => let t := t.modGraph k (fun g => { g with ready := l }); if l.isEmpty then t else t.laterOnce (.nodeFire k)
      if !s.liveInst slot gen || ((s.inst slot).ent n).st != 1 then pop s
      else if s.mustWait slot n then s
      else (pop s).fire slot n)

/-! ## Starting (R433) -/

/-- GLOBAL bytes of an ASID written by an engine, page by page; a page that does not translate is left out. -/
def State.vaWrite (s : State) (sl : Nat) (asid : BitVec 16) : Nat → Nat → List Byte → State
  | 0, _, _ => s
  | _, _, [] => s
  | k + 1, va, b =>
    let n := 4096 - va % 4096
    let s := match (s.walk sl asid va .write).res with
      | .ok pa ns => s.devWrite pa (b.take n) ns false
      | _ => s
    s.vaWrite sl asid k (va + n) (b.drop n)

/-- Whether the lines of GLOBAL bytes of an ASID are free for a write of an engine. -/
def State.vaFree (s : State) (sl : Nat) (asid : BitVec 16) : Nat → Nat → Nat → Bool
  | 0, _, _ => true
  | k + 1, va, n =>
    let m := Nat.min n (4096 - va % 4096)
    n == 0 || ((match (s.walk sl asid va .write).res with | .ok pa _ => s.rangeFree pa m | _ => true) && s.vaFree sl asid k (va + m) (n - m))

/-- The guest's copies of the lines of GLOBAL bytes of an ASID are asked back (log entry 35). -/
def State.vaRecall (s : State) (sl : Nat) (asid : BitVec 16) : Nat → Nat → Nat → State
  | 0, _, _ => s
  | k + 1, va, n =>
    let m := Nat.min n (4096 - va % 4096)
    if n == 0 then s
    else (match (s.walk sl asid va .write).res with | .ok pa _ => s.guestRecall pa m | _ => s).vaRecall sl asid k (va + m) (n - m)

/-- The instance's table broke the rules, at one of its engines (R429): it ends at once. An area that it should have
initialised is initialised by the next run that names it (R431). -/
def State.breakInst (s : State) (slot gen : Nat) : State :=
  (s.modInst slot (fun i => { i with
    broken := true, st := 2, prevArea := if i.fresh && !i.went then none else i.prevArea })).laterOnce (.instanceEnd slot gen none)

/-- The master reads the header and starts the engines that own nodes (R433, step 1). -/
def State.readHeader (s : State) (slot gen : Nat) : State :=
  let i := s.inst slot
  let m := slotMaster slot
  match s.readTable m i with
  | none =>
    let h := (s.vaWords m i.asid (i.words.getD 0 0).toNat 8).getD []
    (s.modInst slot (fun i => { i with hdr := h })).breakInst slot gen
  | some t =>
    let own := sortBy (fun k => k) ((t.recs.map nSlab).eraseDups)
    own.foldl (fun u k => u.send 0 (graphEp m) (graphEp k) (.graphStart slot gen k 1))
      (s.modInst slot (fun i => { i with
        hdr := t.hdr, edges := t.edges, owners := own, acks := own, recs := t.recs.zipIdx.foldl (fun l r => l.put r.2 r.1) [] }))

/-- An engine reads and validates its nodes, and tells the master how it found them (R433, step 1). -/
def State.validate (s : State) (slot gen k : Nat) : State :=
  let i := s.inst slot
  let tell := fun (s : State) (phase : Nat) => s.send 0 (graphEp k) (graphEp (slotMaster slot)) (.graphStart slot gen k phase)
  match s.readTable k i with
  | none => tell s 3
  | some t =>
    if !s.tableOk k i t then tell s 3
    else
      let mine := (List.range t.recs.length).filter (fun n => nSlab (t.nrec n) == k)
      let add := fun (i : Inst) (n : Nat) =>
        let i := { i with recs := i.recs.put n (t.nrec n) }
        match i.heldEnt (t.nrec n) n, i.nodes.find n with
        | some e, none => { i with nodes := i.nodes.put n e }
        | _, _ => i
      tell (s.modInst slot (fun i => mine.foldl add i)) 2

/-- Every engine has acknowledged: a state area to be initialised is written, then the engines go (R431, R433, step 2). -/
def State.goInst (s : State) (slot gen : Nat) : State :=
  let i := s.inst slot
  let m := slotMaster slot
  let base := (i.words.getD 1 0).toNat
  let area := (List.range i.nn).flatMap (fun n => (entWords gen (initEnt (i.nrec n))).flatMap (fun w => toBytes 8 w.toNat))
  let go := fun (s : State) => i.owners.foldl (fun u k => u.send 0 (graphEp m) (graphEp k) (.graphGo slot gen k))
    (s.modInst slot (fun i => { i with acks := i.owners, went := true }))
  if !i.fresh then go s
  else if s.vaFree m i.asid 40 base area.length then go (s.vaWrite m i.asid 40 base area)
  else (s.vaRecall m i.asid 40 base area.length).later (.graphStart slot gen m 4)

/-- `GRAPH_START` (R429, R433), by its phase: the header read at the master (0), the nodes validated at an engine (1), its
acknowledgement at the master (2), or word of a break (3), and the go (4). -/
def execGraphStart (slot gen sl phase : Nat) (s : State) : Out :=
  .next (if !s.liveInst slot gen then s
    else match phase with
    | 0 => s.readHeader slot gen
    | 1 => s.validate slot gen sl
    | 2 =>
      let s := s.modInst slot (fun i => { i with acks := i.acks.erase sl })
      if (s.inst slot).acks.isEmpty then s.goInst slot gen else s
    | 3 => s.breakInst slot gen
    | _ => s.goInst slot gen)

/-- `GRAPH_GO` (R433): the engine's nodes with no input become READY, in ascending index. -/
def execGraphGo (slot gen sl : Nat) (s : State) : Out :=
  .next (if !s.liveInst slot gen then s
    else
      let i := s.inst slot
      let l := (List.range i.nn).filter (fun n => nSlab (i.nrec n) == sl && nPred (i.nrec n) == 0 && nSin (i.nrec n) == 0)
      (s.tryReady slot l).checkEnd slot)

/-! ## Done messages, tokens, completions (R439-R444) -/

/-- A message for a generation that is not live: discarded and counted (R441). -/
def State.staleMsg (s : State) (k : Nat) : State := s.modGraph k (fun g => { g with stale := (g.stale + 1) % 2 ^ 64 })

/-- A member or an operation of a firing has ended, with a status (R438, R439, R442). -/
def State.memberDone (s : State) (f : Firing) (status detail : Nat) : State :=
  let k := epSlab f.engine
  if !s.liveInst f.slot f.gen then s.staleMsg k
  else
    let e := (s.inst f.slot).ent f.node
    if e.st != 2 || e.tries != f.tries || !e.members.contains f.part then s
    else if status != 0 then s.nodeFault f.slot f.node status detail
    else
      let s := s.modEnt f.slot f.node (fun e => { e with members := e.members.erase f.part })
      if ((s.inst f.slot).ent f.node).members.isEmpty then s.firingDone f.slot f.node else s

/-- `NODE_DONE` (R438, R439): the member is known by its record slot, whichever core its frame or registration ended on. -/
def execNodeDone (f : Firing) (_core status detail : Nat) (s : State) : Out := .next (s.memberDone f status detail)
/-- `FIRING_COMPLETION` (R437): the arrival that ends an engine's request (R470), and the firing's end. -/
def execFiringCompletion (f : Firing) (status detail : Nat) (s : State) : Out :=
  .next ((s.graphRecv (epSlab f.engine) (s.inst f.slot).asid).memberDone f status detail)

/-- `TOKEN` (R441): a token from another slab's engine is applied or refused; the source's firing may then end. -/
def execToken (slab slot gen : Nat) (edge : Word) (src : Option Nat) (s : State) : Out :=
  .next (if !s.liveInst slot gen then s.staleMsg slab
    else
      let (bad, s) := s.deliver slot edge
      let s := s.tryReady slot [eTarget edge]
      match src with
      | none => s
      | some n =>
        let e := (s.inst slot).ent n
        if e.st != 2 || e.awaited == 0 then s
        else
          let s := s.modEnt slot n (fun e => { e with awaited := e.awaited - 1, refused := e.refused || bad })
          if e.awaited == 1 then s.firingEnd slot n else s)

/-- A node reached by a cancellation (R443, R447). -/
def cancelEnt (e : NodeEnt) (ended : Bool) : NodeEnt :=
  match e.st with
  | 2 => { e with canc := true }
  | 6 => { e with st := if ended then 4 else 5, ran := false }
  | 7 => { e with st := 5, ran := true }
  | 0 => { e with st := 5, ran := false }
  | 1 => { e with st := 5, ran := false }
  | _ => e
/-- The owner of a node cancels it (R443): the engine that walks itself, or, by a packet, another (R455). -/
def State.cancelAt (s : State) (slot gen sl n : Nat) (ended : Bool) : State :=
  let k := nSlab ((s.inst slot).nrec n)
  if k == sl then (s.modEnt slot n (fun e => cancelEnt e ended)).checkEnd slot
  else s.send 0 (graphEp sl) (graphEp k) (.cancelWalkStep slot gen k [n] [] [] false ended)
/-- `CANCEL_WALK_STEP` (R443): at the master the next node of the walk is cancelled at its owner, and after a level comes the next; at an
owner the node that the packet names is cancelled. -/
def execCancelWalkStep (slot gen sl : Nat) (todo level seen : List Nat) (cone ended : Bool) (s : State) : Out :=
  .next (if !s.liveInst slot gen then s
    else match todo with
    | n :: l =>
      let s := s.cancelAt slot gen sl n ended
      if l.isEmpty && !cone then s else s.later (.cancelWalkStep slot gen sl l level seen cone ended)
    | [] =>
      let next := (sortBy (fun n => n) ((level.flatMap (fun n => ((s.inst slot).succs n).map eTarget)).eraseDups)).filter (fun n => !seen.contains n)
      if !cone || next.isEmpty then s else s.later (.cancelWalkStep slot gen sl next next (seen ++ next) true ended))

/-- `GANG_WATCHDOG` (R445): an unformed gang's registrations are withdrawn and its firing faults. -/
def execGangWatchdog (f : Firing) (s : State) : Out :=
  .next (if !s.liveInst f.slot f.gen then s
    else
      let i := s.inst f.slot
      let e := i.ent f.node
      let r := i.nrec f.node
      if nKind r != 2 || e.st != 2 || e.tries != f.tries || e.formed || e.fault.isSome || fld (i.hdr.getD 4 0) 0 32 == 0 then s
      else
        let g := nArg r
        let hit := (s.arr g).regs.filter (fun x => x.level.toNat == fld (nPay r 2) 0 3 && x.asid == i.asid)
        let s := s.modGraph (nSlab r) (fun g => { g with wdogcnt := (g.wdogcnt + 1) % 2 ^ 64 })
        ((s.nodeFault f.slot f.node 2 0xF000).withdraw g hit).arrayKick g)

/-- `EVENT_RESEND` (R446). -/
def execEventResend (k : Nat) (s : State) : Out := .next (s.sendNodeEvents k)

/-- A fault that waited for room for its event is taken (R446). -/
def State.waitingFault (s : State) (k : Nat) : State :=
  let hit := s.insts.findSome? (fun p =>
    if p.2.st != 1 then none
    else (p.2.nodes.find? (fun e => e.2.fault.isSome && nSlab (p.2.nrec e.1) == k)).map (fun e => (p.1, e.1, e.2.fault.getD (0, 0))))
  match hit with
  | some (slot, n, st, d) => s.nodeFault slot n st d
  | none => s
/-- The DELIVERY of a node event (R446): delivered, it leaves, and what waited for its place goes on; else it is sent again. -/
def State.eventDelivered (s : State) (k id st : Nat) : State :=
  if st == 0 then
    let s := (s.modGraph k (fun g => { g with events := g.events.filter (fun e => e.id != id) })).waitingFault k
    if (s.graph k).ready.isEmpty then s else s.laterOnce (.nodeFire k)
  else s.modGraph k (fun g => { g with events := g.events.map (fun e => if e.id == id then { e with out := false } else e) })

/-- `CENSUS_RESUBMIT` (R437): a node's refused census is sent again, while its firing lasts. -/
def execCensusResubmit (q : Solicit) (s : State) : Out :=
  .next (match q.fire with
    | none => s
    | some f => if s.liveInst f.slot f.gen then s.send 0 f.engine censusRoot (.solicitRequest q) else s)

/-! ## The end of an instance (R448, R449) -/

/-- The completion record (R449). -/
def Inst.record (i : Inst) (slot status : Nat) : List Byte :=
  let n := Nat.min 4096 i.nn
  let ents := if i.broken then [] else (List.range n).map i.ent
  let cnt := fun (st : Nat) => (ents.filter (fun e => e.st == st)).length % 4096
  toBytes 8 (i.gen * 2 ^ 48 + slot * 2 ^ 40 + n * 2 ^ 16 + status) ++ toBytes 8 (cnt 5 * 2 ^ 32 + cnt 4 * 2 ^ 16 + cnt 3)
    ++ List.replicate 48 0
    ++ (if i.broken then List.replicate n 0
        else ents.map (fun e => BitVec.ofNat 8 (e.tries * 16 + bitNat e.ran * 8 + e.st)))

/-- The nodes of an ended instance with their entries; none of one whose table broke the rules. -/
def Inst.ends (i : Inst) : List (Nat × NodeEnt) := if i.broken then [] else (List.range i.nn).map (fun n => (n, i.ent n))
/-- The status of an ended instance (R449). -/
def Inst.endStatus (i : Inst) : Nat :=
  if i.broken then 19 else if i.ends.any (fun e => e.2.st == 4) then 2 else if i.ends.any (fun e => e.2.st == 5) then 1 else 0
/-- The bytes of an ended instance's state area (R448). -/
def Inst.area (i : Inst) : List Byte := i.ends.flatMap (fun e => (entWords i.gen e.2).flatMap (fun w => toBytes 8 w.toNat))
/-- Whether no line of an ended instance's state area and completion record is claimed or busy. -/
def State.endFree (s : State) (slot : Nat) : Bool :=
  let i := s.inst slot
  let m := slotMaster slot
  s.vaFree m i.asid 40 (i.words.getD 1 0).toNat i.area.length && s.vaFree m i.asid 4 (i.words.getD 2 0).toNat (i.record slot i.endStatus).length
/-- What the guest holds of those lines is asked back (log entry 35). -/
def State.endRecall (s : State) (slot : Nat) : State :=
  let i := s.inst slot
  let m := slotMaster slot
  (s.vaRecall m i.asid 40 (i.words.getD 1 0).toNat i.area.length).vaRecall m i.asid 4 (i.words.getD 2 0).toNat (i.record slot i.endStatus).length
/-- The end of an instance (R448, R449): the state area and the completion record are written, the slot becomes FREE, the successor
is released. -/
def State.endInst (s : State) (slot : Nat) : State :=
  let i := s.inst slot
  let m := slotMaster slot
  let rec' := i.record slot i.endStatus
  let crec := (i.words.getD 2 0).toNat
  let ok := s.writable m i.asid crec rec'.length
  let s := s.vaWrite m i.asid 40 (i.words.getD 1 0).toNat i.area
  let s := if ok then s.vaWrite m i.asid 4 crec rec' else if i.broken then s else s.machineCheck (graphEp m) (256 + slot)
  let low := match i.ends.find? (fun e => e.2.st == 4) with | some e => e.1 | none => 0
  let detail := if ok then low else 0xFFFF
  let s := s.modInst slot (fun i => { i with st := 0, succ := none, host := none })
  (s.releaseSucc (graphEp m) i.succ i.endStatus detail).hostDone i.host i.endStatus detail

/-- `INSTANCE_END` (R448, R449): an owner's final counts reach the master, and with the last the slot is ENDING; an ENDING instance ends
when its lines are free. -/
def execInstanceEnd (slot gen : Nat) (owner : Option Nat) (s : State) : Out :=
  let i := s.inst slot
  .next (match owner with
    | some k =>
      if !s.liveInst slot gen || i.broken then s
      else if i.acks.erase k != [] then s.modInst slot (fun i => { i with acks := i.acks.erase k })
      else (s.modInst slot (fun i => { i with acks := [], st := 2 })).later (.instanceEnd slot gen none)
    | none =>
      if i.gen != gen || i.st != 2 then s
      else if s.endFree slot then s.endInst slot else (s.endRecall slot).later (.instanceEnd slot gen none))

/-! ## Instructions (R450-R454) -/

/-- A slot taken for a new instance (R430, R431, R452). -/
def State.takeSlot (s : State) (b : List Word) (asid : BitVec 16) (succ : Option Release) (host : Option (Nat × Nat)) : State :=
  let slot := fld (b.getD 6 0) 0 8
  let held := s.areaEnts (slotMaster slot) asid b (((s.inst slot).gen + 1) % 2 ^ 16)
  s.modInst slot (fun i =>
    let gen := (i.gen + 1) % 2 ^ 16
    { Inst.reset with
      st := 1, gen := gen, asid := asid, words := b, succ := succ.map (fun r => { r with gen := BitVec.ofNat 16 gen, asid := asid })
      host := host, held := held, prevArea := some (b.getD 1 0), fresh := gen == 0 || i.prevArea != some (b.getD 1 0) })
/-- Whether the address fields of a run block keep R452. -/
def runAddrOk (b : List Word) : Bool :=
  let w := fun (k : Nat) => b.getD k 0
  zeroField (w 0) 57 7 && zeroField (w 0) 0 6 && zeroField (w 1) 57 7 && zeroField (w 1) 0 12 && zeroField (w 2) 57 7
    && zeroField (w 2) 0 7 && zeroField (w 6) 8 56

/-- `GRRUN` (R452). -/
def execGrrun (rs1 rd : Reg) (s : State) : Out :=
  let o := s.xr rs1
  let b := s.lmWords o.toNat 8
  let slot := fld (b.getD 6 0) 0 8
  .next (if !blockOk o 64 then s.raise60 32
    else if !runAddrOk b || !zeroField (b.getD 7 0) 16 48 then s.raise60 33
    else match s.succWord (b.getD 3 0) with
    | .bad => s.raise60 33
    | .fault c v => s.raise c v
    | sw =>
      if s.det && rd != 0 then s.raise 51 0
      else if (s.inst slot).st != 0 then
        (if rd == 0 then s.raise60 35
          else s.withRoom 1 0 (fun s => let (u, s) := s.newResult rd; s.answerCf u (BitVec.ofNat 64 (2 ^ 63 + 1))))
      else s.withRoom (if rd == 0 then 0 else 1) 1 (fun s =>
        let asid := if s.cf.fm then BitVec.ofNat 16 (fld (b.getD 7 0) 0 16) else s.cf.asid
        let sw : SuccWord := match sw with | .ok r => .ok { r with asid := asid } | w => w
        let s := (s.acceptSucc sw).takeSlot b asid sw.rel? none
        let gen := (s.inst slot).gen
        let m := slotMaster slot
        let (u, s) := s.newResult rd
        (s.answerCf u (BitVec.ofNat 64 (gen * 2 ^ 16 + slot))).releaseThen (widerScope .module (succScope s.iss.ep sw.rel?))
          [(0, s.iss.ep, graphEp m, .graphStart slot gen m 0)]))

/-- Whether a selector's reserved bits are zero and its OP allowed (R451). -/
def selectorOk (w : Word) (sig all : Bool) : Bool :=
  zeroField w 40 8 && zeroField w 33 3 && zeroField w 28 4 && zeroField w 8 8 && fld w 36 4 ≤ (if sig then 1 else 0) && (all || !bitOf w 32)
/-- The tests of R453 for codes 2 to 4; 0 when they pass. -/
def State.selectorCode (s : State) (w : Word) (anySt : Bool) : Nat :=
  let i := s.inst (fld w 0 8)
  if (i.st != 1 && !anySt) || i.gen != fld w 48 16 then 2
  else if !s.cf.fm && i.asid != s.cf.asid then 3
  else if !bitOf w 32 && i.nn ≤ fld w 16 12 then 4
  else 0

/-- Whether the master of a LIVE slot has still to read the header, before which it cannot say what nodes there are (R433). -/
def State.unread (s : State) (slot : Nat) : Bool := (s.inst slot).st == 1 && (s.inst slot).hdr.isEmpty
/-- A graph instruction that writes a code (R453), held until the master of its slot has read the header. -/
def State.graphResult (s : State) (slot : Nat) (rd : Reg) (k : State → State × Word) : State :=
  if s.unread slot then s.hold .queue
  else s.withRoom (if rd == 0 then 0 else 1) 0 (fun s =>
    let (u, s) := s.newResult rd
    let (s, v) := k s
    s.answerCf u v)

/-- `GRSIG` (R453). A SIGNAL to a firing that one has already completed, whose deliveries are awaited, does nothing more. -/
def execGrsig (rs1 rd : Reg) (s : State) : Out :=
  let w := s.xr rs1
  let slot := fld w 0 8; let n := fld w 16 12
  .next (if !selectorOk w true false then s.raise60 34
    else if s.det && rd != 0 then s.raise 51 0
    else s.graphResult slot rd (fun s =>
      let code := s.selectorCode w false
      let i := s.inst slot
      let e := i.ent n
      if code != 0 then (s, BitVec.ofNat 64 code)
      else if fld w 36 4 == 0 then
        if e.st == 2 && nKind (i.nrec n) == 5 && bitOf (nPay (i.nrec n) 2) 0 then
          (if e.awaited != 0 || e.fault.isSome then s else s.firingDone slot n, 0)
        else (s, 1)
      else if e.st == 6 then ((s.modEnt slot n (fun e => { e with tries := e.tries + 1, again := true })).ready1 slot n, 0)
      else (s, 1)))

/-- Nodes cancelled at once (R443, R447). -/
def State.cancelNodes (s : State) (slot : Nat) (l : List Nat) : State :=
  (l.foldl (fun t n => t.modEnt slot n (fun e => cancelEnt e false)) s).checkEnd slot

/-- `GRCAN` (R453): what it names is cancelled before its result is written; the cone below a node is walked from there. -/
def execGrcan (rs1 rd : Reg) (s : State) : Out :=
  let w := s.xr rs1
  let slot := fld w 0 8; let n := fld w 16 12
  .next (if !selectorOk w false true then s.raise60 34
    else if s.det && rd != 0 then s.raise 51 0
    else s.graphResult slot rd (fun s =>
      let code := s.selectorCode w false
      let i := s.inst slot
      if code != 0 then (s, BitVec.ofNat 64 code)
      else if bitOf w 32 then
        (s.cancelNodes slot ((List.range i.nn).filter (fun k => !finalSt (i.ent k).st)), 0)
      else if (i.ent n).st == 6 then (((s.modEnt slot n (fun e => { e with st := 4 })).walkFromNode slot n).checkEnd slot, 0)
      else ((s.cancelNodes slot [n]).later (.cancelWalkStep slot i.gen (slotMaster slot) [] [n] [n] true false), 0)))

/-- `GRQRY` (R454). -/
def execGrqry (rs1 rd : Reg) (s : State) : Out :=
  let w := s.xr rs1
  let all := bitOf w 32
  .next (if !selectorOk w false true then s.raise60 34
    else if s.det then s.raise 51 0
    else s.graphResult (fld w 0 8) rd (fun s =>
      let code := s.selectorCode w all
      let i := s.inst (fld w 0 8)
      let left := ((List.range i.nn).filter (fun k => !finalSt (i.ent k).st)).length
      let v := if all then BitVec.ofNat 64 (i.gen * 2 ^ 48 + i.asid.toNat * 2 ^ 32 + left % 4096 * 2 ^ 16 + i.st)
        else (entWords i.gen (i.ent (fld w 16 12))).headD 0
      (s, if code != 0 then BitVec.ofNat 64 (2 ^ 63 + code) else v)))

/-- Firmware's SLOTEND (R456): every node of the instance that is not final is cancelled, a HELD one FAULTED. -/
def State.slotEndWrite (s : State) (slot : Nat) : State :=
  let i := s.inst slot
  if i.st != 1 then s
  else s.later (.cancelWalkStep slot i.gen (slotMaster slot) ((List.range i.nn).filter (fun k => !finalSt (i.ent k).st)) [] [] false true)

end Sys2Proof.Machine
end

