-- ==== Sys2Proof/Machine/Spawn.lean ====
section
/-! DEFINITION. The spawn unit and the termination tree: spawned children, join counters, stealing, waves (14_spawn.md R457-R475).
The termination report is in Host.lean. -/

namespace Sys2Proof.Machine

/-- Cause 61 with a code (R462). -/
def State.raise61 (s : State) (code : Nat) : State := s.raise 61 (s.evalCode code)

/-! ## SPAWN (R461, R464) -/

/-- The cores of a domain of a core: its geode, slab or module (R464). -/
def domainCores (dom ep : Nat) : List Nat :=
  match dom with
  | 0 => [ep]
  | 1 => (List.range 8).map (fun k => ep / 8 * 8 + k)
  | 2 => slabCores (epSlab ep)
  | _ => List.range 4096
/-- The child's PATH (R464). -/
def childPath (p : Word) (k : Nat) : Word := (p <<< 16) + BitVec.ofNat 64 k + 1
/-- The hash of a PATH (R464). -/
def pathHash (p : Word) : Nat := (fld p 32 32 ^^^ fld p 0 32) * 0x9E3779B1 % 2 ^ 32
/-- The hashed core of a domain (R464); none when no core is placeable. -/
def State.hashedCore (s : State) (dom ep : Nat) (p : Word) : Option Nat :=
  let l := (domainCores dom ep).filter s.placeable
  l[pathHash p * l.length / 2 ^ 32]?
/-- Whether a record keeps R195. -/
def recordOk (w0 w1 : Word) : Bool := zeroField w0 57 7 && zeroField w0 3 2 && zeroField w1 24 4 && fld w1 28 4 < 5
/-- The pushes of a core onto its own deque that have not been performed. -/
def State.ownPushes (s : State) (ep : Nat) : List Child :=
  let own := fun (ev : Event) => match ev with
    | .dequePush e c => if e == ep && c.rel.srcEp == ep then some c else none
    | _ => none
  (s.core ep).oq.flatMap (fun e => match e.item with
    | .release _ evs => evs.filterMap (fun x => own x.2.2.2)
    | _ => []) ++ s.net.filterMap (fun m => own m.ev)
/-- Whether a core's deque has no room for another child of its own. -/
def State.dequeFull (s : State) (ep : Nat) : Bool :=
  let u := (s.core ep).spawn
  64 + u.ringSize ≤ u.deque.length + (s.ownPushes ep).length
/-- A join counter. -/
def Core.join (c : Core) (j : Nat) : JoinCtr := vget JoinCtr.free c.spawn.joins j
/-- The state with a join counter changed. -/
def State.modJoin (s : State) (ep j : Nat) (k : JoinCtr → JoinCtr) : State :=
  s.modSpawn ep (fun u => { u with joins := vset u.joins j (k (vget JoinCtr.free u.joins j)) })
/-- Whether a spawn control keeps its layout (R462). -/
def controlOk (c : Word) (h : Bool) (dom : Nat) : Bool :=
  zeroField c 7 57 && (!bitOf c 6 || zeroField c 0 6) && (!h || dom != 0)

/-- A child handed to its deque (R461, R462): the release, and the push. Word 1 and the release carry the GEN of the issuing frame's
record. -/
def State.spawnChild (s : State) (i : Nat) (c : Word) (h : Bool) (dom target : Nat) : State :=
  let ep := s.iss.ep
  let f := s.cf
  let nj := bitOf c 6; let j := fld c 0 6
  let k := f.ordinal.toNat
  let otag := if nj then 2 ^ 18 - 1 else j * 2 ^ 12 + ep % 4096
  let gen := fld (f.record.getD 1 0) 32 16
  let word1 := BitVec.ofNat 64 (f.asid.toNat * 2 ^ 48 + gen * 2 ^ 32 + 3 * 2 ^ 28 + otag)
  let rec' := listSet ((List.range 8).map (fun k => s.recWord i k)) 1 word1
  let rel := Release.mk s.srcDev ep 0 target none f.level f.asid (BitVec.ofNat 16 gen) 0 0 f.fm
  let js := if nj then 0 else (s.cc.join j).jscope
  let child := Child.mk rel rec' (childPath f.path k) js (ep % 4096) j nj dom h (k % 2 ^ 16)
  let scope := if dom == 0 then Scope.core else if h then narrowScope ep target else scopeOfCode dom
  let s := if nj then s else s.modJoin ep j (fun x => { x with pending := x.pending + 1 })
  let s := s.modCf (fun f => { f with ordinal := f.ordinal + 1 })
  let s := if target == ep then s else s.countSent ep f.asid
  s.releaseThen scope [(if target == ep then 4 else 0, ep, target, .dequePush target child)]

/-- `SPAWN` (R461). -/
def execSpawn (y : Bool) (p : BitVec 2) (rs2 rs1 rd : Reg) (s : State) : Out :=
  let i := s.xr rs1; let c := s.xr rs2
  let dom := p.toNat
  let w0 := s.recWord i.toNat 0; let w1 := s.recWord i.toNat 1
  let j := s.cc.join (fld c 0 6)
  let target := if dom == 0 || !y then some s.iss.ep else s.hashedCore dom s.iss.ep (childPath s.cf.path s.cf.ordinal.toNat)
  .next (if !zeroField i 8 56 then s.raise 54 i
    else if !controlOk c y dom then s.raise61 5
    else if s.cc.recbusy.getLsbD i.toNat then s.raise 31 i
    else if !recordOk w0 w1 || fld w0 0 3 != s.cf.level.toNat then s.raise61 0
    else if !bitOf c 6 && (j.st != 1 || j.asid != s.cf.asid) then s.raise61 1
    else if !bitOf c 6 && j.pending == 65535 then s.raise61 4
    else if s.det && (rd != 0 || (dom != 0 && !y)) then s.raise 51 0
    else match target with
      | none => s.raise 55 0
      | some t =>
        if t == s.iss.ep && s.dequeFull s.iss.ep then
          (if rd == 0 then s.raise61 2
            else s.withRoom 1 0 (fun s => let (u, s) := s.newResult rd; s.answerCf u 1))
        else s.withRoom (if rd == 0 then 0 else 1) 1 (fun s =>
          let (u, s) := s.newResult rd
          (s.spawnChild i.toNat c y dom t).answerCf u 0))

/-- The acknowledgement of a push (R461, R468): a graph engine's record slot is free again. -/
def State.pushAcked (s : State) (r : Release) : State := if epClass r.srcEp == 3 then s.unbusy r else s

/-- `DEQUE_PUSH` (R461, R468, R470): a child enters a deque, and waits while it is full; a push from elsewhere is acknowledged. One to a
core that refuses packets is a machine check that names its source (R229, R247). -/
def execDequePush (ep : Nat) (c : Child) (s : State) : Out :=
  let src := c.rel.srcEp
  .next (if (s.core ep).refuses then (s.countRecv ep c.rel.asid).machineCheckOf c.rel.srcDev src 2
    else if (s.core ep).spawn.full then
      (if src == ep then s.later (.dequePush ep c) else s.requeue 0 src ep (.dequePush ep c))
    else
      let s := if src == ep then s else (s.countRecv ep c.rel.asid).send 1 ep src (.pushAck c.rel)
      (s.dequeAdd ep c).select ep)

/-! ## Join counters (R459, R460, R463, R465) -/

/-- The identity of a fold (R459). -/
def foldIdentity (op : Nat) : Word :=
  match op with
  | 2 => 0x8000000000000000
  | 3 => 0x7FFFFFFFFFFFFFFF
  | 5 => 0xFFFFFFFFFFFFFFFF
  | 7 => 0xFFFFFFFFFFFFFFFF
  | _ => 0
/-- fold(VALUE, v) (R459). -/
def foldValue (op : Nat) (a v : Word) : Word :=
  match op with
  | 1 => a + v
  | 2 => if a.slt v then v else a
  | 3 => if v.slt a then v else a
  | 4 => if a.ult v then v else a
  | 5 => if v.ult a then v else a
  | 6 => a ||| v
  | 7 => a &&& v
  | 8 => a ^^^ v
  | _ => a

/-- `JOINI` (R460, R462). -/
def execJoini (rs1 rd : Reg) (s : State) : Out :=
  let w := s.xr rs1
  let j := fld w 0 6; let op := fld w 8 4; let sc := fld w 12 3
  .next (if !zeroField w 15 49 || !zeroField w 6 2 || 8 < op || 4 < sc then s.raise61 5
    else if s.det && rd != 0 then s.raise 51 0
    else if (s.cc.join j).st != 0 then
      (if rd == 0 then s.raise61 3
        else s.withRoom 1 0 (fun s => let (u, s) := s.newResult rd; s.answerCf u 1))
    else s.withRoom (if rd == 0 then 0 else 1) 0 (fun s =>
      let (u, s) := s.newResult rd
      (s.modJoin s.iss.ep j (fun _ => { JoinCtr.free with st := 1, jscope := sc, op := op, asid := s.cf.asid, value := foldIdentity op })).answerCf u 0))

/-- An ARMED counter that is empty becomes FREE, and its continuation is released with VALUE in ARG5 (R460, R463). -/
def State.joinEnd (s : State) (ep j : Nat) : State :=
  let x := (s.core ep).join j
  if x.st != 2 || !x.rdy || x.pending != 0 then s
  else
    let s := s.modJoin ep j (fun _ => JoinCtr.free)
    match x.cont with
    | none => s
    | some r => (s.lmWrite ep (0x7C000 + 64 * r.recIdx.toNat + 56) (toBytes 8 x.value.toNat)).releaseSucc ep (some r) (if x.flt then 2 else 0) 0

/-- `JOIN` (R462, R463). -/
def execJoin (rs2 rs1 rd : Reg) (s : State) : Out :=
  let w := s.xr rs1
  let j := fld w 0 6
  let x := s.cc.join j
  .next (if !zeroField w 6 58 then s.raise61 5
    else match s.succWord (s.xr rs2) with
    | .bad => s.raise61 5
    | .fault c v => s.raise c v
    | sw =>
      if x.st != 1 || x.asid != s.cf.asid then s.raise61 1
      else s.withRoom (if rd == 0 then 0 else 1) 1 (fun s =>
        let ep := s.iss.ep
        let s := (s.acceptSucc sw).modJoin ep j (fun x => { x with st := 2, rdy := false, word := s.xr rs2, cont := sw.rel? })
        let sc := match sw.rel? with
          | some r => widerScope (scopeOfCode x.jscope) (relScope r ep)
          | none => scopeOfCode x.jscope
        let (u, s) := s.newResult rd
        (s.answerCf u 0).releaseThen sc [(4, ep, ep, .joinMessage (JoinMsg.mk ep ep j s.cf.asid none false true s.cf.level.toNat))]))

/-- `JOIN_MESSAGE` (R460, R465): a contribution folds into its counter; one that finds it FREE or another ASID's is a machine
check, and so is one to a core that refuses packets (R229). -/
def execJoinMessage (m : JoinMsg) (s : State) : Out :=
  let c := s.core m.core
  let x := c.join m.idx
  .next (if m.arm then (if x.st == 2 && x.asid == m.asid then (s.modJoin m.core m.idx (fun x => { x with rdy := true })).joinEnd m.core m.idx else s)
    else
      let s := s.countRecv m.core m.asid
      if c.refuses then s.machineCheck m.src 2
      else if x.st == 0 || x.asid != m.asid then s.machineCheck m.src 4
      else (s.modJoin m.core m.idx (fun x => { x with
          pending := x.pending - 1
          value := (match m.value with | some v => foldValue x.op x.value v | none => x.value)
          flt := x.flt || m.flt })).joinEnd m.core m.idx)

/-- The join message of a frame with OKIND 3 that pops (R465): its contribution, or the identity with the fault flag. -/
def joinOfFrame (ep : Nat) (f : Frame) (bad : Bool) : List (Nat × Nat × Nat × Event) :=
  match f.joinOf with
  | none => []
  | some (core, j) => [(0, ep, core, .joinMessage (JoinMsg.mk ep core j f.asid (if bad then none else some (f.getX 10)) bad false f.level.toNat))]

/-! ## Stealing (R466, R467) -/

/-- Whether a core is idle (R466): no live frame, no ready-FIFO entry, no deque entry. -/
def Core.idle (c : Core) : Bool :=
  c.top.isNone && c.push.isEmpty && c.spawn.deque.isEmpty
    && (List.range 8).all (fun p => (vget [] c.fifo p).isEmpty && (vget [] c.ring p).isEmpty)
/-- MAXDOM of STEALCFG. -/
def SpawnUnit.maxDom (u : SpawnUnit) : Nat := fld u.steal 0 2
/-- Whether a core steals (R466). -/
def State.steals (s : State) (ep : Nat) : Bool := (s.core ep).idle && epClass ep == 0 && s.placeable ep && 1 ≤ (s.core ep).spawn.maxDom
/-- The victims of an attempt, in order (R466). -/
def SpawnUnit.victimList (u : SpawnUnit) (ep : Nat) : List Nat :=
  let tries := fld u.steal 16 8
  (List.range 7).map (fun k => ep / 8 * 8 + (ep + 1 + k) % 8)
    ++ (if 2 ≤ u.maxDom then List.replicate tries 4096 else []) ++ (if u.maxDom == 3 then List.replicate tries 4097 else [])
/-- A core drawn with the LFSR: of the slab outside the geode, or of another slab. -/
def drawn (ep kind : Nat) (l : BitVec 16) : Nat :=
  let cs := if kind == 4096 then (slabCores (epSlab ep)).filter (fun c => c / 8 != ep / 8)
    else (List.range 4096).filter (fun c => epSlab c != epSlab ep)
  cs.getD (Config.lfsrPick l % cs.length) ep
/-- The next victim of an attempt is asked; a draw of a core that is not placeable is skipped (R466). -/
def State.stealNext (s : State) (ep : Nat) : Nat → State
  | 0 => s
  | n + 1 =>
    let u := (s.core ep).spawn
    match u.victims with
    | [] => s
    | v :: l =>
      if v < 4096 then
        if s.disabled v then (s.modSpawn ep (fun u => { u with victims := l })).stealNext ep n
        else s.send 0 ep v (.stealRequest ep v)
      else
        let r := Config.lfsrStep u.lfsr
        let c := drawn ep v r
        let s := s.modSpawn ep (fun u => { u with lfsr := r })
        if s.placeable c && c != ep then
          (s.modSpawn ep (fun u => { u with victims := c :: l })).send 0 ep c (.stealRequest ep c)
        else (s.modSpawn ep (fun u => { u with victims := l })).stealNext ep n

/-- `STEAL_ATTEMPT` (R466): an idle core starts on its victims. -/
def execStealAttempt (ep : Nat) (s : State) : Out :=
  .next (if !s.steals ep || !(s.core ep).spawn.victims.isEmpty then s
    else
      let s := s.modSpawn ep (fun u => { u with attempts := Nat.min 255 (u.attempts + 1), victims := u.victimList ep })
      s.stealNext ep ((s.core ep).spawn.victims.length + 1))

/-- Whether an entry may go to a thief (R467). -/
def childStealable (c : Child) (victim thief : Nat) : Bool := !c.hashed && scopeCode (narrowScope victim thief) ≤ c.dom
/-- `STEAL_REQUEST` (R467): the oldest entry of the highest PRIO that may go, or EMPTY. A vacated core whose forwarding entry is cleared
answers, with nothing, where R229 would have packets refused (DESIGN CHOICE; log entry 83). -/
def execStealRequest (thief victim : Nat) (s : State) : Out :=
  let s := s.dequeLost victim
  let l := (s.core victim).spawn.deque
  let ok := fun (d : Child × Option Nat) => childStealable d.1 victim thief
  let p := (l.filter ok).foldl (fun n d => Nat.max n d.1.rel.prio.toNat) 0
  .next (match l.findIdx? (fun d => ok d && d.1.rel.prio.toNat == p) with
    | none => s.send 1 victim thief (.stealGrant thief victim none)
    | some k =>
      let c := match l[k]? with | some d => some (s.childAt victim d) | none => none
      let s := (s.modSpawn victim (fun u => { u with deque := u.deque.eraseIdx k, granted := (u.granted + 1) % 2 ^ 32 })).dequeFill victim
      let s := match c with | some c => s.countSent victim c.rel.asid | none => s
      s.send 1 victim thief (.stealGrant thief victim c))

/-- `STEAL_GRANT` (R466, R467): the entry arrives and the thief stops; or the next victim is asked. -/
def execStealGrant (thief victim : Nat) (c : Option Child) (s : State) : Out :=
  let u := (s.core thief).spawn
  .next (match c with
    | some c =>
      if u.full then s.requeue 1 victim thief (.stealGrant thief victim (some c))
      else
        let s := (s.countRecv thief c.rel.asid).modSpawn thief (fun u => { u with victims := [], received := (u.received + 1) % 2 ^ 32 })
        (s.dequeAdd thief c).select thief
    | none =>
      if s.steals thief then
        (s.modSpawn thief (fun u => { u with victims := u.victims.drop 1 })).stealNext thief (u.victims.length + 1)
      else s.modSpawn thief (fun u => { u with victims := [] }))

/-! ## Termination (R469-R472) -/

/-- The module termination root. -/
def termRoot : Nat := agentEp 0 4
/-- The termination root of a slab. -/
def slabTerm (sl : Nat) : Nat := agentEp sl 2
/-- The leaves of a slab: task cores, memory cores, the graph engine (R469). -/
def slabLeaves (sl : Nat) : List Nat := slabCores sl ++ (List.range 32).map (memCoreEp sl) ++ [graphEp sl]
/-- The leaf at an endpoint. -/
def State.leafAt (s : State) (ep : Nat) : Leaf := if epClass ep == 3 then (s.graph (epSlab ep)).leaf else (s.core ep).leaf
/-- The state with a leaf changed. -/
def State.modLeaf (s : State) (ep : Nat) (k : Leaf → Leaf) : State :=
  if epClass ep == 3 then s.modGraph (epSlab ep) (fun g => { g with leaf := k g.leaf }) else s.modCore ep (fun c => { c with leaf := k c.leaf })
/-- Whether an arrival of an ASID at a core is being taken in. -/
def arrivingAt (ep : Nat) (asid : BitVec 16) (m : Msg) : Bool :=
  match m.ev with
  | .releaseArrival e x => e == ep && x.rel.asid == asid
  | _ => false
/-- Whether a core holds work of an ASID (R470). -/
def State.coreWorks (s : State) (ep : Nat) (asid : BitVec 16) : Bool :=
  let c := s.core ep
  let mine := fun (m : Monitor) => m.q.rel.srcEp == ep && m.q.rel.asid == asid
  c.wins.toList.any (fun f => f.st != .free && f.asid == asid)
    || (c.fifo.toList ++ c.ring.toList ++ [c.push, c.census.spawned]).any (fun l => l.any (fun e => e.rel.asid == asid))
    || (c.spawn.deque.map (fun d => d.1) ++ s.ownPushes ep).any (fun d => d.rel.asid == asid)
    || c.spawn.joins.toList.any (fun j => j.st != 0 && j.asid == asid)
    || s.net.any (arrivingAt ep asid)
    || s.cores.any (fun p => p.2.monitors.any mine) || s.homes.any (fun p => p.2.monitors.any mine)
/-- Whether a leaf holds work of an ASID (R470). -/
def State.works (s : State) (ep : Nat) (asid : BitVec 16) : Bool :=
  if epClass ep == 3 then s.insts.any (fun p => p.2.st != 0 && p.2.asid == asid) else s.coreWorks ep asid
/-- The idle bits of a leaf (R470). -/
def State.idleBits (s : State) (ep : Nat) : BitVec 16 :=
  let l := s.leafAt ep
  BitVec.ofNat 16 ((List.range 16).foldl (fun n k =>
    let e := vget 0 l.tmap k
    n + (if e.getLsbD 31 && s.works ep (e.extractLsb' 0 16) then 0 else 2 ^ k)) 0)
/-- The state with a wave at a node. -/
def State.setWave (s : State) (ep : Nat) (w : Wave) : State := { s with term := { s.term with waves := s.term.waves.put ep w } }

/-- `TERMINATION_WAVE` (R471): at a root the wave goes on down, at a leaf it is answered. -/
def execTerminationWave (ep : Nat) (s : State) : Out :=
  let start := fun (kids : List Nat) =>
    kids.foldl (fun t k => t.send 0 ep k (.terminationWave k))
      (s.setWave ep (Wave.mk kids (BitVec.allOnes 16) (List.replicate 16 0) (List.replicate 16 0)))
  .next (if ep == termRoot then (if (s.term.waves.find ep).isSome then s else start ((List.range 4).map slabTerm))
    else if ep == slabTerm (epSlab ep) then start (slabLeaves (epSlab ep))
    else
      let l := s.leafAt ep
      let up := slabTerm (epSlab ep)
      s.send 1 ep up (.waveAnswer up ep (s.idleBits ep) l.sent.toList l.recv.toList))

/-- What a wave says of a slot (R471): after two waves alike, every leaf idle and the sums equal, the slot is reported empty. -/
def State.slotWave (s : State) (w : Wave) (k : Nat) : State :=
  let t := vget TSlot.free s.term.slots k
  let idle := w.idle.getLsbD k; let sent := w.sent.getD k 0; let recv := w.recv.getD k 0
  if t.st == 0 then s
  else
    let same := t.idle == idle && t.sent == sent && t.recv == recv
    let done := t.st == 1 && same && idle && sent == recv
    let t' := { t with
      idle := idle, sent := sent, recv := recv, st := (if done then 2 else t.st)
      waves := (if same then Nat.min 65535 (t.waves + 1) else 0) }
    let s := { s with term := { s.term with slots := vset s.term.slots k t' } }
    if done then s.send 0 termRoot (agentEp 0 0x81) (.terminationReport k) else s

/-- Sums of counts modulo 2^32 (R470). -/
def addCounts (a b : List Nat) : List Nat := (a.zip b).map (fun p => (p.1 + p.2) % 2 ^ 32)
/-- `WAVE_ANSWER` (R471): combined at a node, once from each child; the last answer goes up, or decides at the module root. -/
def execWaveAnswer (ep child : Nat) (idle : BitVec 16) (sent recv : List Nat) (s : State) : Out :=
  .next (match s.term.waves.find ep with
    | none => s
    | some w =>
      if !w.left.contains child then s
      else
      let w := Wave.mk (w.left.erase child) (w.idle &&& idle) (addCounts w.sent sent) (addCounts w.recv recv)
      if !w.left.isEmpty then s.setWave ep w
      else
        let s := { s with term := { s.term with waves := s.term.waves.del ep } }
        if ep == termRoot then (List.range 16).foldl (fun t k => t.slotWave w k) s
        else s.send 1 ep termRoot (.waveAnswer termRoot ep w.idle w.sent w.recv))

/-- `TERMQ` (R472). -/
def execTermq (rs1 rd : Reg) (s : State) : Out :=
  let w := s.xr rs1
  let t := vget TSlot.free s.term.slots (fld w 0 4)
  let v := if !s.cf.fm && t.asid != s.cf.asid then 0 else BitVec.ofNat 64 (t.asid.toNat * 2 ^ 32 + t.st)
  .next (if !zeroField w 4 60 then s.raise61 6
    else if s.det then s.raise 51 0
    else s.withRoom (if rd == 0 then 0 else 1) 0 (fun s => let (u, s) := s.newResult rd; s.answerCf u v))

end Sys2Proof.Machine
end

