-- ==== Sys2Proof/Machine/Guest.lean ====
section
/-! DEFINITION. The guest engine socket: jobs, translation, duties and fencing (15_guest_socket.md R476-R494). -/

namespace Sys2Proof.Machine

/-- The guest socket's endpoint (R476). -/
def socketEp : Nat := agentEp 3 0x80
/-- JOBID of a job (R479). -/
def jobId (j : GuestJob) : Nat := j.entry + 256 * (j.reuse % 256)
/-- Cause 62 with a code (R482). -/
def State.raise62 (s : State) (code : Nat) : State := s.raise 62 (s.evalCode code)

/-! ## Instructions (R482, R483) -/

/-- `XPOST` (R482). The successor's release carries the job's priority and ASID, and GEN 0 (R481). -/
def execXpost (rs1 : Reg) (s : State) : Out :=
  let o := s.xr rs1
  let p := s.lmWords o.toNat 8
  .next (if !s.guest.en then s.raise62 0
    else if !blockOk o 64 then s.raise62 1
    else if !zeroField (p.getD 0 0) 0 48 then s.raise62 2
    else match s.succWord (p.getD 1 0) with
    | .bad => s.raise62 3
    | .fault c v => s.raise c v
    | sw => s.withRoom 0 1 (fun s =>
      let sw : SuccWord := match sw with | .ok r => .ok { r with prio := s.cf.level, asid := s.cf.asid, gen := 0 } | w => w
      let j := GuestJob.mk 0 0 0 1 s.cf.level.toNat s.cf.asid p s.iss.ep sw.rel? none false false
      (s.acceptSucc sw).releaseThen (widerScope .module (succScope s.iss.ep sw.rel?)) [(0, s.iss.ep, socketEp, .guestSubmission j)]))

/-- `XQRY` (R483). -/
def execXqry (rs1 rd : Reg) (s : State) : Out :=
  let w := s.xr rs1
  let g := s.guest
  let mine := g.jobs.filter (fun j => j.asid == s.cf.asid && j.st != 3)
  let v := if fld w 0 2 == 0 then g.state + g.reason * 2 ^ 8 + g.modules * 2 ^ 16
    else mine.length + (mine.filter (fun j => j.st == 2)).length * 2 ^ 16
  .next (if !zeroField w 2 62 || 2 ≤ fld w 0 2 then s.raise62 4
    else if s.det then s.raise 51 0
    else s.withRoom (if rd == 0 then 0 else 1) 0 (fun s => let (u, s) := s.newResult rd; s.answerCf u (BitVec.ofNat 64 v)))

/-! ## Jobs (R480, R481, R493) -/

/-- A job's successor released, or its firing completed (R481). -/
def State.jobRelease (s : State) (j : GuestJob) (status detail : Nat) : State :=
  (s.fireDone socketEp j.fire status detail).releaseSucc socketEp j.rel status detail
/-- A job completes (R481): its entry is COMPLETE while its successor is released, then FREE. -/
def State.jobDone (s : State) (j : GuestJob) (status detail : Nat) : State :=
  let s := s.modGuest (fun g => { g with jobs := g.jobs.map (fun x => if x.seq == j.seq then { x with st := 3 } else x) })
  (s.jobRelease j status detail).laterOnce .jobDelivery

/-- `GUEST_SUBMISSION` (R480, R487): a job enters the table, and waits while it is full; a fenced socket completes it at once. -/
def execGuestSubmission (j : GuestJob) (s : State) : Out :=
  let g := s.guest
  .next (if g.state == 3 || g.state == 4 then s.jobRelease j 20 g.reason
    else match (List.range 256).find? (fun e => !g.jobs.any (fun x => x.entry == e)) with
      | none => s.requeue 0 j.src socketEp (.guestSubmission j)
      | some e =>
        let k := g.reuses.get 0 e
        let j := { j with seq := g.seq, entry := e, reuse := k, st := 1 }
        (s.modGuest (fun g => { g with jobs := g.jobs ++ [j], reuses := g.reuses.put e ((k + 1) % 256), seq := g.seq + 1 })).laterOnce .jobDelivery)

/-- The words of a delivery packet (R479). -/
def deliveryWords (j : GuestJob) : List Word :=
  BitVec.ofNat 64 (fld (j.words.getD 0 0) 48 16 * 2 ^ 48 + j.asid.toNat * 2 ^ 32 + jobId j * 2 ^ 16 + j.prio) :: 0 :: j.words.drop 2
/-- A pre-emption request sent (R490): it replaces an unanswered one and takes the higher level. -/
def State.guestPreempt (s : State) (p : Nat) : State :=
  let p := Nat.max p (s.guest.preempt.getD 0)
  (s.modGuest (fun g => { g with preempt := some p })).out (.guestPreempt p)
/-- `JOB_DELIVERY` (R480, R490): the entries of COMPLETE jobs are FREE, and the oldest job of the highest priority is delivered while
its credits allow. -/
def execJobDelivery (s : State) : Out :=
  let s := s.modGuest (fun g => { g with jobs := g.jobs.filter (fun j => j.st != 3) })
  let g := s.guest
  let q := g.jobs.filter (fun j => j.st == 1)
  let p := q.foldl (fun n j => Nat.max n j.prio) 0
  let held := g.jobs.filter (fun j => j.st == 2)
  .next (match q.find? (fun j => j.prio == p) with
    | none => s
    | some j =>
      if g.state != 2 || g.credits ≤ held.length + (7 - p) then s
      else
        let s := (s.modGuest (fun g => { g with jobs := g.jobs.map (fun x => if x.seq == j.seq then { x with st := 2 } else x) })).out (.guestJob (deliveryWords j))
        let s := if held.any (fun x => x.prio < p) then s.guestPreempt p else s
        if (s.guest.jobs.any (fun x => x.st == 1)) then s.laterOnce .jobDelivery else s)

/-- `PREEMPTION_ANSWER` (R490): the answer to the request that stands clears its deadline. -/
def execPreemptionAnswer (level : Nat) (s : State) : Out :=
  .next (if s.guest.state == 2 && s.guest.preempt == some level then s.modGuest (fun g => { g with preempt := none }) else s)

/-- A fault logged (R484); its index. -/
def State.guestLog (s : State) (f : GuestFault) : Nat × State :=
  let k := s.guest.faultIdx
  (k, s.modGuest (fun g => { g with faults := g.faults.put k f, faultIdx := (k + 1) % 64 }))

/-! ## Fencing (R487-R489) -/

/-- The lines of a home that the guest is recorded to own are poisoned, the snoops it has not answered are answered I (R412), and its
requests that still wait there are not served (R489, step 1). -/
def State.fenceHome (s : State) (ep : Nat) : State :=
  let s := s.modHome ep (fun h => { h with
    buf := h.buf.filter (fun q => q.agent != 256), recallq := h.recallq.filter (fun q => q.agent != 256) })
  let h := s.home ep
  let s := h.sf.foldl (fun t e => if e.state != 1 && e.owner == 256 then t.homePut ep e.line (t.homeLine e.line) true false false else t) s
  h.txns.foldl (fun t x => x.waiting.foldl (fun u p => if p.1 == 256 then u.later (.snpresp ep 256 p.2 .i none false false false (x.q.prio, x.q.asid)) else u) t) s
/-- The actions of FENCING, after which the socket is FENCED (R489, steps 2 to 6). -/
def State.fenced (s : State) : State :=
  let g := s.guest
  let reason := g.reason
  let s := s.modGuest (fun g => { g with state := 4, grants := [], tlbops := [] })
  let s := s.homes.foldl (fun t p => t.fenceHome p.1) s
  let s := g.tlbops.foldl (fun t o => t.later (.sawDone o.1 0)) s
  let s := (sortBy (fun j => j.entry) (g.jobs.filter (fun j => j.st != 3))).foldl (fun t j => t.jobDone j 20 reason) s
  let s := if reason == 8 then s.out .guestRailOff else s
  s.machineCheck socketEp (64 + reason)
/-- Whether a timed duty of the guest is outstanding (R488); the duties of reasons 6 and 7 are missed at once, where they are checked, and
that of reason 9 is timed by itself. -/
def State.dutyOpen (s : State) (reason : Nat) : Bool :=
  let g := s.guest
  match reason with
  | 1 => g.preempt.isSome
  | 2 => g.grants.any (fun x => x.inval)
  | 3 => s.homes.any (fun p => p.2.txns.any (fun t => t.waiting.any (fun w => w.1 == 256)))
  | 4 => g.jobs.any (fun j => j.st == 2 && j.faulted)
  | 5 => g.jobs.any (fun j => j.st == 2 && j.cancelled)
  | 8 => g.hot
  | _ => false
/-- `DUTY_TIMEOUT` (R488, R489): a duty is missed; 0 stands for the actions of FENCING. -/
def execDutyTimeout (reason : Nat) (s : State) : Out :=
  .next (if reason == 0 then (if s.guest.state == 3 then s.fenced else s)
    else if s.guest.state == 2 && s.dutyOpen reason then s.fence reason else s)
/-- BOOT := 3 once the device id is assigned and the socket has left TRAINING (R515). -/
def State.bootReady (s : State) : State :=
  if s.fe.boot == 2 && s.didv && s.guest.state != 1 then { s with fe := { s.fe with boot := 3 } } else s
/-- Whether boot still waits for the socket, so that the guest's record is still to be built (R29, R477). -/
def State.booting (s : State) : Bool := s.fe.boot == 2
/-- `TRAINING_TIMEOUT` (R487): the guest has not trained and identified itself; the record shows the UCIe modules trained (R477). -/
def execTrainingTimeout (modules : Nat) (s : State) : Out :=
  .next (if s.guest.state == 1 then
      ((s.modGuest (fun g => { g with bmods := if s.booting then Nat.min 4 modules else g.bmods })).fence 9).bootReady
    else s)
/-- `GUEST_IDENTITY` (R477, R487): the socket is OPEN; at boot the fields of its record are set, once and for all (R29). -/
def execGuestIdentity (vendor part credits modules watts : Nat) (s : State) : Out :=
  .next (if s.guest.state != 1 || credits < 8 || 64 < credits || 4 < modules || modules == 0 || 150 < watts then s
    else
      let note := fun (g : Guest) => if s.booting then { g with
          vendor := vendor % 65536, part := part % 65536, jobcred := credits, watts := watts, bmods := modules } else g
      (s.modGuest (fun g => note { g with state := 2, modules := modules, credits := credits })).bootReady.laterOnce .jobDelivery)
/-- GCTL, writing 1 (R487). -/
def State.gctlFence (s : State) : State := if s.guest.state == 2 then s.fence 10 else s
/-- GCTL, writing 2 (R487). -/
def State.gctlRetrain (s : State) : State := if s.guest.state == 4 && s.guest.en then s.modGuest (fun g => { g with state := 1 }) else s
/-- JOBCANCEL (R493). -/
def State.jobCancel (s : State) (id : Nat) : State :=
  match s.guest.jobs.find? (fun j => jobId j == id) with
  | none => s
  | some j =>
    if j.st == 1 then s.jobDone j 1 0
    else if j.st == 2 then
      (s.modGuest (fun g => { g with jobs := g.jobs.map (fun x => if x.seq == j.seq then { x with cancelled := true } else x) })).out (.guestCancel id)
    else s

/-! ## The guest's packets (R481, R484-R486, R492) -/

/-- `GUEST_COMPLETION` (R481): one that is not well formed, or not of a DELIVERED job, fences the guest, and so does one of a job that
received a translation fault and does not complete with GST 1 (R488). -/
def execGuestCompletion (job gst code : Nat) (va : Word) (s : State) : Out :=
  .next (if s.guest.state != 2 then s
    else match s.guest.jobs.find? (fun j => j.st == 2 && jobId j == job) with
      | none => s.fence 7
      | some j =>
        if 3 ≤ gst then s.fence 7
        else if j.cancelled then s.jobDone j 1 0
        else if j.faulted && gst != 1 then s.fence 4
        else if gst == 0 then s.jobDone j 0 0
        else if gst == 2 then s.jobDone j 21 (code % 65536)
        else match s.guest.faults.find? (fun f => f.2.job == job && f.2.va == va) with
          | some f => s.jobDone j 2 (f.2.kind * 2 ^ 12 + f.1 * 2 ^ 6)
          | none =>
            let (k, s) := s.guestLog (GuestFault.mk job 3 j.asid va)
            s.jobDone j 2 (3 * 2 ^ 12 + k * 2 ^ 6))

/-- Grants invalidated (R485). -/
def State.invalidate (s : State) (hit : Grant → Bool) : State :=
  let l := s.guest.grants.filter (fun g => hit g && !g.inval)
  l.foldl (fun t g => t.out (.guestInval g.idx))
    (s.modGuest (fun g => { g with grants := g.grants.map (fun x => if hit x then { x with inval := true } else x) }))
/-- `TRANSLATION_REQUEST` (R484): a grant or a fault; a full grant table has its oldest grant invalidated first. -/
def execTranslationRequest (job : Nat) (va : Word) (write atomic : Bool) (s : State) : Out :=
  .next (if s.guest.state != 2 then s
    else match s.guest.jobs.find? (fun j => j.st == 2 && jobId j == job) with
      | none => s.fence 7
      | some j =>
        if 4096 ≤ s.guest.grants.length then
          let s := if s.guest.grants.any (fun g => g.inval) then s
            else match s.guest.grants.head? with
              | some g => s.invalidate (fun x => x.idx == g.idx)
              | none => s
          s.later (.translationRequest job va write atomic)
        else
          let w := s.walk 3 j.asid va.toNat (if atomic then .atomic else if write then .write else .read)
          let s := s.modSlab 3 (fun b => b.noteWalk j.asid w.read)
          let fault := fun (s : State) (kind : Nat) =>
            let (_, s) := s.guestLog (GuestFault.mk job kind j.asid va)
            (s.modGuest (fun g => { g with jobs := g.jobs.map (fun x => if x.seq == j.seq then { x with faulted := true } else x) })).out
              (.guestFault job kind va)
          match w.res, w.leaf with
          | .ok pa ns, some e =>
            if write && !bitOf e.pte 2 then fault s 1
            else
              let idx := ((List.range 4096).find? (fun k => !s.guest.grants.any (fun g => g.idx == k))).getD 0
              let g := Grant.mk idx e.page (fld e.pte 61 3) (pa / 2 ^ e.bits * 2 ^ e.bits) (bitOf e.pte 2) (bitOf e.pte 3) j.asid false ns
              (s.modGuest (fun x => { x with grants := x.grants ++ [g] })).out (.guestGrant job g)
          | .unpopulated, _ => fault s 2
          | _, _ => fault s 1)

/-- `INVALIDATION_ANSWER` (R485): the grant is free, and the commands that waited for it only are done. -/
def execInvalidationAnswer (grant : Nat) (s : State) : Out :=
  .next (if s.guest.state != 2 || !s.guest.grants.any (fun g => g.idx == grant && g.inval) then s
    else
      let s := s.modGuest (fun g => { g with
        grants := g.grants.filter (fun x => x.idx != grant), tlbops := g.tlbops.map (fun o => (o.1, o.2.erase grant)) })
      let done := s.guest.tlbops.filter (fun o => o.2.isEmpty)
      done.foldl (fun t o => t.later (.sawDone o.1 0))
        (s.modGuest (fun g => { g with tlbops := g.tlbops.filter (fun o => !o.2.isEmpty) })))

/-- `POISON_REPORT` (R486): the home poisons the line and reports a machine check. -/
def execPoisonReport (line : Nat) (s : State) : Out :=
  let l := lineOf line
  let h := homeOf l
  .next (if s.guest.state != 2 || !paPopulated l then s else (s.homePut h l (s.homeLine l) true false false).machineCheck h 7)

/-- `POWER_REPORT` (R492): a draw above the cap over ten reports, 1 ms, sends THROTTLE. -/
def execPowerReport (watts : Nat) (s : State) : Out :=
  let l := (watts % 256 :: s.guest.draws).take 10
  let high : Bool := l.length == 10 && 10 * s.guest.cap < l.foldl (fun n x => n + x) 0
  let t := s.modGuest (fun g => { g with draws := l, hot := high && g.state == 2 })
  .next (if high && s.guest.state == 2 && !s.guest.hot then t.out .guestThrottle else t)

end Sys2Proof.Machine
end

