-- ==== Sys2Proof/Machine/Host.lean ====
section
/-! DEFINITION. The host port and the front end: doorbells, queues, dispatch, completions, BAR2, launches (16_host_port.md
R495-R509). -/

namespace Sys2Proof.Machine

/-- A queue. -/
def State.queue (s : State) (q : Nat) : Queue := s.fe.queues.get Queue.reset q
/-- The state with the front end changed. -/
def State.modFe (s : State) (k : FrontEnd → FrontEnd) : State := { s with fe := k s.fe }
/-- The state with a queue changed. -/
def State.modQueue (s : State) (q : Nat) (k : Queue → Queue) : State :=
  s.modFe (fun f => { f with queues := f.queues.put q (k (f.queues.get Queue.reset q)) })
/-- A difference of packet numbers, modulo 2^32. -/
def ahead (a b : Nat) : Nat := (a + 2 ^ 32 - b % 2 ^ 32) % 2 ^ 32
/-- Packets announced and not dispatched. -/
def Queue.undispatched (x : Queue) : Nat := let n := ahead x.tail x.next; if n ≤ 2 ^ x.log2 then n else 0

/-- The cores of the firmware column, in ascending order (R510). -/
def State.fwCores (s : State) : List Nat :=
  (List.range 4).flatMap (fun sl =>
    let row0 := fld s.pkg.slabcol (8 * sl + 2) 4; let n := fld s.pkg.slabcol (8 * sl + 6) 2 + 1
    (List.range n).flatMap (fun j => (List.range 8).map (fun c => 8 * (128 * sl + 8 * (row0 + j) + fld s.pkg.cols (4 * sl) 3) + c)))
/-- ROLE of a firmware core (R510, R511): 0 dispatch, 1 trap handling, 2 prefetch, 3 event handling. -/
def FrontEnd.role (f : FrontEnd) (k : Nat) : Nat :=
  match f.roles.find k with
  | some r => r
  | none => if k % 8 == 0 then 0 else if k % 8 % 3 == 0 then 3 else k % 8 % 3
/-- The front-end core that serves a queue (R509): the dispatch core that holds its slot, or the core of FEROUTE. Slots go round the
dispatch cores in order, which the spec leaves open (DESIGN CHOICE; log entry 76). -/
def State.queueCore (s : State) (slot : Option Nat) : Nat :=
  match slot with
  | none => s.fe.fecore
  | some k =>
    let l := (s.fwCores.zipIdx.filter (fun p => s.fe.role p.2 == 0)).map Prod.fst
    l.getD (k % l.length) s.fe.fecore
/-- Whether a queue's packet is being read, or its words are on their way to the front end (R505). -/
def State.reading (s : State) (q : Nat) : Bool :=
  s.net.any (fun m => match m.ev with | .queueData k _ _ _ => k == q | _ => false)
    || s.once.any (fun o => match o.use with | .packet k _ => k == q | _ => false)
/-- A packet of the front end to the host port agent (R509), unless it is already on its way. -/
def State.feAsk (s : State) (q : Nat) (ev : Event) : State :=
  if s.net.any (fun m => m.ev == ev) then s else s.send 0 (s.queueCore (s.queue q).slot) hostEp ev

/-! ## Slots and states (R505, R507) -/

/-- The free hardware slot of lowest number. -/
def FrontEnd.freeSlot (f : FrontEnd) : Option Nat := (List.range 128).find? (fun k => !f.queues.any (fun p => p.2.slot == some k))
/-- The WAITING queues that are not being destroyed, in the order in which they became WAITING. -/
def FrontEnd.waiting (f : FrontEnd) : List (Nat × Queue) := sortBy (fun p => p.2.waitSeq) (f.queues.filter (fun p => p.2.st == 2 && p.2.en))
/-- Free slots go to WAITING queues (R507). -/
def State.giveSlots (s : State) : Nat → State
  | 0 => s
  | n + 1 =>
    match s.fe.freeSlot, s.fe.waiting with
    | some k, (q, _) :: _ =>
      let seq := s.fe.seq
      let s := s.modQueue q (fun x => { x with st := 3, slot := some k, mapSeq := seq, epoch := s.fe.epoch, evict := false })
      (((s.modFe (fun f => { f with seq := seq + 1 })).feAsk q (.registerStateUpdate q)).feAsk q (.queueRead q)).giveSlots n
    | _, _ => s
/-- A queue put into a state without a slot. -/
def State.leaveSlot (s : State) (q st : Nat) : State :=
  let seq := s.fe.seq
  (((s.modQueue q (fun x => { x with st := st, slot := none, evict := false, waitSeq := seq })).modFe
    (fun f => { f with seq := seq + 1 })).feAsk q (.registerStateUpdate q)).giveSlots 128
/-- The state a queue moves to (R505), or its next packet read. -/
def State.queueStep (s : State) (q : Nat) : State :=
  let x := s.queue q
  let busy := x.cur.isSome || s.reading q
  match x.st with
  | 1 => if !x.en then (if x.inflight.isEmpty then s.leaveSlot q 0 else s) else if x.undispatched != 0 then s.leaveSlot q 2 else s
  | 2 => if !x.en && x.inflight.isEmpty then s.leaveSlot q 0 else s
  | 3 =>
    if !x.en then (s.modQueue q (fun x => { x with st := 4 })).feAsk q (.registerStateUpdate q)
    else if busy then s
    else if x.undispatched == 0 then s.leaveSlot q 1
    else if x.evict then s.leaveSlot q 2
    else s.feAsk q (.queueRead q)
  | 4 => if !busy && x.inflight.isEmpty then s.leaveSlot q 0 else s
  | _ => s

/-- `REGISTER_STATE_UPDATE` (R509): STATE, SLOTV, SLOT, DONE and QACTIVE as the host reads them; the queue goes on. -/
def execRegisterStateUpdate (q : Nat) (s : State) : Out :=
  .next (((s.modQueue q (fun x => { x with vState := x.st, vSlot := x.slot, vDone := x.done })).modFe
    (fun f => { f with vActive := (f.queues.filter (fun p => p.2.st == 2 || p.2.st == 3)).length })).queueStep q)

/-! ## Registers and doorbells (R501, R503) -/

/-- A TAIL write (R503): ignored and counted when it leaves too many packets, or the queue is DISABLED. -/
def State.tailWrite (s : State) (q v : Nat) : State :=
  let x := s.queue q
  if x.vState == 0 || 2 ^ x.log2 ≤ ahead v x.written then s.modFe (fun f => { f with dberr := (f.dberr + 1) % 2 ^ 32 })
  else (s.modQueue q (fun x => { x with tail := v })).send 0 hostEp (s.queueCore x.vSlot) (.doorbellEvent q false (BitVec.ofNat 32 v))
/-- A CHEAD write (R503): ignored and counted when it passes the completions written, or the queue is DISABLED. -/
def State.cheadWrite (s : State) (q v : Nat) : State :=
  let x := s.queue q
  if x.vState == 0 || ahead x.written x.chead < ahead v x.chead then s.modFe (fun f => { f with dberr := (f.dberr + 1) % 2 ^ 32 })
  else (s.modQueue q (fun x => { x with chead := v })).send 0 hostEp (s.queueCore x.vSlot) (.doorbellEvent q true (BitVec.ofNat 32 v))
/-- `TAIL_DOORBELL` (R503). -/
def execTailDoorbell (q : Nat) (v : BitVec 32) (s : State) : Out := .next (s.tailWrite q v.toNat)
/-- `CHEAD_DOORBELL` (R503). -/
def execCheadDoorbell (q : Nat) (v : BitVec 32) (s : State) : Out := .next (s.cheadWrite q v.toNat)
/-- `DOORBELL_EVENT` (R505, R509): the queue becomes WAITING, or goes on. -/
def execDoorbellEvent (q : Nat) (_chead : Bool) (_v : BitVec 32) (s : State) : Out := .next (s.queueStep q)

/-- The front end acts on EN := 1 (R500, R505, R515): a DISABLED queue is IDLE; before the end of boot it stays DISABLED. -/
def State.queueEnabled (s : State) (q : Nat) : State :=
  if s.fe.boot != 3 || (s.queue q).st != 0 then s
  else (s.modQueue q (fun x => { x with
    st := 1, done := 0, next := 0, tail := 0, chead := 0, written := 0, inflight := [], cur := none, waits := none, evict := false })).feAsk q
    (.registerStateUpdate q)
/-- EN after a write of it: a queue that is being destroyed is not enabled again before STATE reads DISABLED, of which the table of R505 has
no event (DESIGN CHOICE; log entry 83). -/
def Queue.enAfter (x : Queue) (v : Bool) : Bool := v && (x.en || x.vState == 0)
/-- `QUEUE_ENABLE` (R500, R505): EN := 1. -/
def execQueueEnable (q : Nat) (s : State) : Out :=
  .next ((s.modQueue q (fun x => { x with en := x.enAfter true })).queueEnabled q)
/-- `QUEUE_DESTROY` (R505, R506): EN := 0. -/
def execQueueDestroy (q : Nat) (s : State) : Out := .next ((s.modQueue q (fun x => { x with en := false })).queueStep q)
/-- `QUEUE_CONTROL_EVENT` (R509): the front end acts on each write of EN, in the order of the writes. -/
def execQueueControlEvent (q off : Nat) (v : Word) (s : State) : Out :=
  .next (if off != 16 then s else if bitOf v 63 then s.queueEnabled q else s.queueStep q)

/-- A write of a queue's registers by the host (R501), and the front end told of it (R509). -/
def State.queueWrite (s : State) (q off : Nat) (v : Word) : State :=
  let addr : Word := 0x000FFFFFFFFFF000
  let x := s.queue q
  let off' := x.vState == 0
  let tell := fun (s : State) => s.send 0 hostEp s.fe.fecore (.queueControlEvent q off v)
  match off with
  | 0 => if off' then tell (s.modQueue q (fun x => { x with qbase := v &&& addr })) else s
  | 8 => if off' then tell (s.modQueue q (fun x => { x with cbase := v &&& addr })) else s
  | 16 =>
    let lg := fld v 40 4
    let lg := if lg < 4 || 12 < lg then 4 else lg
    let s := s.modQueue q (fun x => { x with en := x.enAfter (bitOf v 63), inten := bitOf v 27, vec := fld v 16 11 })
    tell (if off' then s.modQueue q (fun x => { x with log2 := lg, asid := BitVec.ofNat 16 (fld v 0 16) }) else s)
  | _ => s
/-- A register word of a queue as the host reads it (R501). -/
def State.queueWord (s : State) (q off : Nat) : Word :=
  let x := s.queue q
  match off with
  | 0 => x.qbase
  | 8 => x.cbase
  | 16 => BitVec.ofNat 64 (bitNat x.en * 2 ^ 63 + x.log2 * 2 ^ 40 + bitNat x.inten * 2 ^ 27 + x.vec * 2 ^ 16 + x.asid.toNat)
  | _ => BitVec.ofNat 64 (x.vDone * 2 ^ 32 + x.vState * 2 ^ 8 + (match x.vSlot with | some k => 128 + k | none => 0))
/-- A byte of the MSI-X table; an entry holds address, data and a control word whose bit 0 masks the vector, set at reset (PRESUMED, as in
PCI Express; log entry 82). -/
def FrontEnd.msixByte (f : FrontEnd) (k : Nat) : Byte := f.msix.get (if k % 16 == 12 then 1 else 0) k
/-- `n` bytes of the MSI-X table. -/
def FrontEnd.msixField (f : FrontEnd) (k n : Nat) : Nat := ofBytes ((List.range n).map (fun i => f.msixByte (k + i)))
/-- Whether a vector is masked. -/
def FrontEnd.masked (f : FrontEnd) (vec : Nat) : Bool := (f.msixByte (16 * vec + 12)).getLsbD 0
/-- A vector's message leaves as a posted write (R504), or is pending while the vector is masked (R498; log entry 82). -/
def State.msix (s : State) (vec : Nat) : State :=
  if s.fe.masked vec then s.modFe (fun f => { f with msixPend := if f.msixPend.contains vec then f.msixPend else f.msixPend ++ [vec] })
  else s.out (.msix vec (BitVec.ofNat 64 (s.fe.msixField (16 * vec) 8)) (BitVec.ofNat 32 (s.fe.msixField (16 * vec + 8) 4)))
/-- Bytes written to the MSI-X table; pending vectors that are masked no longer send their messages. -/
def State.msixWrite (s : State) (k : Nat) (b : List Byte) : State :=
  let s := s.modFe (fun f => { f with msix := b.zipIdx.foldl (fun m p => m.put (k + p.2) p.1) f.msix })
  let go := s.fe.msixPend.filter (fun v => !s.fe.masked v)
  go.foldl State.msix (s.modFe (fun f => { f with msixPend := f.msixPend.filter f.masked }))
/-- A front-end or queue register, or a word of the MSI-X table and of its pending bits, as the host reads it (R498, R499, R501). The
capability list is read by the step of a host read. -/
def State.bar0Word (s : State) (off : Nat) : Word :=
  let f := s.fe
  if off == 0 then BitVec.ofNat 64 (f.boot + bitNat f.cfgdef * 8 + f.bslot * 16)
  else if off == 8 then BitVec.ofNat 64 f.booterr
  else if off == 0x10 then BitVec.ofNat 64 f.dberr
  else if off == 0x18 then BitVec.ofNat 64 f.bar2err
  else if off == 0x20 then BitVec.ofNat 64 f.vActive
  else if 0x20000 ≤ off && off < 0x40000 then s.queueWord ((off - 0x20000) / 32) (off % 32 / 8 * 8)
  else if 0x80000 ≤ off && off < 0x88000 then
    BitVec.ofNat 64 (f.msixField (off - 0x80000) 8)
  else if 0x88000 ≤ off && off < 0x88100 then
    BitVec.ofNat 64 (((List.range 64).filter (fun k => f.msixPend.contains (8 * (off - 0x88000) + k))).foldl (fun n k => n + 2 ^ k) 0)
  else 0
/-- A posted write into BAR0 (R498): queue registers, doorbells, the MSI-X table; every other offset ignores it. A write of 4 bytes
to a queue's register leaves its other half. -/
def State.bar0Write (s : State) (off size : Nat) (v : Word) : State :=
  if 0x20000 ≤ off && off < 0x40000 then
    let q := (off - 0x20000) / 32; let r := off % 32
    if size == 8 then s.queueWrite q r v
    else if size == 4 then s.queueWrite q (r / 8 * 8) (setFld (s.queueWord q (r / 8 * 8)) (8 * (r % 8)) 32 v.toNat)
    else s
  else if 0x40000 ≤ off && off < 0x48000 then
    let q := (off - 0x40000) / 8
    if size == 8 then (s.tailWrite q (fld v 0 32)).cheadWrite q (fld v 32 32)
    else if off % 8 == 0 then s.tailWrite q (fld v 0 32) else s.cheadWrite q (fld v 0 32)
  else if 0x80000 ≤ off && off < 0x88000 then
    s.msixWrite (off - 0x80000) (toBytes size v.toNat)
  else s

/-! ## Device memory (R496, R497, R509) -/

/-- Whether all of a range is populated. -/
def rangePopulated (pa n : Nat) : Bool := n == 0 || (paPopulated pa && paPopulated (pa + n - 1))
/-- `BAR2_READ` (R496): ONCE reads at the homes (R409); all ones, counted, where nothing is populated. -/
def execBar2Read (addr n : Nat) (s : State) : Out :=
  .next (if !rangePopulated addr n then
      (s.modFe (fun f => { f with bar2err := (f.bar2err + 1) % 2 ^ 32 })).out (.bar2Data addr (List.replicate n 0xFF))
    else if n == 0 then s.out (.bar2Data addr [])
    else s.onceBegin hostBus (.hostRead addr) (onceReads hostEp 0 addr n false false))
/-- `BAR2_WRITE` (R496): ONCE writes at the homes (R409); discarded and counted where nothing is populated. -/
def execBar2Write (addr : Nat) (bytes : List Byte) (s : State) : Out :=
  .next (if !rangePopulated addr bytes.length then s.modFe (fun f => { f with bar2err := (f.bar2err + 1) % 2 ^ 32 })
    else s.onceBegin hostBus .hostWrite (onceWrites hostEp 0 addr bytes false false))

/-! ## Completions (R504) -/

/-- The name of a launch: its queue and its packet. -/
def launchId (q packet : Nat) : Nat := q * 2 ^ 32 + packet
/-- A launch begins or ends: every slice takes the pair of the live launches (R130). -/
def State.setLaunches (s : State) (l : List Launch) : State := ({ s with launches := l } : State).carveAll

/-- Whether a trace ring in replay mode has diverged for an ASID (R421). -/
def State.replayDiverged (s : State) (asid : BitVec 16) : Bool :=
  let hit := fun (t : TraceRing) => t.diverged && t.ctl.setWidth 16 == asid
  s.cores.any (fun p => hit p.2.trace) || s.homes.any (fun p => hit p.2.trace)
/-- KIND of a packet. -/
def pkKind (w0 : Word) : Nat := fld w0 56 8
/-- The WAIT_QUEUE packets whose condition holds complete (R502). -/
def State.wakeWaits (s : State) : State :=
  s.fe.queues.foldl (fun t p => match p.2.waits with
    | none => t
    | some (n, q, k) =>
      if ahead (t.queue q).done k < 2 ^ 31 then
        ((t.modQueue p.1 (fun x => { x with waits := none })).hostDone (some (p.1, n)) 0 0).queueStep p.1
      else t) s
/-- The acknowledgement of a completion write (R509): the front end sets the queue's registers and goes on. -/
def State.completionDone (s : State) (q : Nat) : State := ((s.feAsk q (.registerStateUpdate q)).wakeWaits).queueStep q
/-- The entry of a completion and its address (R504): STATUS 34 for a launch whose replay diverged (R421). -/
def State.completionEntry (s : State) (q packet : Nat) (w0 : Word) (status detail : Nat) : Nat × List Byte :=
  let x := s.queue q
  let gone : Bool := (pkKind w0 == 1 || pkKind w0 == 2) && s.replayDiverged x.asid
  let st := if gone then 34 else status; let dt := if gone then 0 else detail
  let phase := 1 - x.written / 2 ^ x.log2 % 2
  (x.cbase.toNat + 16 * (x.written % 2 ^ x.log2),
    toBytes 8 (st * 2 ^ 48 + dt % 2 ^ 16 * 2 ^ 32 + packet) ++ toBytes 8 (phase * 2 ^ 63 + fld w0 0 32))
/-- `COMPLETION_WRITE` (R504, R509): the host port makes one ONCE write of the entry. -/
def execCompletionWrite (q packet status detail : Nat) (s : State) : Out :=
  .next (match (s.queue q).inflight.find? (fun p => p.1 == packet) with
    | none => s
    | some (_, w0) =>
      let e := s.completionEntry q packet w0 status detail
      s.onceBegin s.fe.fecore (.completion q packet) (onceWrites hostEp 0 e.1 e.2 false false))
/-- An entry has been written (R504, R509): the MSI-X message leaves, DONE counts, and the core that asked is told. A launch is live until
then (R130). -/
def State.completionWritten (s : State) (q packet core : Nat) : State :=
  let x := s.queue q
  let s := s.setLaunches (s.launches.filter (fun l => l.id != launchId q packet))
  let s := if x.inten then s.msix x.vec else s
  let s := s.modQueue q (fun x => { x with
    inflight := x.inflight.filter (fun p => p.1 != packet), written := (x.written + 1) % 2 ^ 32, done := (x.done + 1) % 2 ^ 32 })
  s.send 1 hostEp core (.completionAck q)
/-- The 64 bytes of a packet go to the core that asked for it (R509), free values when they hold an error (log entry 69). -/
def State.packetRead (s : State) (q packet core : Nat) (b : List Byte) (bad : Bool) : State :=
  let (b, s) := if bad then s.freeBytes 64 else (b, s)
  s.send 1 hostEp core (.queueData q packet ((List.range 8).map (fun k => BitVec.ofNat 64 (ofBytes ((b.drop (8 * k)).take 8)))) bad)
/-- What ONCE accesses were for is done, all of them having been answered (R381, R496, R502, R509). -/
def State.onceDone (s : State) (o : OnceOp) : State :=
  match o.use with
  | .hostRead addr => s.out (.bar2Data addr o.bytes)
  | .hostWrite => s
  | .signal q n => s.hostDone (some (q, n)) 0 0
  | .completion q n => s.completionWritten q n o.owner
  | .packet q n => s.packetRead q n o.owner o.bytes o.bad
  | .link port q => if q.op == .read then (if o.bad then s.linkBack port q 3 [] else s.linkBack port q 0 o.bytes) else s.linkBack port q 0 []
/-- An answer of a home to an agent that caches no line: the next access goes out, or what they are for is done. -/
def State.onceAnswer (s : State) (q : HomeReq) (b : List Byte) (bad : Bool) : State :=
  match s.onceNext q b bad with
  | (some o, s) => s.onceDone o
  | (none, s) => s

/-! ## Dispatch (R502, R506) -/

/-- Which bits of words 1 to 7 a KIND has (R502); none when the KIND is reserved. -/
def pkBits (kind : Nat) : Option (List Nat) :=
  let w := 2 ^ 64 - 1
  match kind with
  | 1 => some [0x01FFFFFFFFFFFFE7, 0x3FFF * 2 ^ 48 + 2 ^ 47 + 15 * 2 ^ 40 + 15 * 2 ^ 32, w, w, w, w, w]
  | 2 => some [w, w, w, w, w, 0xFF, 0xF0F]
  | 3 => some [w, w, w, 0xFFF * 2 ^ 16 + 0xFFF, 0, 0, 0]
  | 4 => some [0xFFF, w, w, 0, 0, 0, 0]
  | 5 => some [0xFFF, 2 ^ 32 - 1, 0, 0, 0, 0, 0]
  | 6 => some [0x3FFFF, 0, 0, 0, 0, 0, 0]
  | 7 => some [0x3FFFF, 0, 0, 0, 0, 0, 0]
  | 8 => some [0xFFFF, 0, 0, 0, 0, 0, 0]
  | _ => none
/-- Whether a packet keeps its reserved fields (R502). -/
def pkOk (w : List Word) : Bool :=
  zeroField (w.getD 0 0) 32 23 && (match pkBits (pkKind (w.getD 0 0)) with
    | none => false
    | some l => (List.range 7).all (fun k => (w.getD (k + 1) 0) &&& ~~~(BitVec.ofNat 64 (l.getD k 0)) == 0))
/-- The step that dispatches a KIND. -/
def pkEvent (q kind : Nat) : Option Event :=
  match kind with
  | 1 => some (.launchRoot q)
  | 2 => some (.launchGraph q)
  | 3 => some (.queueCopy q)
  | 4 => some (.signal q)
  | 5 => some (.waitQueue q)
  | 6 => some (.bedrockOpen q)
  | 7 => some (.bedrockSeal q)
  | 8 => some (.swapAsid q)
  | _ => none
/-- Whether a `LAUNCH_ROOT` of an ASID is held: no termination slot is FREE, a live slot holds the ASID, or the core of FEROUTE has no
record free for the root task (R506; of the record the rule does not speak, log entry 77). -/
def State.launchHeld (s : State) (asid : BitVec 16) : Bool :=
  s.term.slots.toList.all (fun t => t.st != 0) || s.term.slots.toList.any (fun t => t.st != 0 && t.asid == asid)
    || (s.core s.fe.fecore).recbusy == BitVec.allOnes 256
/-- Whether a packet is held (R504, R506). -/
def State.pkHeld (s : State) (x : Queue) (w : List Word) : Bool :=
  let kind := pkKind (w.getD 0 0)
  2 ^ x.log2 ≤ ahead x.written x.chead + x.inflight.length
    || ((bitOf (w.getD 0 0) 55 || kind == 8) && !x.inflight.isEmpty)
    || x.inflight.any (fun p => pkKind p.2 == 8)
    || x.waits.isSome
    || (kind == 1 && s.launchHeld x.asid)
/-- The place of a packet of a queue. -/
def Queue.packetAt (x : Queue) (n : Nat) : Nat := x.qbase.toNat + 64 * (n % 2 ^ x.log2)
/-- `QUEUE_READ` (R506, R509): the host port agent reads the next packet of a queue by a ONCE read. -/
def execQueueRead (q : Nat) (s : State) : Out :=
  let x := s.queue q
  .next (if x.st != 3 || x.cur.isSome || s.reading q || x.undispatched == 0 || !x.en || x.evict then s
    else s.onceBegin (s.queueCore x.slot) (.packet q x.next) (onceReads hostEp 0 (x.packetAt x.next) 64 false false))
/-- The words of a queue's next packet reach the front end (R505, R506): its dispatch begins unless a rule holds it. -/
def State.queueTake (s : State) (q n : Nat) (w : List Word) : State :=
  let x := s.queue q
  if (x.st != 3 && x.st != 4) || x.cur.isSome || n != x.next then s
  else if s.pkHeld x w then (if x.st == 4 || !x.en || x.evict then s.queueStep q else s)
  else
    let s := s.modQueue q (fun x => { x with
      cur := some (x.next, w), next := (x.next + 1) % 2 ^ 32, inflight := x.inflight ++ [(x.next, w.getD 0 0)] })
    match pkEvent q (pkKind (w.getD 0 0)) with
    | some ev => s.later ev
    | none => ((s.modQueue q (fun x => { x with cur := none })).hostDone (some (q, x.next)) 32 0).queueStep q

/-- The packet in dispatch handed over (R502, R504, R506): refused when malformed, or with a bad ASID; then the next. -/
def State.handOver (s : State) (q kind : Nat) (go : State → Nat → List Word → BitVec 16 → State) : State :=
  let x := s.queue q
  match x.cur with
  | none => s
  | some (n, w) =>
    if pkKind (w.getD 0 0) != kind then s
    else
      let s := s.modQueue q (fun x => { x with cur := none })
      let s := if !pkOk w then s.hostDone (some (q, n)) 32 0
        else if kind != 8 && !s.asidOk x.asid then s.hostDone (some (q, n)) 33 0
        else go s n w x.asid
      s.queueStep q

/-- Every leaf of the module. -/
def allLeaves : List Nat := (List.range 4).flatMap slabLeaves
/-- A slot of TMAP written in every leaf (R469). -/
def State.writeTmap (s : State) (k v : Nat) : State :=
  allLeaves.foldl (fun t e => t.modLeaf e (fun l => { l with tmap := vset l.tmap k (BitVec.ofNat 32 v) })) s
/-- Whether a carve-out pair keeps R130. -/
def carvePairOk (lo hi : Nat) : Bool := lo ≤ hi && hi ≤ 12
/-- Whether an endpoint may run a root task (R504): a placeable task core, or a memory core that is ACTIVE and not removed from placement
(R230). -/
def State.rootTarget (s : State) (ep : Nat) : Bool :=
  epValid ep && ((epClass ep == 0 && s.placeable ep) || (isMemCore ep && (s.core ep).code == 0 && !(s.core ep).noplace))

/-- A packet in dispatch that has become held is the queue's next one again. -/
def State.undispatch (s : State) (q n : Nat) : State :=
  s.modQueue q (fun x => { x with next := n, inflight := x.inflight.filter (fun p => p.1 != n) })

/-- `LAUNCH_ROOT` (R502, R506, R470): held again when another queue's launch has come first; else a termination slot is taken, TMAP written in every leaf, the root record written in the
front-end core's record area, and its release sent. -/
def execLaunchRoot (q : Nat) (s : State) : Out :=
  .next (s.handOver q 1 (fun s n w asid =>
    let w2 := w.getD 2 0
    let ep := fld w2 48 14; let lo := fld w2 32 4; let hi := fld w2 40 4
    let fe := s.fe.fecore
    if s.launchHeld asid then s.undispatch q n
    else if !carvePairOk lo hi then s.hostDone (some (q, n)) 32 0
    else if !s.rootTarget ep then s.hostDone (some (q, n)) 35 0
    else
      let k := ((List.range 16).find? (fun k => (vget TSlot.free s.term.slots k).st == 0)).getD 0
      let i := ((List.range 256).find? (fun i => !(s.core fe).recbusy.getLsbD i)).getD 0
      let t := { TSlot.free with st := 1, asid := asid, det := bitOf w2 47, host := some (q, n) }
      let s := { s with term := { s.term with slots := vset s.term.slots k t } }
      let s := s.writeTmap k (2 ^ 31 + (if bitOf w2 47 then 2 ^ 30 else 0) + asid.toNat)
      let s := s.setLaunches (s.launches ++ [Launch.mk (launchId q n) asid lo hi])
      let rec' := [w.getD 1 0, BitVec.ofNat 64 (asid.toNat * 2 ^ 48 + 2 ^ 28 + k)] ++ (w.drop 3).take 5 ++ [0]
      let s := s.lmWrite fe (0x7C000 + 64 * i) (rec'.flatMap (fun v => toBytes 8 v.toNat))
      let s := s.modCore fe (fun c => { c with recbusy := c.recbusy ||| BitVec.ofNat 256 (2 ^ i) })
      (s.countSent fe asid).sendRelease fe
        (Release.mk s.srcDev fe (BitVec.ofNat 8 i) ep none (BitVec.ofNat 3 (fld (w.getD 1 0) 0 3)) asid 0 0 0 true)))

/-- The write with which the front end frees a DONE termination slot (R475). -/
def slotFreeWrite (slot : Nat) : Event :=
  .tslotFree (WinOp.mk hostEp 0 0 (BitVec.ofNat 64 (11 * 2 ^ 37 + 0x2000 + 8 * slot)) 0)
/-- `TERMINATION_REPORT` (R471, R475, R504): the launch of an empty slot completes, and the front end frees the slot. -/
def execTerminationReport (slot : Nat) (s : State) : Out :=
  let t := vget TSlot.free s.term.slots slot
  let (st, dt) := t.fault.getD (0, 0)
  .next ((s.hostDone t.host st dt).later (slotFreeWrite slot))
/-- The front end frees a DONE slot (R475). -/
def State.tslotFree (s : State) (slot : Nat) : State :=
  if (vget TSlot.free s.term.slots slot).st != 2 then s
  else
    let s := { s with term := { s.term with slots := vset s.term.slots slot TSlot.free } }
    s.fe.queues.foldl (fun t p => t.queueStep p.1) (s.writeTmap slot 0)

/-- `LAUNCH_GRAPH` (R502, R452). -/
def execLaunchGraph (q : Nat) (s : State) : Out :=
  .next (s.handOver q 2 (fun s n w asid =>
    let wd := fun (k : Nat) => w.getD k 0
    let slot := fld (wd 6) 0 8
    let lo := fld (wd 7) 0 4; let hi := fld (wd 7) 8 4
    let b := [wd 1, wd 2, wd 3, BitVec.ofNat 64 (2 ^ 55), wd 4, wd 5, wd 6, BitVec.ofNat 64 asid.toNat]
    if !carvePairOk lo hi || !runAddrOk b || (s.inst slot).st != 0 then s.hostDone (some (q, n)) 32 0
    else
      let s := s.takeSlot b asid none (some (q, n))
      let s := s.setLaunches (s.launches ++ [Launch.mk (launchId q n) asid lo hi])
      let m := slotMaster slot
      s.send 0 hostEp (graphEp m) (.graphStart slot (s.inst slot).gen m 0)))

/-- `QUEUE_COPY` (R502, R504): the handles are loaded and the request goes to its engine. -/
def execQueueCopy (q : Nat) (s : State) : Out :=
  .next (s.handOver q 3 (fun s n w asid =>
    let r := [w.getD 1 0, w.getD 2 0, w.getD 3 0, BitVec.ofNat 64 (2 ^ 55)]
    let w2 := w.getD 3 0
    let bad := fun (s : State) => s.hostDone (some (q, n)) 32 0
    let load := fun (need : Bool) (k : Nat) => if need then s.engineHandle asid k else some Handle.empty
    let isCopy := cqOp r == 0
    if !zeroField w2 18 6 || !zeroField w2 10 8 || !cqOk r then bad s
    else match load isCopy (fld (w.getD 4 0) 16 12), load (!cqSlot r) (fld (w.getD 4 0) 0 12) with
      | some sh, some dh =>
        let ok := fun (need : Bool) (h : Handle) (st : Bool) (off : Word) =>
          !need || (h.space != 0 && (State.copyCheck h 0 st off (cqLen r)).isNone)
        if !ok isCopy sh false (r.getD 0 0) || !ok (!cqSlot r) dh true (r.getD 1 0) || !cqAligned r sh dh || (cqSlot r && !cqSlotOk r) then bad s
        else s.send 0 hostEp (cqEngine r) (.copyRequest (CopyReq.mk hostEp (cqEngine r) r sh dh asid none 0 0 none none 0 none (some (q, n)) 0))
      | _, _ => bad s))

/-- `SIGNAL` (R502): VALUE stored through a REMOTE or GLOBAL handle, and the packet completes when that is performed; a translation that
fails gives FAULTED. -/
def execSignal (q : Nat) (s : State) : Out :=
  .next (s.handOver q 4 (fun s n w asid =>
    let off := w.getD 2 0
    let bytes := toBytes 8 (w.getD 3 0).toNat
    let bad := fun (s : State) => s.hostDone (some (q, n)) 32 0
    match s.engineHandle asid (fld (w.getD 1 0) 0 12) with
    | none => bad s
    | some h =>
      let a := h.base.toNat + off.toNat
      if (h.space != 1 && h.space != 2) || (State.copyCheck h 0 true off 8).isSome || a % 8 != 0 then bad s
      else if h.space == 1 then
        (if s.disabled h.target then bad s
          else s.send 0 hostEp h.target (.store (Access.mk hostEp q 0 asid n 1 h.target a none 0 false false (.store bytes) 0)))
      else match (s.walk 0 asid a .write).res with
        | .ok pa ns => s.onceBegin hostEp (.signal q n) (onceWrites hostEp asid pa bytes (ns || h.policy == 1) (h.policy == 2))
        | _ => { s with fv := s.fv + 1 }.hostDone (some (q, n)) 2 ((Config.freeWord s.fv).toNat % 2 ^ 16)))

/-- `WAIT_QUEUE` (R502, R506): dispatch of the queue is held until the other queue's DONE reaches N. -/
def execWaitQueue (q : Nat) (s : State) : Out :=
  .next (s.handOver q 5 (fun s n w _ =>
    (s.modQueue q (fun x => { x with waits := some (n, fld (w.getD 1 0) 0 12, fld (w.getD 2 0) 0 32) })).wakeWaits))

/-- A BEDROCK packet handed to its controller (R385, R502). -/
def State.queueBedrock (s : State) (q kind : Nat) (close : Bool) : State :=
  s.handOver q kind (fun s n w asid =>
    let g := w.getD 1 0
    let sl := fld g 16 2
    let m := BitVec.ofNat 16 (fld g 0 16)
    if m == 0 || (maskGroups m).any (fun k => (s.group sl k).disabled) then s.hostDone (some (q, n)) 32 0
    else
      let (id, s) := s.fresh
      s.send 0 hostEp (bedCtl sl) (.bedrockRequest (BedReq.mk close sl m true asid none hostEp 0 0 id false (some (q, n)) 0)))
/-- `BEDROCK_OPEN` (R502). -/
def execBedrockOpen (q : Nat) (s : State) : Out := .next (s.queueBedrock q 6 false)
/-- `BEDROCK_SEAL` (R502). -/
def execBedrockSeal (q : Nat) (s : State) : Out := .next (s.queueBedrock q 7 true)

/-- `SWAP_ASID` (R502, R504). -/
def execSwapAsid (q : Nat) (s : State) : Out :=
  .next (s.handOver q 8 (fun s n w _ =>
    let a := BitVec.ofNat 16 (fld (w.getD 1 0) 0 16)
    if s.asidOk a then (s.modQueue q (fun x => { x with asid := a })).hostDone (some (q, n)) 0 0 else s.hostDone (some (q, n)) 33 0))

/-- `QUANTUM_EXPIRY` (R507): slots held for a whole quantum are taken back, oldest mapping first, while a WAITING queue remains. -/
def execQuantumExpiry (s : State) : Out :=
  let held := sortBy (fun p => p.2.mapSeq) (s.fe.queues.filter (fun p => p.2.st == 3 && p.2.epoch < s.fe.epoch))
  let take := held.take s.fe.waiting.length
  let s := take.foldl (fun t p => t.modQueue p.1 (fun x => { x with evict := true })) s
  let s := take.foldl (fun t p => if (t.queue p.1).cur.isSome || t.reading p.1 then t else t.leaveSlot p.1 2) s
  -- what is mapped in this moment holds its slot for the whole of the quantum that begins
  .next (s.modFe (fun f => { f with epoch := f.epoch + 1 }))

/-- The LLC lines of a GLOBAL range fetched (R508). -/
def State.prefetchLines (s : State) (asid : BitVec 16) (va n : Nat) : State :=
  ((List.range (n / 128 + 2)).map (fun k => va / 128 * 128 + 128 * k)).foldl (fun t a =>
    if va + n ≤ a then t
    else match (t.walk 0 asid a .read).res with
      | .ok pa ns => if ns then t
        else (t.countMiss (homeOf (lineOf pa)) (lineOf pa) false false).homeFetch (homeOf (lineOf pa)) (lineOf pa) false false
      | _ => t) s
/-- `PACKET_PREFETCH` (R508): what a packet of a mapped queue that R506 holds, itself or behind one that it holds, will use is brought
near. A packet that its line gives with an error is left alone. -/
def execPacketPrefetch (q k : Nat) (s : State) : Out :=
  let x := s.queue q
  let pa := x.packetAt (x.next + k)
  let w := s.paWords pa 8
  let wd := fun (i : Nat) => w.getD i 0
  .next (if x.st != 3 || 2 ≤ k || x.undispatched ≤ k || !pkOk w || !s.asidOk x.asid || s.peekPoison (lineOf pa)
      || !s.pkHeld x (s.paWords (x.packetAt x.next) 8) then s
    else match pkKind (wd 0) with
    | 1 =>
      let t := fld (wd 2) 48 14
      if s.rootTarget t then ((s.fillCode t x.asid (kdescOf (wd 1))).2.readStart t x.asid (wd 1)).2 else s
    | 2 => match s.vaWords 0 x.asid (wd 1).toNat 8 with
      | none => s
      | some h =>
        ((s.prefetchLines x.asid (wd 1).toNat 64).prefetchLines x.asid ((wd 1).toNat + (h.getD 2 0).toNat) (64 * fld (h.getD 0 0) 16 13)).prefetchLines
          x.asid ((wd 1).toNat + (h.getD 3 0).toNat) (8 * Nat.min 65536 (h.getD 1 0).toNat)
    | 3 =>
      let sl := fld (wd 3) 24 2
      [fld (wd 4) 16 12, fld (wd 4) 0 12].foldl (fun t i =>
        if t.htCount x.asid ≤ i || (t.slab sl).hcache.any (fun e => e.1 == x.asid && e.2.1 == i) then t
        else t.modSlab sl (fun b =>
          let l := b.hcache ++ [(x.asid, i, t.paWords (t.entryAddr x.asid i) 4)]
          { b with hcache := l.drop (l.length - 1024) })) s
    | _ => s)

end Sys2Proof.Machine
end

