-- ==== Sys2Proof/Machine/Lanes.lean ====
section
/-! DEFINITION. Vector lane grants, spills, refills and streams (08_vector_pool.md R262-R286). -/

namespace Sys2Proof.Machine

/-! ## Groups and banks (R262-R264) -/

/-- LQUOTA of a core of a geode (R263). -/
def Geode.quota (gd : Geode) (c : Nat) : Nat := fld gd.lquota (8 * c) 8
/-- The banks of a group that no frame holds. -/
def Geode.freeBank (gd : Geode) (g : Nat) : Option Nat :=
  (List.range 4).find? (fun k => !gd.banks.any (fun b => b.group == g && b.bank == k))
/-- The lanes and group map that a frame's outstanding `VCLAIM` will write (R265). -/
def Frame.claimed (f : Frame) : Nat × Nat :=
  match f.outs.find? (fun r => match r.dst with | .lanes _ => true | _ => false) with
  | some r => match r.val with
    | .grant n g _ => (n, g.toNat)
    | _ => (0, 0)
  | none => (0, 0)
/-- The lane count of a frame's grant, written back or not. -/
def Frame.heldLanes (f : Frame) : Nat := if f.nLanes == 0 then f.claimed.1 else f.nLanes
/-- The group map of a frame's grant, written back or not. -/
def Frame.heldMap (f : Frame) : Nat := if f.nLanes == 0 then f.claimed.2 else f.gmap
/-- Whether a frame lists a group in its map (R263). -/
def Frame.lists (f : Frame) (g : Nat) : Bool := f.st != .free && f.heldLanes != 0 && (f.heldMap >>> g) % 2 == 1
/-- The cores of a geode by place: the endpoint of core `c` of the geode of `ep`. -/
def geodeCore (g c : Nat) : Nat := g * 8 + c
/-- The core that owns a group, if any (R263). -/
def State.groupOwner (s : State) (gd g : Nat) : Option Nat :=
  (List.range 8).find? (fun c => (List.range 8).any (fun w => (s.frame (geodeCore gd c) w).lists g))
/-- The groups a core owns. -/
def State.owned (s : State) (gd c : Nat) : List Nat := (List.range 16).filter (fun g => s.groupOwner gd g == some c)

/-- GBORROW after groups may have become free: a borrowed group stays so while it is owned (R264). -/
def State.refreshBorrow (s : State) (gd : Nat) : State :=
  s.modGeode gd (fun x => { x with
    gborrow := (List.range 16).foldl (fun v g => if (s.groupOwner gd g).isSome then v else v &&& ~~~(BitVec.ofNat 16 (2 ^ g))) x.gborrow })

/-! ## Streams (R282-R285) -/

/-- K, the number of steps. -/
def Stream.steps (t : Stream) : Nat := fld t.w2 32 32
/-- TAG of a stream. -/
def Stream.tag (t : Stream) : Tag := (tagOf (fld t.w0 32 4)).getD .raw
/-- The LM offset of the next step of a stream. -/
def Stream.off (t : Stream) (k : Nat) : Nat := (streamOff t.w0 t.w1 t.w2 k).toNat

/-- The write stream that a step writes, with its frame: stream `j` of a window, or, for `j` = 4, the first unbound one of the window
that has an entry. -/
def Core.writing (c : Core) (win j : Nat) : Option (Nat × Stream) :=
  if j < 4 then
    let t := (c.win win).stream j
    if t.bound && t.write && !t.buf.isEmpty then some ((c.win win).fid, t) else none
  else (c.closing.find? (fun x => x.win == win && !x.stream.buf.isEmpty)).map (fun x => (x.fid, x.stream))
/-- A core without the unbound streams that nothing is awaited for. -/
def Core.trimClosing (c : Core) : Core :=
  { c with closing := c.closing.filter (fun x => !x.stream.buf.isEmpty
      || (c.win x.win).outs.any (fun r => r.sid == x.stream.sid && !r.dead)) }
/-- Whether the oldest entry of a write stream may be written: every LOCAL access that the frame issued before its producing
instruction has been performed (R284), and every entry of a stream that a `VSFREE` before that instruction unbound (R286). -/
def Core.streamReady (c : Core) (ep win fid : Nat) (t : Stream) : Bool :=
  match t.stores ep fid win true with
  | [] => false
  | e :: _ => !c.closing.any (fun x => x.first && x.fid == fid && x.stream.sid != t.sid && x.since < e.id)
    && !heldBy ep (!c.dcache.snoops.isEmpty) e [] (c.oq.filter (fun q => q.id < e.id) ++ [e])

/-- The oldest unwritten entry of a write stream written to LM at its step. -/
def State.streamOut (s : State) (ep w j : Nat) : State :=
  match (s.core ep).writing w j with
  | none => s
  | some (_, t) =>
    match t.buf with
    | [] => s
    | b :: l =>
      let t' := { t with buf := l, pos := t.pos + 1 }
      let put := fun (x : Closing) => if x.stream.sid == t.sid then { x with stream := t' } else x
      let s := if j < 4 then s.modFrame ep w (fun f => f.putStream j t')
        else s.modCore ep (fun c => ({ c with closing := c.closing.map put } : Core).trimClosing)
      (s.lmWrite ep (t.off t.pos) b.bytes).modCore ep (fun c => c.prune ep)

/-- `STREAM_WRITE` (R284): a write stream's oldest entry is written after the frame's earlier LOCAL accesses. -/
def execStreamWrite (ep win j : Nat) (s : State) : Out :=
  .next (match (s.core ep).writing win j with
    | none => s
    | some (fid, t) => if (s.core ep).streamReady ep win fid t then s.streamOut ep win j else s.later (.streamWrite ep win j))

/-- The streams of a frame unbound. The entries of write streams are still written, after a `VSFREE` before later LOCAL accesses of the
frame (R271, R286). A read stream's register keeps its row: the head, or, with no head arrived or all steps consumed, the value that it
had, which the spec does not state (DESIGN CHOICE; log entry 79). -/
def State.closeStreams (s : State) (ep w : Nat) (js : List Nat) (first : Bool) : State :=
  let one := fun (t : State) (j : Nat) =>
    let f := t.frame ep w
    let x := f.stream j
    let t := t.setFrame ep w (f.putStream j Stream.unbound)
    if !x.bound || !x.write then t
    else x.buf.foldl (fun u _ => u.later (.streamWrite ep w 4))
      ({ t.modCore ep (fun c => ({ c with closing := c.closing ++ [Closing.mk f.fid w x first t.uid] } : Core).trimClosing) with
        uid := t.uid + 1 })
  js.foldl one s

/-- The head of a read stream enters its register; an uncorrectable error marks it (R219, R284). -/
def State.putHead (s : State) (ep w j : Nat) (t : Stream) (e : StreamEnt) : State :=
  (s.vwrite ep w (BitVec.ofNat 5 (28 + j)) (lanesOf t.tag (s.frame ep w).nLanes e.bytes)).modFrame ep w
    (fun f => { f with poisonV := markBit f.poisonV (28 + j) e.bad })

/-- `STREAM_FILL` (R284, R285): a read stream's next step arrives; the pool holds four entries, of streams of the top frame only. -/
def execStreamFill (ep win j : Nat) (s : State) : Out :=
  let f := s.frame ep win
  let t := f.stream j
  let k := t.pos + t.buf.length
  .next (if !t.bound || t.write || 4 ≤ t.buf.length || t.steps ≤ k || (s.core ep).top != some win then s
    else if f.spilled then s.later (.streamFill ep win j)
    else
      let n := imageBytes t.tag f.nLanes
      let bad := s.lmBad ep (t.off k) n
      let (b, s) := if bad then (s.machineCheck ep 7).freeBytes n else (s.lmRead ep (t.off k) n, s)
      let e := StreamEnt.mk 0 b bad
      let t' := { t with buf := t.buf ++ [e] }
      let s := s.setFrame ep win (f.putStream j t')
      let s := if t.buf.isEmpty then s.putHead ep win j t e else s
      if t'.buf.length < 4 && k + 1 < t.steps then s.later (.streamFill ep win j) else s)

/-! ## Spill, refill and the end of a grant (R268, R269, R271) -/

/-- Whether a frame's vector results are written back and its write streams drained (R268). -/
def Core.quiet (c : Core) (w : Nat) : Bool :=
  let f := c.win w
  f.outs.all (fun r => match r.dst with | .v _ _ => false | _ => true)
    && (List.range 4).all (fun j => !(f.stream j).write || (f.stream j).buf.isEmpty)
    && c.closing.all (fun x => x.fid != f.fid || x.stream.buf.isEmpty)

/-- A frame's rows copied to its spill reserve and its banks freed (R268). -/
def State.spill (s : State) (ep w : Nat) : State :=
  let gd := epGeode ep
  let f := s.frame ep w
  let row := fun (t : State) (r : Nat) =>
    -- a grant not yet written back has rows of zeros (R265)
    let l := if f.nLanes == 0 then List.replicate f.heldLanes 0 else s.vread ep w (BitVec.ofNat 5 r)
    t.lmWrite ep (f.spillOff r 0) (l.flatMap (fun v => toBytes 4 v.toNat))
  let s := (List.range 32).foldl row s
  let s := s.modGeode gd (fun x => { x with
    banks := x.banks.filter (fun b => !(b.core == ep % 8 && b.level == w)), spillcnt := x.spillcnt + 1 })
  s.modFrame ep w (fun f => { f with spilled := true, spilling := false })

/-- A free bank taken in a group. -/
def State.takeFree (s : State) (ep w g : Nat) : State :=
  s.modGeode (epGeode ep) (fun x => match x.freeBank g with
    | none => x
    | some k => { x with banks := x.banks ++ [Bank.mk g k (ep % 8) w] })
/-- A free bank taken in a group, its rows zero (R265). -/
def State.claimBank (s : State) (ep w g : Nat) : State :=
  match (s.geode (epGeode ep)).freeBank g with
  | none => s
  | some k =>
    let lo := rowKey g (32 * k) 0
    (s.takeFree ep w g).modGeode (epGeode ep) (fun x => { x with rows := x.rows.filter (fun p => p.1 < lo || lo + 512 ≤ p.1) })

/-- The groups of a claim not yet written back in which its frame still waits for a bank (R265, R268). -/
def State.lacking (s : State) (ep w : Nat) : List Nat :=
  if (s.frame ep w).spilled then []
  else (groupsOf (s.frame ep w).claimed.2).filter (fun g => ((s.geode (epGeode ep)).bankOf (ep % 8) w g).isNone)
/-- The spills that need wait no longer are done (R268), and claims take the banks that come free, the lowest frame's first. -/
def State.spillTurn (s : State) (ep : Nat) : State :=
  let s := (List.range 8).foldl (fun t w => if (t.frame ep w).spilling && (t.core ep).quiet w then t.spill ep w else t) s
  (List.range 8).foldl (fun t w => (t.lacking ep w).foldl (fun u g => u.claimBank ep w g) t) s

/-- The lowest-priority resident frame of a core, other than `w`, that holds a bank of a group; one that is to be spilled already is
not resident. -/
def State.victim (s : State) (ep w g : Nat) : Option Nat :=
  (List.range 8).find? (fun p => p != w && !(s.frame ep p).spilling
    && (s.geode (epGeode ep)).banks.any (fun b => b.group == g && b.core == ep % 8 && b.level == p))
/-- A frame is to be spilled for each full group of a list in which none is yet (R269). -/
def State.markVictims (s : State) (ep w : Nat) (l : List Nat) : State :=
  let one := fun (t : State) (g : Nat) =>
    let gd := t.geode (epGeode ep)
    let coming := (List.range 8).any (fun p => (t.frame ep p).spilling && gd.banks.any (fun b => b.group == g && b.core == ep % 8 && b.level == p))
    if (gd.freeBank g).isSome || coming then t
    else match t.victim ep w g with
      | none => t
      | some p => t.modFrame ep p (fun f => { f with spilling := true })
  l.foldl one s
/-- A bank taken in every group of a list for a frame, once each has one free; `none` while the spills that this takes are not done
(R269). The state that goes on meanwhile is the first. -/
def State.takeBanks (s : State) (ep w : Nat) (l : List Nat) : State × Option State :=
  let s := (s.markVictims ep w l).spillTurn ep
  if l.all (fun g => ((s.geode (epGeode ep)).freeBank g).isSome) then (s, some (l.foldl (fun t g => t.takeFree ep w g) s)) else (s, none)

/-- The grant of a frame ends (R267, R271): outstanding vector results, and a claim not yet written back, are discarded, streams are unbound, write entries already
produced are still written, banks are freed. -/
def State.endGrant (s : State) (ep w : Nat) : State :=
  if (s.frame ep w).heldLanes == 0 then s
  else
    let s := s.modFrame ep w (fun f => { f with
      outs := f.outs.filter (fun r => match r.dst with | .v _ _ => false | .lanes _ => false | _ => true)
      vlen := 0, spilled := false, spilling := false })
    let s := s.closeStreams ep w (List.range 4) false
    let s := s.modGeode (epGeode ep) (fun x => { x with banks := x.banks.filter (fun b => !(b.core == ep % 8 && b.level == w)) })
    s.refreshBorrow (epGeode ep)

/-! ## Results of variable latency (R43, R44) -/

/-- `VARIABLE_RESULT_WRITEBACK` (R44): the result is written, or discarded when a younger write came first; its flags accrue. A claim
waits for the spills that it causes (R265, R268). -/
def execVariableResultWriteback (ep win fid uid : Nat) (val : ResVal) (fl : FlagSet) (poison : Bool) (s : State) : Out :=
  let s := if (s.frame ep win).fid == fid then s.flagsMeet ep win fl else s
  let f := s.frame ep win
  .next (if f.fid != fid then s
    else match f.outs.find? (fun r => r.uid == uid) with
      | none => s
      | some r => match r.dst with
        | .lanes _ =>
          let s := s.spillTurn ep
          if (s.lacking ep win).isEmpty then s.writeBack ep win r val fl poison
          else s.later (.variableResultWriteback ep win fid uid val fl poison)
        | _ => s.writeBack ep win r val fl poison)

end Sys2Proof.Machine
end

