-- ==== Sys2Proof/Machine/Vector.lean ====
section
/-! DEFINITION. Vector instructions: claims, streams, loads and stores, arithmetic (08_vector_pool.md R265-R299). -/

namespace Sys2Proof.Machine

/-! ## Tags and elements (R273-R275) -/

/-- The IEEE format of an FP tag (R273). -/
def tagFmt : Tag → Option Fmt
  | .fp32 => some .f32
  | .fp16 => some .f16
  | .bf16 => some .bf16
  | .fp64 => some .f64
  | _ => none
/-- Whether a tag is an FP tag (R277). -/
def isFp (t : Tag) : Bool := (tagFmt t).isSome
/-- The width of an element; RAW and BX lanes are 32 bits (R273, R288). -/
def tagBits : Tag → Nat
  | .fp16 | .bf16 | .i16 | .n16 => 16
  | .i8 | .n8 => 8
  | .fp64 => 64
  | _ => 32
/-- Whether a tag is a signed integer tag (R277). -/
def tagSigned : Tag → Bool
  | .i32 | .i16 | .i8 => true
  | _ => false
/-- Whether a tag is an integer tag (R277). -/
def isIntTag : Tag → Bool
  | .i32 | .n32 | .i16 | .n16 | .i8 | .n8 => true
  | _ => false
/-- Whether a tag is an arithmetic tag (R277). -/
def isArith (t : Tag) : Bool := isFp t || isIntTag t
/-- Whether a tag is a BX tag. -/
def isBx (t : Tag) : Bool := bxBytes t != 0

/-- FP64 elements over pairs of lanes (R274). -/
def lanePairs : List Half → List Nat
  | a :: b :: l => (a.toNat + b.toNat * 2 ^ 32) :: lanePairs l
  | _ => []
/-- The elements of width `w` of a register's lanes (R274). -/
def elems (w : Nat) (l : List Half) : List Nat :=
  if w == 64 then lanePairs l else l.flatMap (fun v => (List.range (32 / w)).map (fun k => (v.toNat >>> (w * k)) % 2 ^ w))
/-- `n` lanes from elements of `w` bits, `p` to a lane. -/
def packLanes (p w : Nat) : Nat → List Nat → List Half
  | 0, _ => []
  | n + 1, els => BitVec.ofNat 32 (packFields w (els.take p)) :: packLanes p w n (els.drop p)
/-- The lanes that hold elements of width `w` (R274). -/
def packElems (w : Nat) (els : List Nat) : List Half :=
  if w == 64 then els.flatMap (fun e => [BitVec.ofNat 32 e, BitVec.ofNat 32 (e >>> 32)])
  else packLanes (32 / w) w (els.length / (32 / w)) els
/-- An element as an integer by its tag (R277). -/
def elemInt (t : Tag) (e : Nat) : Int :=
  let w := tagBits t
  if tagSigned t && e ≥ 2 ^ (w - 1) then (e : Int) - 2 ^ w else e
/-- Element results with their flags ORed (R287). -/
def withFlags (l : List (Nat × FlagSet)) : List Nat × FlagSet := (l.map Prod.fst, l.foldl (fun f p => f ||| p.2) 0)

/-! ## Guards (R276, R277, R284) -/

/-- What a vector instruction is checked by: its slot, its vector sources and destination, whether a reserved code or
register makes it illegal, whether it is an FP64 operation, whether its tags are accepted, and its result's tag. -/
structure VIn where
  aSlot : Bool
  srcs : List Reg
  dst : Option Reg
  bad : Bool
  pairs : Bool
  ok : Bool
  rtag : Tag
  deriving DecidableEq, Repr

/-- The instruction word of a slot. -/
def State.slotWord (s : State) (a : Bool) : Nat := (if a then s.iss.w1 else s.iss.w0).toNat
/-- EVAL of cause 56 (R276). -/
def State.eval56 (s : State) (a : Bool) : Word := BitVec.ofNat 64 (s.cf.nLanes * 2 ^ 32 + s.slotWord a)
/-- EVAL of cause 57 (R286). -/
def State.eval57 (s : State) (a : Bool) (code : Nat) (r : Reg) : Word :=
  BitVec.ofNat 64 (code * 2 ^ 37 + r.toNat * 2 ^ 32 + s.slotWord a)
/-- EVAL of cause 24 (R277): the tags of up to three vector sources, counted in the order rs1, rs2, rd: the index of a VLDX first, the
index of a VSTX and then its data, which the spec does not settle (DESIGN CHOICE; log entry 55). -/
def State.eval24 (s : State) (a : Bool) (srcs : List Reg) : Word :=
  let t := fun (i : Nat) => match srcs[i]? with | some r => tagCode (s.cf.getTag r) | none => 0
  BitVec.ofNat 64 (t 2 * 2 ^ 40 + t 1 * 2 ^ 36 + t 0 * 2 ^ 32 + s.slotWord a)

/-- The bound stream of a register, if any (R282). -/
def Frame.boundOf (f : Frame) (r : Reg) : Option Stream :=
  if r.toNat ≥ 28 && (f.stream (r.toNat - 28)).bound then some (f.stream (r.toNat - 28)) else none
/-- The results outstanding for a bound write stream. -/
def Frame.outsTo (f : Frame) (t : Stream) : Nat := (f.outs.filter (fun q => q.sid == t.sid && !q.dead)).length

/-- The code of cause 57 for a source (R284). -/
def Frame.srcCode (f : Frame) (r : Reg) : Option (Nat × Reg) :=
  match f.boundOf r with
  | none => none
  | some t => if t.write then some (2, r) else if t.steps ≤ t.pos then some (0, r) else none
/-- The code of cause 57 for a destination (R284). -/
def Frame.dstCode (f : Frame) (r : Reg) : Option (Nat × Reg) :=
  match f.boundOf r with
  | none => none
  | some t => if !t.write then some (3, r) else if t.steps ≤ t.pos + t.buf.length + f.outsTo t then some (1, r) else none
/-- The first stream fault of an instruction. -/
def Frame.streamFault (f : Frame) (srcs : List Reg) (dst : Option Reg) : Option (Nat × Reg) :=
  match srcs.findSome? f.srcCode with
  | some c => some c
  | none => dst.bind f.dstCode
/-- Whether a result's tag differs from that of the write stream it goes to (R284). -/
def Frame.streamTagBad (f : Frame) (dst : Option Reg) (t : Tag) : Bool :=
  match dst.bind f.boundOf with
  | some st => st.write && st.tag != t
  | none => false
/-- Why a bundle waits on a stream (R11, R284). -/
def Frame.streamHold (f : Frame) (srcs : List Reg) (dst : Option Reg) : Option Hold :=
  match srcs.find? (fun r => match f.boundOf r with | some t => !t.write && t.buf.isEmpty | none => false) with
  | some r => some (.streamEmpty (r.toNat - 28))
  | none => match dst with
    | none => none
    | some r => match f.boundOf r with
      | some t => if t.write && 4 ≤ t.buf.length + f.outsTo t then some (.streamFull (r.toNat - 28)) else none
      | none => none

/-- The head of a read stream consumed at issue: the next step becomes the head (R284). -/
def State.consume1 (s : State) (r : Reg) : State :=
  let f := s.cf
  match f.boundOf r with
  | none => s
  | some t =>
    if t.write then s
    else
      let j := r.toNat - 28
      let t' := { t with pos := t.pos + 1, buf := t.buf.drop 1 }
      let s := s.setCf (f.putStream j t')
      let s := match t'.buf with
        | [] => s
        | b :: _ => s.putHead s.iss.ep s.iss.win j t b
      if t'.pos + t'.buf.length < t.steps then s.later (.streamFill s.iss.ep s.iss.win j) else s
/-- Every distinct read stream among the sources consumed once (R284). -/
def State.consume (s : State) (srcs : List Reg) : State := srcs.eraseDups.foldl State.consume1 s

/-- The guards of a vector instruction in the order of R277, then its effect and its streams. A read stream whose head has not arrived
holds the bundle before anything is made of its register; a full write stream holds it unless the instruction faults. -/
def State.vGuard (s : State) (v : VIn) (go : State → State) : State :=
  let f := s.cf
  if v.bad then (if v.aSlot then s.illegalA else s.illegalC)
  else if f.nLanes == 0 || (v.pairs && f.nLanes % 2 == 1) then s.raise 56 (s.eval56 v.aSlot)
  else match f.streamFault v.srcs v.dst with
    | some (c, r) => s.raise 57 (s.eval57 v.aSlot c r)
    | none =>
      if !v.ok || f.streamTagBad v.dst v.rtag then s.raise 24 (s.eval24 v.aSlot v.srcs)
      else match f.streamHold v.srcs v.dst with
        | some (.streamEmpty j) => (s.hold (.streamEmpty j)).later (.streamFill s.iss.ep s.iss.win j)
        | some h => if (go s).iss.stop == .fault then go s else s.hold h
        | none =>
          let t := go s
          if t.iss.stop == .go then t.consume v.srcs else t

/-- The lanes of v[r] of the issuing frame. -/
def State.vr (s : State) (r : Reg) : List Half := s.vread s.iss.ep s.iss.win r
/-- The elements of v[r] at its tag's width. -/
def State.ve (s : State) (r : Reg) (w : Nat) : List Nat := elems w (s.vr r)
/-- The tag of v[r]. -/
def State.vt (s : State) (r : Reg) : Tag := s.cf.getTag r
/-- A vector result of fixed latency. -/
def State.vOut (s : State) (rd : Reg) (t : Tag) (l : List Half) (fl : FlagSet) (lat : Nat) : State :=
  s.fixed (.v rd t) (.lanes t l) fl lat

/-! ## Claims (R265, R266, R271) -/

/-- What the choice of groups has come to (R266): groups chosen, those borrowed, the frames marked for spilling. -/
structure Choice where
  chosen : List Nat
  borrowed : List Nat
  marked : List Nat
  deriving DecidableEq, Repr

/-- Whether group `g` has a bank free for the claim: not held, or held by a frame marked for spilling. -/
def Geode.bankFree (gd : Geode) (c : Nat) (marked : List Nat) (g : Nat) : Bool :=
  (List.range 4).any (fun k => !gd.banks.any (fun b => b.group == g && b.bank == k && !(b.core == c && marked.contains b.level)))

/-- Whether a borrowing take leaves enough free groups for the cores with LENDLOCK (R264). -/
def State.lendOk (s : State) (gd c : Nat) (owned : Nat) (freeLeft : Nat) : Bool :=
  let g := s.geode gd
  let need := (List.range 8).foldl (fun n d =>
    let own := if d == c then owned + 1 else (s.owned gd d).length
    if g.lendlock.getLsbD d then n + (g.quota d - own) else n) 0
  need ≤ freeLeft

/-- One group chosen by steps 1 to 3 of R266, or one frame marked by step 4; `none` when nothing is left to do. -/
def State.chooseStep (s : State) (ep w : Nat) (b : Bool) (ch : Choice) : Option Choice :=
  let gd := epGeode ep; let c := ep % 8
  let g := s.geode gd
  let mine := s.owned gd c
  let own := (mine ++ ch.chosen.filter (fun x => !mine.contains x)).length
  let free := (List.range 16).filter (fun x => (s.groupOwner gd x).isNone && !ch.chosen.contains x)
  let left := mine.filter (fun x => !ch.chosen.contains x)
  match left.find? (g.bankFree c ch.marked), free with
  | some x, _ => some { ch with chosen := ch.chosen ++ [x] }
  | none, x :: rest =>
    if own < g.quota c then some { ch with chosen := ch.chosen ++ [x] }
    else if b && s.lendOk gd c own rest.length then some { ch with chosen := ch.chosen ++ [x], borrowed := ch.borrowed ++ [x] }
    else mark g left
  | none, [] => mark g left
where
  /-- Step 4: the lowest-priority resident frame below that holds a bank in a full group of the core. -/
  mark (g : Geode) (left : List Nat) : Option Choice :=
    ((List.range w).find? (fun p => !ch.marked.contains p && !(s.frame ep p).spilling
      && g.banks.any (fun k => k.core == ep % 8 && k.level == p && left.contains k.group))).map
      (fun p => { ch with marked := ch.marked ++ [p] })

/-- The choice of up to `want` groups (R266); each turn chooses a group or marks a frame. -/
def State.chooseGroups (s : State) (ep w : Nat) (b : Bool) (want : Nat) : Nat → Choice → Choice
  | 0, ch => ch
  | n + 1, ch =>
    if want ≤ ch.chosen.length then ch
    else match s.chooseStep ep w b ch with
      | none => ch
      | some ch' => s.chooseGroups ep w b want n ch'

/-- The grant of a claim (R265): frames spilled, banks taken, tags RAW; the lane count, the groups and BORROW. A bank that a spill
frees is taken when the spill is done (R268). -/
def State.claimLanes (s : State) (ep w n m : Nat) (b : Bool) : State × Nat × BitVec 16 × Bool :=
  let ch := s.chooseGroups ep w b (ceilDiv n 16) 32 (Choice.mk [] [] [])
  let g := Nat.min n (16 * ch.chosen.length)
  if g < m || g == 0 then (s, 0, 0, false)
  else
    let s := (ch.marked.foldl (fun t p => t.modFrame ep p (fun f => { f with spilling := true })) s).spillTurn ep
    let s := ch.chosen.foldl (fun t x => t.claimBank ep w x) s
    let bit := fun (v : BitVec 16) (x : Nat) => v ||| BitVec.ofNat 16 (2 ^ x)
    let s := s.modGeode (epGeode ep) (fun x => { x with gborrow := ch.borrowed.foldl bit x.gborrow })
    let s := s.modFrame ep w (fun f => { f with tags := Vector.replicate 32 .raw })
    let map := ch.chosen.foldl bit 0
    (s, g, map, map &&& (s.geode (epGeode ep)).gborrow != 0)

/-- `VCLAIM` (R265). In a deterministic launch on a memory core, which has no LQUOTA, LQUOTA counts as 0 (DESIGN CHOICE; log entry 78). -/
def execVclaim (b : Bool) (rs2 rs1 rd : Reg) (s : State) : Out :=
  let f := s.cf
  let ep := s.iss.ep
  let w := s.iss.win
  let req := s.xr rs1
  let m := (s.xr rs2).toNat
  let n := Nat.min (Nat.min req.toNat 256) f.descLanes
  let claiming := f.outs.any (fun r => match r.dst with | .lanes _ => true | _ => false)
  let quota := if isMemCore ep then 0 else (s.geode (epGeode ep)).quota (ep % 8)
  .next (if f.nLanes != 0 || claiming then s.raise 56 (s.eval56 false)
    else if s.det && (b || req != s.xr rs2 || req.toNat > 16 * quota) then s.raise 51 req
    else s.withRoom 1 0 (fun s =>
      let none' := m > n || isMemCore ep || (!f.fm && s.firmware ep)
      let (s, g, map, bo) := if none' then (s, 0, 0, false) else s.claimLanes ep w n m b
      let v := ResVal.grant g map bo
      let (u, s) := s.addResult (.lanes rd) none v 0 1
      s.later (.variableResultWriteback ep w f.fid u v 0 false)))

/-- `VFREE` (R271). -/
def execVfree (s : State) : Out := .next (if s.cf.nLanes == 0 then s else s.endGrant s.iss.ep s.iss.win)

/-! ## Streams (R283, R286) -/

/-- The alignment of a vector access by its tag (R279). -/
def vecAlign (t : Tag) : Nat := if t == .fp64 then 8 else if isBx t then 2 else 4

/-- The offsets of the corner steps of a walk of K steps (R282): the extremes of an affine walk are among them. -/
def streamCorners (w0 w1 w2 : Word) : List Int :=
  let k := fld w2 32 32; let n0 := fld w2 0 32
  let j := (k - 1) / n0; let r := (k - 1) % n0
  let step := fun (i o : Nat) => streamOff w0 w1 w2 (o * n0 + i)
  [step 0 0, step r j, step 0 j] ++ (if j == 0 then [] else [step (n0 - 1) 0, step 0 (j - 1), step (n0 - 1) (j - 1)])

/-- Whether a stream descriptor keeps R282 and R283 for `n` lanes. -/
def streamOk (ws : List Word) (n : Nat) : Bool :=
  match ws with
  | [w0, w1, w2, w3] =>
    let k := fld w2 32 32; let n0 := fld w2 0 32
    match tagOf (fld w0 32 4) with
    | none => false
    | some t =>
      let al := vecAlign t
      let j := (k - 1) / n0
      zeroField w0 37 27 && zeroField w0 19 13 && w3 == 0 && k != 0 && n0 != 0
        && (streamCorners w0 w1 w2).all (fun o => decide (0 ≤ o) && decide (o + imageBytes t n ≤ 0x80000))
        && fld w0 0 19 % al == 0
        && (Nat.min k n0 == 1 || fld w1 0 32 % al == 0)
        && (j == 0 || fld w1 32 32 % al == 0)
  | _ => false

/-- `VSBIND` (R283): the descriptor is read in program order and the register bound. A descriptor word with an uncorrectable error gives
no register a result; its stored bits are used, which the spec does not state (DESIGN CHOICE; log entry 78). -/
def execVsbind (rs1 rd : Reg) (s : State) : Out :=
  let f := s.cf
  let off := (s.xr rs1).toNat
  let j := rd.toNat - 28
  let ws := (List.range 4).map (fun i => s.lmWordInOrder (off + 8 * i))
  .next (if f.nLanes == 0 then s.raise 56 (s.eval56 false)
    else if rd.toNat < 28 then s.raise 57 (s.eval57 false 6 rd)
    else if (f.stream j).bound then s.raise 57 (s.eval57 false 5 rd)
    else if off % 8 != 0 || off + 32 > 0x80000 || !streamOk ws f.nLanes then s.raise 57 (s.eval57 false 4 rd)
    else
      let w0 := ws.getD 0 0
      let t := Stream.mk true (bitOf w0 36) w0 (ws.getD 1 0) (ws.getD 2 0) 0 [] (s.uid + 1)
      let s := { s.setCf ((f.putStream j t).putTag rd t.tag) with uid := s.uid + 1 }
      if t.write then s else s.later (.streamFill s.iss.ep s.iss.win j))

/-- `VSFREE` (R286): the register is unbound at once; a write stream's entries, those of its outstanding results included, are written
before later LOCAL accesses of the frame are performed (log entry 22). -/
def execVsfree (rd : Reg) (s : State) : Out :=
  let f := s.cf
  let j := rd.toNat - 28
  .next (if f.nLanes == 0 then s.raise 56 (s.eval56 false)
    else if rd.toNat < 28 then s.raise 57 (s.eval57 false 6 rd)
    else if !(f.stream j).bound then s.raise 57 (s.eval57 false 5 rd)
    else s.closeStreams s.iss.ep s.iss.win [j] true)

/-! ## Loads and stores (R278-R281) -/

/-- The pieces of `n` bytes at an address that a REMOTE vector access is made of (R279): offset and size. A BX image that begins at 2 mod 4
begins with 2 bytes, which the spec does not name (DESIGN CHOICE; log entry 56). -/
def vecPieces (addr : Nat) : Nat → Nat → Nat → List (Nat × Nat)
  | 0, _, _ => []
  | k + 1, off, n =>
    if n == 0 then []
    else
      let a := addr + off
      let e := if a % 8 == 0 && 8 ≤ n then 8 else if a % 4 == 0 && 4 ≤ n then 4 else 2
      (off, e) :: vecPieces addr k (off + e) (n - e)

/-- The accesses of one instruction enter the queue as one entry and leave in order (R172, R279): each with its target, the bytes into
it, its part of the result and what it does. -/
def State.pieces (s : State) (res : Option Nat) (l : List (Target × Nat × Nat × AccOp)) : State :=
  l.zipIdx.foldl (fun t p => t.accessG p.1.1 p.1.2.1 res p.1.2.2.1 p.1.2.2.2 .rlx s.uid (p.2 + 1 < l.length)) s

/-- `VLD` (R279). -/
def execVld (h : HReg) (tag : Tag) (rs1 rd : Reg) (s : State) : Out :=
  let n := imageBytes tag s.cf.nLanes
  .next (s.vGuard (VIn.mk false [] (some rd) false (tag == .fp64) true tag) (fun s =>
    match s.check s.det h (s.xr rs1) n (vecAlign tag) .load false false [0, 1] with
    | .fault c v => s.raise c v
    | .ok t => s.withRoom 1 1 (fun s =>
      let ps := if t.space == 1 then vecPieces t.addr n 0 n else [(0, n)]
      let (u, s) := s.addResult (.v rd tag) none (.word 0) 0 ps.length
      s.pieces (some u) (ps.map (fun p => (t, p.1, p.1, .load p.2))))))

/-- `VST` (R279). -/
def execVst (h : HReg) (rs1 rd : Reg) (s : State) : Out :=
  let tag := s.vt rd
  let n := imageBytes tag s.cf.nLanes
  .next (s.vGuard (VIn.mk false [rd] none false (tag == .fp64) true tag) (fun s =>
    match s.check s.det h (s.xr rs1) n (vecAlign tag) .store false false [0, 1] with
    | .fault c v => s.raise c v
    | .ok t => s.withRoom 0 1 (fun s =>
      let img := imageOf tag (s.vr rd)
      let ps := if t.space == 1 then vecPieces t.addr n 0 n else [(0, n)]
      s.pieces none (ps.map (fun p => (t, p.1, p.1, .store ((img.drop p.1).take p.2)))))))

/-- The targets of a gather or scatter, one for each active lane or pair, or the fault of the lowest failing one (R280). -/
def State.laneTargets (s : State) (h : HReg) (e : Nat) (k : AccKind) : List Word → Except (Nat × Word) (List Target)
  | [] => .ok []
  | a :: l => match s.check s.det h a e e k false false [0] with
    | .fault c v => .error (c, v)
    | .ok t => (s.laneTargets h e k l).map (fun ts => t :: ts)

/-- The offsets of a gather or scatter (R280): for FP64 one for each pair. -/
def State.laneOffs (s : State) (pair : Bool) (rs2 rs1 : Reg) : List Word :=
  let idx := s.vr rs2
  let l := if pair then (List.range (idx.length / 2)).map (fun j => idx.getD (2 * j) 0) else idx
  l.map (fun i => s.xr rs1 + i.setWidth 64)

/-- Whether a tag may carry indices (R280, R298). -/
def indexTag (t : Tag) : Bool := t == .i32 || t == .n32 || t == .raw

/-- `VLDX` (R280). -/
def execVldx (h : HReg) (tag : Tag) (rs2 rs1 rd : Reg) (s : State) : Out :=
  let pair := tag == .fp64
  let e := if pair then 8 else 4
  .next (s.vGuard (VIn.mk false [rs2] (some rd) false pair (indexTag (s.vt rs2) && !isBx tag) tag) (fun s =>
    match s.laneTargets h e .load (s.laneOffs pair rs2 rs1) with
    | .error p => s.raise p.1 p.2
    | .ok ts => s.withRoom 1 1 (fun s =>
      let (u, s) := s.addResult (.v rd tag) none (.word 0) 0 ts.length
      s.pieces (some u) (ts.zipIdx.map (fun p => (p.1, 0, e * p.2, .load e))))))

/-- `VSTX` (R280): in ascending lane order. -/
def execVstx (h : HReg) (rs2 rs1 rd : Reg) (s : State) : Out :=
  let tag := s.vt rd
  let pair := tag == .fp64
  let e := if pair then 8 else 4
  .next (s.vGuard (VIn.mk false [rs2, rd] none false pair (indexTag (s.vt rs2) && !isBx tag) tag) (fun s =>
    match s.laneTargets h e .store (s.laneOffs pair rs2 rs1) with
    | .error p => s.raise p.1 p.2
    | .ok ts => s.withRoom 0 1 (fun s =>
      let img := lanesBytes (s.vr rd)
      s.pieces none (ts.zipIdx.map (fun p => (p.1, 0, e * p.2, .store ((img.drop (e * p.2)).take e)))))))

/-! ## Elementwise (R288, R289) -/

/-- An elementwise instruction: X, whether it has one source, the tags it takes, whether FP forms have a rounding code (R55, R288), its
latency, its result's tag. -/
structure Ew where
  x : Bool
  unary : Bool
  shift : Bool
  same : Bool
  takes : Bool
  rounds : Bool
  lat : Nat
  rtag : Tag
  deriving DecidableEq, Repr

/-- An elementwise operation: mode, first element, second element. -/
abbrev EwOp := BitVec 3 → Nat → Nat → Nat × FlagSet

/-- The second operand of each element: v[rs2], or a scalar (R288). For a BX tag, of which R288 says nothing, the scalar is an `x` register,
of which a bitwise operation takes the low 32 bits (DESIGN CHOICE; log entry 57). -/
def State.ewSecond (s : State) (e : Ew) (rs2 : Reg) (n w : Nat) (fp : Bool) : List Nat :=
  if !e.x then s.ve rs2 w
  else if fp && !e.shift then List.replicate n ((s.fr rs2).toNat % 2 ^ w)
  else List.replicate n (if e.shift then (s.xr rs2).toNat else (s.xr rs2).toNat % 2 ^ w)

/-- An elementwise instruction (R288). -/
def State.vElem (s : State) (e : Ew) (rm : BitVec 3) (rs2 rs1 rd : Reg) (op : EwOp) : State :=
  let t := s.vt rs1
  let w := tagBits t
  let fp := isFp t
  let bad := (fp && e.rounds && (s.mode rm).isNone) || (e.x && fp && !e.shift && 16 ≤ rs2.toNat)
  let srcs := if e.x || e.unary then [rs1] else [rs1, rs2]
  let ok := e.takes && (e.x || e.unary || !e.same || s.vt rs2 == t)
  s.vGuard (VIn.mk true srcs (some rd) bad (t == .fp64) ok e.rtag) (fun s =>
    let a := s.ve rs1 w
    let b := if e.unary then a else s.ewSecond e rs2 a.length w fp
    let (r, fl) := withFlags (List.zipWith (op ((s.mode rm).getD 0)) a b)
    s.vOut rd e.rtag (packElems w r) fl e.lat)

/-- An arithmetic operation by tag (R288): the FP form, or the exact integer result narrowed (R287). -/
def arithOp (t : Tag) (sat : Bool) (fp : Fmt → BitVec 3 → Nat → Nat → Nat × FlagSet) (int : Int → Int → Int) : EwOp :=
  fun m a b => match tagFmt t with
    | some f => fp f m a b
    | none => narrow (tagSigned t) sat (tagBits t) (int (elemInt t a) (elemInt t b))

/-- The form of `VADD`, `VSUB`, `VMUL`, `VMIN` and `VMAX`. -/
def State.ewArith (s : State) (x : Bool) (rs1 : Reg) (lat : Nat) : Ew :=
  Ew.mk x false false true (isArith (s.vt rs1)) true lat (s.vt rs1)

/-- `VADD` (R288). -/
def execVadd (x sat : Bool) (rm : BitVec 3) (rs2 rs1 rd : Reg) (s : State) : Out :=
  .next (s.vElem (s.ewArith x rs1 4) rm rs2 rs1 rd (arithOp (s.vt rs1) sat fAdd (· + ·)))
/-- `VSUB` (R288). -/
def execVsub (x sat : Bool) (rm : BitVec 3) (rs2 rs1 rd : Reg) (s : State) : Out :=
  .next (s.vElem (s.ewArith x rs1 4) rm rs2 rs1 rd (arithOp (s.vt rs1) sat fSub (· - ·)))
/-- `VMUL` (R288). -/
def execVmul (x sat : Bool) (rm : BitVec 3) (rs2 rs1 rd : Reg) (s : State) : Out :=
  .next (s.vElem (s.ewArith x rs1 6) rm rs2 rs1 rd (arithOp (s.vt rs1) sat fMul (· * ·)))
/-- `VMIN` (R288). -/
def execVmin (x : Bool) (rm : BitVec 3) (rs2 rs1 rd : Reg) (s : State) : Out :=
  .next (s.vElem (s.ewArith x rs1 4) rm rs2 rs1 rd (arithOp (s.vt rs1) false (fun f _ => fMinMax f false) min))
/-- `VMAX` (R288). -/
def execVmax (x : Bool) (rm : BitVec 3) (rs2 rs1 rd : Reg) (s : State) : Out :=
  .next (s.vElem (s.ewArith x rs1 4) rm rs2 rs1 rd (arithOp (s.vt rs1) false (fun f _ => fMinMax f true) max))

/-- The form of the bitwise operations: any tags, unchecked (R288). -/
def State.ewBits (s : State) (x : Bool) (rs1 : Reg) : Ew := Ew.mk x false false false true true 4 (s.vt rs1)

/-- `VAND` (R288). -/
def execVand (x : Bool) (rm : BitVec 3) (rs2 rs1 rd : Reg) (s : State) : Out :=
  .next (s.vElem (s.ewBits x rs1) rm rs2 rs1 rd (fun _ a b => (a &&& b, 0)))
/-- `VOR` (R288). -/
def execVor (x : Bool) (rm : BitVec 3) (rs2 rs1 rd : Reg) (s : State) : Out :=
  .next (s.vElem (s.ewBits x rs1) rm rs2 rs1 rd (fun _ a b => (a ||| b, 0)))
/-- `VXOR` (R288). -/
def execVxor (x : Bool) (rm : BitVec 3) (rs2 rs1 rd : Reg) (s : State) : Out :=
  .next (s.vElem (s.ewBits x rs1) rm rs2 rs1 rd (fun _ a b => (a ^^^ b, 0)))

/-- The form of the shifts: integer or RAW (R288). -/
def State.ewShift (s : State) (x : Bool) (rs1 : Reg) : Ew :=
  Ew.mk x false true true (isIntTag (s.vt rs1) || s.vt rs1 == .raw) true 4 (s.vt rs1)

/-- `VSHL` (R288). -/
def execVshl (x : Bool) (rm : BitVec 3) (rs2 rs1 rd : Reg) (s : State) : Out :=
  let w := tagBits (s.vt rs1)
  .next (s.vElem (s.ewShift x rs1) rm rs2 rs1 rd (fun _ a b => (if b ≥ w then 0 else (a <<< b) % 2 ^ w, 0)))
/-- `VSHR` (R288). -/
def execVshr (x : Bool) (rm : BitVec 3) (rs2 rs1 rd : Reg) (s : State) : Out :=
  let t := s.vt rs1
  let w := tagBits t
  let shr := fun (a b : Nat) =>
    if tagSigned t then ((elemInt t a).shiftRight (Nat.min b (w - 1)) % 2 ^ w).toNat else if b ≥ w then 0 else a >>> b
  .next (s.vElem (s.ewShift x rs1) rm rs2 rs1 rd (fun _ a b => (shr a b, 0)))

/-- A comparison of FP elements (R288): EQ and NE as `FEQ`, the others as `FLT` and `FLE`. -/
def vcmpFp (f : Fmt) (c : VCond) (a b : Nat) : Bool × FlagSet :=
  match c with
  | .eq => fEq f a b
  | .ne => let (r, fl) := fEq f a b; (!r, fl)
  | .lt => fLt f a b
  | .le => fLe f a b
  | .gt => fLt f b a
  | .ge => fLe f b a
/-- A comparison of integer elements. -/
def vcmpInt (c : VCond) (a b : Int) : Bool :=
  match c with
  | .eq => a == b
  | .ne => a != b
  | .lt => a < b
  | .le => a ≤ b
  | .gt => b < a
  | .ge => b ≤ a

/-- `VCMP` (R288). -/
def execVcmp (x : Bool) (cond : VCond) (rs2 rs1 rd : Reg) (s : State) : Out :=
  let t := s.vt rs1
  let op : EwOp := fun _ a b =>
    let (r, fl) := match tagFmt t with
      | some f => vcmpFp f cond a b
      | none => (vcmpInt cond (elemInt t a) (elemInt t b), 0)
    (if r then 2 ^ tagBits t - 1 else 0, fl)
  .next (s.vElem (Ew.mk x false false true (isArith t) false 4 .raw) 0 rs2 rs1 rd op)

/-- The form of the operations on one source. -/
def State.ewUnary (s : State) (rs1 : Reg) : Ew := Ew.mk false true false false (isArith (s.vt rs1)) true 4 (s.vt rs1)

/-- `VABS` (R288); with X = 1, for which it has no second source, as with X = 0 (DESIGN CHOICE; log entry 78). -/
def execVabs (sat : Bool) (rm : BitVec 3) (rs1 rd : Reg) (s : State) : Out :=
  .next (s.vElem (s.ewUnary rs1) rm 0 rs1 rd
    (arithOp (s.vt rs1) sat (fun f _ a _ => (a % 2 ^ (f.width - 1), 0)) (fun a _ => a.natAbs)))
/-- `VNEG` (R288); with X = 1 as with X = 0 (DESIGN CHOICE; log entry 78). -/
def execVneg (sat : Bool) (rm : BitVec 3) (rs1 rd : Reg) (s : State) : Out :=
  .next (s.vElem (s.ewUnary rs1) rm 0 rs1 rd (arithOp (s.vt rs1) sat (fun f _ a _ => (fNegBits f a, 0)) (fun a _ => -a)))

/-- `VMOV` (R289); with X = 0 it copies lanes, whatever the tag (DEDUCED; log entry 23). -/
def execVmov (x : Bool) (tag : BitVec 4) (rs1 rd : Reg) (s : State) : Out :=
  let t := if x then (tagOf tag.toNat).getD .raw else s.vt rs1
  let w := tagBits t
  .next (s.vGuard (VIn.mk true (if x then [] else [rs1]) (some rd) false (x && t == .fp64) true t) (fun s =>
    let n := s.cf.nLanes
    let l := if x then packElems w (List.replicate (if w == 64 then n / 2 else n * (32 / w)) ((s.xr rs1).toNat % 2 ^ w))
      else s.vr rs1
    s.vOut rd t l 0 4))

/-! ## Three sources (R290, R291) -/

/-- A fused multiply-add or multiply-subtract (R290). -/
def State.vFused (s : State) (neg : Bool) (rs3 rs2 rs1 rd : Reg) : State :=
  let t := s.vt rs1
  let w := tagBits t
  let ok := isArith t && s.vt rs2 == t && s.vt rs3 == t
  s.vGuard (VIn.mk true [rs1, rs2, rs3] (some rd) (isFp t && s.dyn.isNone) (t == .fp64) ok t) (fun s =>
    let op := fun (a : Nat) (bc : Nat × Nat) => match tagFmt t with
      | some f => fMulAdd f (s.dyn.getD 0) false neg a bc.1 bc.2
      | none =>
        let p := elemInt t a * elemInt t bc.1; let c := elemInt t bc.2
        narrow false false w (if neg then p - c else p + c)
    let (r, fl) := withFlags (List.zipWith op (s.ve rs1 w) ((s.ve rs2 w).zip (s.ve rs3 w)))
    s.vOut rd t (packElems w r) fl 6)

/-- `VFMA` (R290). -/
def execVfma (rs3 rs2 rs1 rd : Reg) (s : State) : Out := .next (s.vFused false rs3 rs2 rs1 rd)
/-- `VFMS` (R290). -/
def execVfms (rs3 rs2 rs1 rd : Reg) (s : State) : Out := .next (s.vFused true rs3 rs2 rs1 rd)

/-- `VSEL` (R290): it selects lanes, and an FP64 tag with odd N is no FP64 operation here (DEDUCED; log entry 23). -/
def execVsel (rs3 rs2 rs1 rd : Reg) (s : State) : Out :=
  let t := s.vt rs1
  .next (s.vGuard (VIn.mk true [rs1, rs2, rs3] (some rd) false false (s.vt rs2 == t) t) (fun s =>
    let l := List.zipWith (fun (a : Half) (bc : Half × Half) => (bc.2 &&& a) ||| (~~~bc.2 &&& bc.1)) (s.vr rs1)
      ((s.vr rs2).zip (s.vr rs3))
    s.vOut rd t l 0 4))

/-- The tag of c and of the result of `VDOT` (R291). -/
def dotTag : Tag → Option Tag
  | .fp16 => some .fp32
  | .bf16 => some .fp32
  | .i16 => some .i32
  | .i8 => some .i32
  | .n8 => some .n32
  | _ => none

/-- One lane of `VDOT` (R291). -/
def dotLane (t tc : Tag) (mode : BitVec 3) (a b c : Half) : Nat × FlagSet :=
  let w := tagBits t
  let ps := (elems w [a]).zip (elems w [b])
  match tagFmt t with
  | some f => dotRound .f32 mode (ps.map (fun p => (f.decode p.1, f.decode p.2))) [Fmt.f32.decode c.toNat]
  | none => narrow (tagSigned tc) true 32 (ps.foldl (fun n p => n + elemInt t p.1 * elemInt t p.2) (elemInt tc c.toNat))

/-- `VDOT` (R291). -/
def execVdot (rs3 rs2 rs1 rd : Reg) (s : State) : Out :=
  let t := s.vt rs1
  let tc := s.vt rs3
  let ok := s.vt rs2 == t && dotTag t == some tc
  let bad := (t == .fp16 || t == .bf16) && s.dyn.isNone
  .next (s.vGuard (VIn.mk true [rs1, rs2, rs3] (some rd) bad false ok tc) (fun s =>
    let (r, fl) := withFlags (List.zipWith (fun a (bc : Half × Half) => dotLane t tc (s.dyn.getD 0) a bc.1 bc.2) (s.vr rs1)
      ((s.vr rs2).zip (s.vr rs3)))
    s.vOut rd tc (packElems 32 r) fl 8))

/-! ## Reductions (R292, R293, R98) -/

/-- One level of the pairwise tree (R98): an odd last element passes. -/
def pairUp (op : Nat → Nat → Nat × FlagSet) : List Nat → List Nat × FlagSet
  | a :: b :: l =>
    let (v, f) := op a b
    let (r, g) := pairUp op l
    (v :: r, f ||| g)
  | l => (l, 0)
/-- The pairwise tree (R98). -/
def treeReduce (op : Nat → Nat → Nat × FlagSet) : Nat → List Nat → FlagSet → Nat × FlagSet
  | 0, l, f => (l.headD 0, f)
  | n + 1, l, f =>
    match l with
    | [] => (0, f)
    | [a] => (a, f)
    | _ => let (r, g) := pairUp op l; treeReduce op n r (f ||| g)

/-- A reduction to one element (R292): to v[rd], or with S to a scalar register. -/
def State.vReduce (s : State) (sc rounds : Bool) (rm : BitVec 3) (rs1 rd : Reg) (op : Tag → EwOp) : State :=
  let t := s.vt rs1
  let w := tagBits t
  let fp := isFp t
  let scalarTag := t == .fp32 || t == .fp64 || t == .i32 || t == .n32
  let bad := (fp && rounds && (s.mode rm).isNone) || (sc && fp && 16 ≤ rd.toNat)
  s.vGuard (VIn.mk true [rs1] (if sc then none else some rd) bad (t == .fp64) (isArith t && (!sc || scalarTag)) t) (fun s =>
    let e := s.ve rs1 w
    let (v, fl) := treeReduce (op t ((s.mode rm).getD 0)) 10 e 0
    if !sc then s.vOut rd t (packElems w (List.replicate e.length v)) fl 10
    else if fp then s.fixedF rd (fpWord (t == .fp64) v) fl 10
    else s.fixedXF rd (intWord (tagSigned t) 32 v) fl 10)

/-- `VRSUM` (R292); fx[3] is ignored for FP tags, as R288 says of its own forms (DESIGN CHOICE; log entry 78). -/
def execVrsum (s' sat : Bool) (rm : BitVec 3) (rs1 rd : Reg) (s : State) : Out :=
  .next (s.vReduce s' true rm rs1 rd (fun t => arithOp t sat fAdd (· + ·)))
/-- `VRMAX` (R292). -/
def execVrmax (s' : Bool) (rs1 rd : Reg) (s : State) : Out :=
  .next (s.vReduce s' false 0 rs1 rd (fun t => arithOp t false (fun f _ => fMinMax f true) max))
/-- `VRMIN` (R292). -/
def execVrmin (s' : Bool) (rs1 rd : Reg) (s : State) : Out :=
  .next (s.vReduce s' false 0 rs1 rd (fun t => arithOp t false (fun f _ => fMinMax f false) min))

/-- The steps of a prefix sum (R98): in each, elements from place 2^s on take the sum with the element 2^s before. -/
def scanSteps (op : Nat → Nat → Nat × FlagSet) : Nat → Nat → List Nat → FlagSet → List Nat × FlagSet
  | 0, _, l, f => (l, f)
  | n + 1, d, l, f =>
    let (r, g) := withFlags (List.zipWith op (l.drop d) l)
    scanSteps op n (2 * d) (l.take d ++ r) (f ||| g)

/-- `VSCAN` (R292): fx[3] has no meaning for it, so a word that sets it is illegal (R40). -/
def execVscan (sat : Bool) (rm : BitVec 3) (rs1 rd : Reg) (s : State) : Out :=
  let t := s.vt rs1
  let w := tagBits t
  let fp := isFp t
  let ok := t == .fp32 || t == .fp64 || t == .i32 || t == .n32
  .next (s.vGuard (VIn.mk true [rs1] (some rd) (sat || (fp && (s.mode rm).isNone)) (t == .fp64) ok t) (fun s =>
    let (r, fl) := scanSteps (arithOp t false fAdd (· + ·) ((s.mode rm).getD 0)) 8 1 (s.ve rs1 w) 0
    s.vOut rd t (packElems w r) fl 12))

/-- The block maximum of a segment (R293). -/
def blockMax (l : List Half) : Nat × FlagSet :=
  let vs := l.map (fun v => Fmt.f32.decode v.toNat)
  if vs.any FVal.isNan then (Fmt.f32.nan, nvFlag (vs.any FVal.isSig))
  else (l.foldl (fun m v => Nat.max m (v.toNat % 2 ^ 31)) 0, 0)

/-- The segments of 32 lanes of a register (R275). -/
def segments (l : List Half) : List (List Half) := (List.range (ceilDiv l.length 32)).map (fun b => (l.drop (32 * b)).take 32)

/-- `VBMAX` (R293). -/
def execVbmax (s' : Bool) (rs1 rd : Reg) (s : State) : Out :=
  .next (s.vGuard (VIn.mk true [rs1] (if s' then none else some rd) false false (s.vt rs1 == .fp32) .fp32) (fun s =>
    let l := s.vr rs1
    if s' then
      let (v, fl) := blockMax l
      s.fixedF rd (fpWord false v) fl 10
    else
      let ms := (segments l).map (fun g => (g.length, blockMax g))
      let out := ms.flatMap (fun p => List.replicate p.1 (BitVec.ofNat 32 p.2.1))
      s.vOut rd .fp32 out (ms.foldl (fun f p => f ||| p.2.2) 0) 10))

/-! ## Special functions (R294) -/

/-- A special function of FP32 elements (R294); integer and RAW tags never read FRM (R55). -/
def State.vSpecial (s : State) (rm : Rnd) (rs1 rd : Reg) (lat : Nat) (op : BitVec 3 → Nat → Nat × FlagSet) : State :=
  let m := s.mode (rndCode rm)
  let reads := !(isIntTag (s.vt rs1) || s.vt rs1 == .raw)
  s.vGuard (VIn.mk true [rs1] (some rd) (reads && m.isNone) false (s.vt rs1 == .fp32) .fp32) (fun s =>
    let (r, fl) := withFlags ((s.ve rs1 32).map (op (m.getD 0)))
    s.vOut rd .fp32 (packElems 32 r) fl lat)

/-- `VEXP2` (R294). -/
def execVexp2 (rm : Rnd) (rs1 rd : Reg) (s : State) : Out := .next (s.vSpecial rm rs1 rd 10 fExp2)
/-- `VLOG2` (R294). -/
def execVlog2 (rm : Rnd) (rs1 rd : Reg) (s : State) : Out := .next (s.vSpecial rm rs1 rd 10 fLog2)
/-- `VRCP` (R294). -/
def execVrcp (rm : Rnd) (rs1 rd : Reg) (s : State) : Out := .next (s.vSpecial rm rs1 rd 10 fRcp)
/-- `VRSQ` (R294). -/
def execVrsq (rm : Rnd) (rs1 rd : Reg) (s : State) : Out := .next (s.vSpecial rm rs1 rd 10 fRsq)

/-! ## Format operations (R295-R299) -/

/-- The blocks of a BX register (R275). A last segment with fewer lanes than its block takes reads as continued by zeros, and what of a
block has no lane is dropped when it is written, which the spec does not state (DESIGN CHOICE; log entry 78). -/
def blocksOf (t : Tag) (l : List Half) : List (List Byte) :=
  (segments l).map (fun g => (lanesBytes g ++ List.replicate (bxBytes t) 0).take (bxBytes t))
/-- The lanes that hold blocks, the rest of each segment zero (R275). -/
def blockLanes (n : Nat) (bs : List (List Byte)) : List Half := (bs.flatMap (bytesLanes 32)).take n

/-- One element converted (R295). -/
def convElem (ts td : Tag) (m : BitVec 3) (a : Nat) : Nat × FlagSet :=
  if ts == td || isBx ts then (a, 0)
  else match tagFmt ts, tagFmt td with
    | some f, some g => fConvert f g m a
    | some f, none =>
      let (v, fl) := valToInt m (tagSigned td) (tagBits td) (f.decode a)
      ((v % 2 ^ tagBits td).toNat, fl)
    | none, some g => intToF g m (elemInt ts a)
    | none, none => narrow (tagSigned td) true (tagBits td) (elemInt ts a)

/-- `VCVT` (R295); `DYN` takes FRM whatever the tags (R55, log entry 25). -/
def execVcvt (td : Tag) (rm : BitVec 3) (rs1 rd : Reg) (s : State) : Out :=
  let ts := s.vt rs1
  let ok := !(ts == .raw || td == .raw || isBx td || (isBx ts && td != .fp32))
  let w := tagBits td
  .next (s.vGuard (VIn.mk true [rs1] (some rd) (s.mode rm).isNone (ts == .fp64 || td == .fp64) ok td) (fun s =>
    let l := s.vr rs1
    let n := if w == 64 then l.length / 2 else l.length * (32 / w)
    let src := if isBx ts then (blocksOf ts l).flatMap (fun b => (List.range 32).map (bxDecode ts b)) else elems (tagBits ts) l
    let (r, fl) := withFlags ((src.take n).map (convElem ts td ((s.mode rm).getD 0)))
    s.vOut rd td (packElems w (r ++ List.replicate (n - r.length) 0)) fl 6))

/-- `VTAG` (R296). -/
def execVtag (tag : Tag) (rs1 rd : Reg) (s : State) : Out :=
  .next (s.vGuard (VIn.mk true [rs1] (some rd) false false true tag) (fun s => s.vOut rd tag (s.vr rs1) 0 4))

/-- `VQNT` (R299). -/
def execVqnt (fmt : BxFmt) (fs : BitVec 3) (rs2 rs1 rd : Reg) (s : State) : Out :=
  let t : Tag := match fmt with
    | .bx8 => .bx8
    | .bx6 => .bx6
    | .bx4 => .bx4
  .next (s.vGuard (VIn.mk true [rs1] (some rd) false false (s.vt rs1 == .fp32) t) (fun s =>
    let sc := (s.fr (fs.setWidth 5)).toNat % 2 ^ 32
    let d := Nat.max 1 (fld (s.xr rs2) 0 4)
    let one := fun (g : List Half) =>
      let (y, fl) := withFlags (g.map (fun v => fMul .f32 0 v.toNat sc))
      let (b, fl') := quantise t d (y ++ List.replicate (32 - y.length) 0)
      (b, fl ||| fl')
    let l := s.vr rs1
    let rs := (segments l).map one
    s.vOut rd t (blockLanes l.length (rs.map Prod.fst)) (rs.foldl (fun f p => f ||| p.2) 0) 12))

/-- A list shifted by a signed count: element e + k, or zero outside (R297). -/
def shiftList {α : Type} (z : α) (l : List α) (k : Int) : List α :=
  (List.range l.length).map (fun (e : Nat) =>
    let i := Int.ofNat e + k
    if i < 0 then z else l.getD i.toNat z)

/-- `VEXT` (R297). -/
def execVext (rs2 rs1 rd : Reg) (s : State) : Out :=
  let t := s.vt rs1
  let w := tagBits t
  .next (s.vGuard (VIn.mk true [rs1] (some rd) false (t == .fp64) true t) (fun s =>
    let k := (s.xr rs2).toInt
    let l := s.vr rs1
    let out := if isBx t then blockLanes l.length (shiftList (List.replicate (bxBytes t) 0) (blocksOf t l) k)
      else packElems w (shiftList 0 (elems w l) k)
    s.vOut rd t out 0 6))

/-- `VPERM` (R298): it moves lanes, whatever the tag (DEDUCED; log entry 23). -/
def execVperm (rs2 rs1 rd : Reg) (s : State) : Out :=
  let t := s.vt rs1
  .next (s.vGuard (VIn.mk true [rs1, rs2] (some rd) false false (indexTag (s.vt rs2)) t) (fun s =>
    let l := s.vr rs1
    s.vOut rd t ((s.vr rs2).map (fun j => l.getD (j.toNat % 512) 0)) 0 6))

end Sys2Proof.Machine
end

