-- ==== Sys2Proof/Machine/Frames.lean ====
section
/-! DEFINITION. The end of frames, traps, halts and migration (06_frame_unit.md R204, R215-R229; R251, R269, R270, R329, R330,
R347, R361, R439, R465). Taking a trap and returning from one are `State.takeTrap` and `State.eret`. -/

namespace Sys2Proof.Machine

/-! ## What a frame's end does -/

/-- How a frame ends: it pops, firmware kills it with a code, or it is LOST (R204, R222, R225). -/
inductive FrameEnd where
  | pop
  | kill (code : BitVec 16)
  | lost
  deriving DecidableEq, Repr

/-- CAUSE of a frame's ECAUSE. -/
def Frame.cause (f : Frame) : Nat := fld f.ecause 0 6
/-- The fault report of a frame (R222). -/
def Frame.report (f : Frame) (ep : Nat) (code : BitVec 16) (status : Nat) : FaultReport :=
  FaultReport.mk ep (BitVec.ofNat 4 f.okind) (BitVec.ofNat 24 f.otag) f.rel.gen f.asid f.ecause f.eval f.epc code (BitVec.ofNat 16 status)
/-- What a launch's completion will say after a fault report of its ASID (R504): the first report, a LOST one before others. -/
def TSlot.note (t : TSlot) (status cause : Nat) : TSlot :=
  match t.fault with
  | none => { t with fault := some (status, cause) }
  | some (st, _) => if st != 3 && status == 3 then { t with fault := some (3, cause) } else t
/-- A fault report with OKIND 0 or 1 reaches the front end (R222, R504). -/
def State.reportFe (s : State) (r : FaultReport) (cause : Nat) : State :=
  let t := s.term.slots.map (fun (x : TSlot) => if x.st == 1 && x.asid == r.asid then x.note r.status.toNat cause else x)
  { s.out (.fault r) with term := { s.term with slots := t } }
/-- The packets that a frame's end sends once its release is done: the node's done message or fault (R439), the join message
(R465). -/
def Frame.endPackets (f : Frame) (ep : Nat) (status : Nat) : List (Nat × Nat × Nat × Event) :=
  let node := f.okind == 2 && epClass f.rel.srcEp == 3 && !(status == 0 && f.arrayDone)
  (if node then [(0, ep, f.rel.srcEp, .nodeDone (firingOf f.rel f.otag) f.rel.dst status (if status == 0 then 0 else f.cause))] else [])
    ++ joinOfFrame ep f (status != 0)
/-- The scope at which a frame's end messages are released: the scope of its end and of the releases it still has waiting. -/
def State.endScopeOf (s : State) (ep : Nat) (f : Frame) : Scope :=
  (s.core ep).oq.foldl (fun sc e => match e.item with
    | .release q _ => if e.fid == f.fid then widerScope sc q else sc
    | _ => sc) ((f.endScope ep).getD .core)

/-- A frame's end (R204, R222, R225, R251, R329, R347): its claims, grant, registrations, handler slot and responder; then the
messages and the report to its origin. -/
def State.frameEnd (s : State) (ep w : Nat) (how : FrameEnd) : State :=
  let f := s.frame ep w
  let status := match how with | .pop => 0 | .kill _ => 2 | .lost => 3
  let code := match how with | .kill c => c | _ => 0
  let s := (s.endGrant ep w).modCore ep (fun c => c.dropClaims w)
  let s := if status == 0 || isMemCore ep then s
    else s.withdraw (epGeode ep) ((s.arr (epGeode ep)).regs.filter (fun r => r.core == ep % 8 && r.fid == f.fid))
  let s := s.freeSlot ep f.slot
  let s := match f.responder with
    | none => s
    | some r => s.responderEnd ep r.census r.partIdx r.entry f.fid (status == 0) r.responded
  let evs := f.endPackets ep status
  let s := if (joinOfFrame ep f false).isEmpty then s else s.countSent ep f.asid
  let s := if evs.isEmpty then s
    else { s with uid := s.uid + 1 }.enqueue ep (QEnt.mk s.uid f.fid w (.release (s.endScopeOf ep f) evs) false s.uid false)
  if status != 0 && !f.trapFrame && f.okind ≤ 1 then s.reportFe (f.report ep code status) f.cause else s
/-- A frame ends and its window is FREE. What the end of a LOST frame does was done when it became LOST (R225). -/
def State.frameFree (s : State) (ep w : Nat) (how : FrameEnd) : State :=
  (if (s.frame ep w).st == .lost then s else s.frameEnd ep w how).setFrame ep w Frame.free
/-- A frame becomes LOST (R225, R251, R267, R329): its grant, claims, registrations, handler slot and responder end now, and its report
goes to its origin. -/
def State.lose (s : State) (ep w : Nat) : State :=
  (s.frameEnd ep w .lost).modFrame ep w (fun f => { f with st := .lost, slot := none, responder := none })

/-- The frame below becomes top when the frame above it pops (R224, R225): it takes the state it remembers; a LOST one is freed and
the next considered. A frame whose rows are spilled has its refill to wait for (R269). -/
def State.uncover (s : State) (ep : Nat) : Nat → State
  | 0 => s
  | k + 1 =>
    match (s.core ep).top with
    | none => s
    | some w =>
      let f := s.frame ep w
      let s := if f.spilled && f.st != .lost then s.laterOnce (.refillComplete ep) else s
      match f.st with
      | .preempted => (s.setFrame ep w { f with st := f.remembered, spilling := false }).resume ep w f.remembered
      | .lost => (s.frameFree ep w .lost).uncover ep k
      | _ => s

/-- A frame pops (R204): the frame below takes over, and selection follows (R206). -/
def State.popFrame (s : State) (ep w : Nat) : State := ((s.frameFree ep w .pop).uncover ep 8).select ep

/-- `FRAME_POP` (R204): an ENDING top frame with no result outstanding pops. -/
def execFramePop (ep : Nat) (s : State) : Out :=
  let s := s.settle ep
  .next (match (s.core ep).top with
    | none => s
    | some w =>
      let f := s.frame ep w
      if f.st != .ending || (s.core ep).code != 0 then s
      else if !f.outs.isEmpty || !(s.core ep).push.isEmpty then s.later (.framePop ep)
      else s.popFrame ep w)

/-! ## Refill (R269, R270) -/

/-- Whether a frame's rows in its spill reserve hold an uncorrectable error. -/
def State.reserveBad (s : State) (ep w : Nat) : Bool :=
  let f := s.frame ep w
  (List.range 32).any (fun r => s.lmBad ep (f.spillOff r 0) (4 * f.nLanes))
/-- The frame below the top of its core, or of a core that migrates, in whose spill reserve a place of `mem` lies (R191, R225). -/
def State.reserveAt (s : State) (key : Nat) : Option (Nat × Nat) :=
  let ep := key / 2 ^ 19
  let off := key % 2 ^ 19 / 8 * 8
  let hit := fun (w : Nat) =>
    let f := s.frame ep w
    f.spilled && (List.range 32).any (fun r => off < f.spillOff r f.nLanes && f.spillOff r 0 < off + 8)
  if key < 2 ^ 53 then ((List.range 8).find? hit).map (fun w => (ep, w)) else none
/-- The spilled frames of a core whose reserve holds an uncorrectable error become LOST as it migrates (R225, R228). -/
def State.loseReserves (s : State) (ep : Nat) : State :=
  (List.range 8).foldl (fun t w =>
    let f := t.frame ep w
    if f.spilled && f.st != .free && f.st != .lost && t.reserveBad ep w then
      (t.lose ep w).modCore ep (fun c => { c with mig := c.mig.map (fun m => { m with lost := true }) })
    else t) s
/-- `REFILL_COMPLETE` (R269): the spilled top frame's rows come back from its reserve, and it may issue; with an uncorrectable error there
it is LOST, and the frame below considered. A frame that a migration brought without groups has its map chosen first, and waits while
the core cannot supply it (R270); a grant not yet written back is waited for. -/
def execRefillComplete (ep : Nat) (s : State) : Out :=
  .next (match (s.core ep).top with
    | none => s
    | some w =>
      let f := s.frame ep w
      if !f.spilled then s
      else if f.nLanes == 0 then s.later (.refillComplete ep)
      else if s.reserveBad ep w then (((s.lose ep w).frameFree ep w .lost).uncover ep 8).select ep
      else
        let img := (List.range 32).map (fun r => s.vread ep w (BitVec.ofNat 5 r))
        let need := ceilDiv f.nLanes 16
        let map := groupsOf f.gmap
        let map := if need ≤ map.length then map else (s.chooseGroups ep w false need 32 (Choice.mk [] [] [])).chosen
        if map.length < need then s.later (.refillComplete ep)
        else match s.takeBanks ep w map with
        | (s, none) => s.later (.refillComplete ep)
        | (_, some t) =>
          let gm := map.foldl (fun n g => n + 2 ^ g) 0
          let t := t.modFrame ep w (fun f => { f with
            spilled := false, hold := (if f.hold == .refill then .none else f.hold)
            vlen := setFld f.vlen 16 16 gm })
          let t := (List.range 32).foldl (fun u r => u.vwrite ep w (BitVec.ofNat 5 r) (img.getD r [])) t
          t.modGeode (epGeode ep) (fun x => { x with refillcnt := x.refillcnt + 1 }))

/-! ## Traps (R215-R217) -/

/-- ECAUSE of a fault of a frame (R217). -/
def Frame.ecauseOf (f : Frame) (p : PFault) : Word :=
  BitVec.ofNat 64 (bitNat p.st * 2 ^ 15 + bitNat f.fm * 2 ^ 14 + f.level.toNat * 2 ^ 8 + p.cause.toNat)
/-- A double fault (R216): nothing is pushed; from the top frame down every frame is LOST with what its end does; the core is
HALTED and says so. -/
def State.halt (s : State) (ep : Nat) : State :=
  let one := fun (t : State) (w : Nat) =>
    if (t.frame ep w).st == .free || (t.frame ep w).st == .lost then t else t.lose ep w
  let s := (List.range 8).reverse.foldl one s
  ((s.modCore ep (fun c => { c with code := 4 })).censusHalt ep).out (.halted ep)
/-- The trap frame above a trapped frame (R215). -/
def trapFrameOf (c : Core) (f : Frame) (base fid : Nat) : Frame :=
  let n := c.trapSeg
  { Frame.free with
    st := .running
    trapFrame := true
    fid := fid
    pc := c.trapvec
    x := vset (vset (vset (vset (vset (vset (Vector.replicate 32 0) 2 (BitVec.ofNat 64 n)) 10 f.ecause) 11 f.eval) 12 f.epc)
      13 (f.level.setWidth 64)) 14 (f.asid.setWidth 64)
    h := vset (vset (Vector.replicate 8 Handle.empty) 0 handleH0) 1 (handleH1 base n)
    level := 7
    segBase := base
    segEnd := base + n }
/-- Taking a trap (R215, R217): the trapped frame's ECAUSE, EVAL and EPC are set, it becomes TRAPPED, and the trap frame is pushed
at level 7; a fault at level 7 is a double fault. -/
def State.takeTrap (s : State) (ep w : Nat) (p : PFault) : State :=
  let f := s.frame ep w
  let f := { f with ecause := f.ecauseOf p, eval := p.value, epc := p.pc, pending := none }
  if w == 7 then (s.setFrame ep w f).halt ep
  else
    let f := { f.preempt with st := .trapped, remembered := .free }
    let s := s.setFrame ep w f
    let c := s.core ep
    { s.setFrame ep 7 (trapFrameOf c f (c.segTop 7) s.uid) with uid := s.uid + 1 }

/-- `TRAP_ENTRY` (R215): taken when the FAULTING frame is top and its results are complete. -/
def execTrapEntry (ep : Nat) (s : State) : Out :=
  let s := s.settle ep
  .next (match (s.core ep).top with
    | none => s
    | some w =>
      let f := s.frame ep w
      match f.pending with
      | none => s
      | some p =>
        if f.st != .faulting || (s.core ep).code != 0 then s
        else if !f.outs.isEmpty || !(s.core ep).push.isEmpty then s.later (.trapEntry ep)
        else s.takeTrap ep w p)

/-! ## Return from a trap (R221, R222) -/

/-- The entry that a trapped start repeats (R221): what was held at arrival; the descriptor is read again. -/
def Frame.entry (f : Frame) : Entry :=
  Entry.mk f.rel f.record 0 0 0 0 3 0 f.slot f.reply (f.responder.map (fun r => (r.census, r.entry + 128 * r.partIdx))) f.path f.jscope
/-- A TRAPPED frame goes on at its EPC (R221, R228). -/
def State.untrapAt (s : State) (ep w : Nat) : State :=
  (s.modFrame ep w (fun f => { f with
    st := .running, pc := f.epc &&& ~~~7, hold := .none, waiting := false, answer := none, spilling := false })).resume ep w .running
/-- A TRAPPED frame goes on (R221): at EPC, or, after a start trap, with its start repeated. -/
def State.untrap (s : State) (ep w : Nat) : State :=
  let f := s.frame ep w
  if bitOf f.ecause 15 then
    let r := s.readEntry ep f.entry
    let s := r.2
    let c := s.core ep
    let g := startFrame r.1 (c.segTop w) (c.spLimit - c.trapSeg) f.fid
    let s := s.setFrame ep w g
    if g.st == .faulting then s.later (.trapEntry ep) else s
  else s.untrapAt ep w
/-- The window of the frame that a trap frame lies above. -/
def Core.trappedWin (c : Core) : Option Nat := (List.range 7).reverse.find? (fun w => (c.win w).st == FState.trapped)
/-- The return from a trap (R221): the trap frame pops, and the frame it trapped goes on. A trapped frame that is LOST is freed. -/
def State.eret (s : State) (ep : Nat) : State :=
  let s := s.frameFree ep 7 .pop
  let s := match (s.core ep).top with
    | some w => if (s.frame ep w).st == FState.trapped then s.untrap ep w else s.uncover ep 8
    | none => s
  let s := match (s.core ep).top with
    | some w => if (s.frame ep w).spilled then s.laterOnce (.refillComplete ep) else s
    | none => s
  s.select ep

/-- `ERET` (R221): in a trap frame only (cause 2). -/
def execEret (s : State) : Out := .next (if !s.cf.trapFrame then s.illegalC else s.eret s.iss.ep)
/-- `FKILL` (R222): in a trap frame only (cause 2). The trapped frame is killed, then the trap frame pops. -/
def execFkill (rs1 : Reg) (s : State) : Out :=
  let ep := s.iss.ep
  .next (if !s.cf.trapFrame then s.illegalC
    else
      let s := match s.cc.trappedWin with
        | some w => s.frameFree ep w (.kill ((s.xr rs1).setWidth 16))
        | none => s
      s.popFrame ep 7)

/-! ## LOST frames and reports (R22, R225) -/

/-- `FRAME_LOST` (R224, R225): an uncorrectable error struck the saved state of a frame that is not on top, or any frame of a core
that migrates. The claims it held no longer keep others from selection (R206). -/
def execFrameLost (ep win : Nat) (s : State) : Out :=
  let c := s.core ep
  let f := c.win win
  .next (if win ≥ 8 || f.st == .free || f.st == .lost || (c.top == some win && c.code != 2) then s
    else ((s.lose ep win).modCore ep (fun c => { c with mig := c.mig.map (fun m => { m with lost := true }) })).select ep)

/-- A ring entry lost to an uncorrectable error (R205): the event names its source and record; its handler slot is free (R251), and its
responder counts as a fault (R347). -/
def State.entryLost (s : State) (ep : Nat) (e : Entry) : State :=
  let s := (s.out (.lostRecord ep e.rel)).freeSlot ep e.slot
  match e.census with
  | none => s
  | some (id, n) => s.responderEnd ep id (n / 128) (n % 128) s.uid false false
/-- Entry `j` of a level's ring as LM holds it, and whether it holds an uncorrectable error (R190, R205). -/
def State.ringEntry (s : State) (ep p j : Nat) (e : Entry) : Entry × Bool :=
  let c := s.core ep
  let off := c.ringSlot p ((vget 0 c.ringHead p + j) % Nat.max 1 c.ringEntries)
  (entryOfWords e ((List.range 16).map (fun i => s.lmWord ep (off + 8 * i))), s.lmBad ep off 128)
/-- `FIFO_RING_MOVE` (R205): the oldest ring entry moves into the hardware FIFO, or is lost. -/
def execFifoRingMove (ep level : Nat) (s : State) : Out :=
  let c := s.core ep
  let fifo := vget [] c.fifo level
  .next (match vget [] c.ring level with
    | [] => s
    | e :: l =>
      if 32 ≤ fifo.length then s
      else
        let (e', bad) := s.ringEntry ep level 0 e
        let s := s.setCore ep { c with
          fifo := if bad then c.fifo else vset c.fifo level (fifo ++ [e'])
          ring := vset c.ring level l
          ringHead := vset c.ringHead level ((vget 0 c.ringHead level + 1) % Nat.max 1 c.ringEntries) }
        if bad then (s.entryLost ep e).later (.fifoRingMove ep level) else s.select ep)

/-- `STARVATION_REPORT` (R22): a level with ready work and no running frame for longer than STARVE: its frame, if it has one, is not the
top frame. -/
def execStarvationReport (ep level : Nat) (s : State) : Out :=
  let c := s.core ep
  .next (if c.starve != 0 && c.hasWork level && c.top != some level then s.out (.starvation ep level) else s)

/-! ## Migration (R226-R229) -/

/-- Whether a core is FREE-RESERVED with empty FIFOs (R226). -/
def Core.reserved (c : Core) : Bool :=
  c.code == 0 && c.noplace && c.top.isNone && c.claims.isEmpty && c.push.isEmpty
    && (List.range 8).all (fun p => (vget [] c.fifo p).isEmpty && (vget [] c.ring p).isEmpty)
/-- `MIGR` (R226, R330): the core is MIGRATING, its unformed registrations are withdrawn, and the issuing frame ends; a frame that
it trapped will go on at its EPC (R228). -/
def execMigr (rs2 rs1 rd : Reg) (s : State) : Out :=
  let d := s.xr rs1; let t := s.xr rs2; let i := s.xr rd
  let ep := s.iss.ep
  .next (if !s.cf.fm then s.illegalC
    else if s.cf.level != 7 then s.raise 52 (s.cf.level.setWidth 64)
    else if !zeroField d 12 52 || !(s.core d.toNat).reserved then s.raise 55 d
    else if !zeroField i 8 56 then s.raise 54 i
    else if s.cc.recbusy.getLsbD i.toNat then s.raise 31 i
    else match s.targetOk t true with
    | none => s.raise 55 t
    | some (c, dv) =>
      let r := Release.mk s.srcDev d.toNat (BitVec.ofNat 8 i.toNat) c dv 0 0 0 0 0 true
      let s := s.frameFree ep s.iss.win .pop
      let s := match (s.core ep).trappedWin with
        | some w => if (s.core ep).top == some w then s.untrapAt ep w else s
        | none => s
      let s := if isMemCore ep then s
        else s.withdraw (epGeode ep) ((s.arr (epGeode ep)).regs.filter (fun r => r.core == ep % 8))
      let s := s.modCore ep (fun c => { c with code := 2, mig := some (Migration.mk d.toNat r false) })
      s.later (.migrationCommit ep))

/-- The window operation of a frame as changed, in the step that performs it. -/
def mapWin (g : WinOp → WinOp) : Event → Event
  | .sawRead q => .sawRead (g q)
  | .sawDone q n => .sawDone (g q) n
  | .registerWrite (.window q) => .registerWrite (.window (g q))
  | .clearOnRead (.window q) => .clearOnRead (.window (g q))
  | .hcinv q => .hcinv (g q)
  | .tlbinv q r => .tlbinv (g q) r
  | .icinv q => .icinv (g q)
  | .corereset q => .corereset (g q)
  | .gfclear q => .gfclear (g q)
  | .recbusyClear q => .recbusyClear (g q)
  | .monitorFree q => .monitorFree (g q)
  | .lquotaWrite q => .lquotaWrite (g q)
  | .cmaskWrite q => .cmaskWrite (g q)
  | .slotstEmpty q => .slotstEmpty (g q)
  | .settagFree q => .settagFree (g q)
  | .svclear q => .svclear (g q)
  | .censend q => .censend (g q)
  | .barfree q => .barfree (g q)
  | .cancel q => .cancel (g q)
  | .rrctlWrite q => .rrctlWrite (g q)
  | .rrpush q => .rrpush (g q)
  | .rrpop q => .rrpop (g q)
  | .slotend q => .slotend (g q)
  | .joinctrFree q => .joinctrFree (g q)
  | .tslotFree q => .tslotFree (g q)
  | .gctlFence q => .gctlFence (g q)
  | .gctlRetrain q => .gctlRetrain (g q)
  | .jobcancel q => .jobcancel (g q)
  | ev => ev
/-- An internal operation or packet for core `a` made one for core `b` (R228). -/
def moveEvent (a b : Nat) (ev : Event) : Event :=
  let c := fun (x : Nat) => if x == a then b else x
  match ev with
  | .releaseArrival ep e => .releaseArrival (c ep) e
  | .framePush ep => .framePush (c ep)
  | .fifoRingMove ep l => .fifoRingMove (c ep) l
  | .framePop ep => .framePop (c ep)
  | .refillComplete ep => .refillComplete (c ep)
  | .trapEntry ep => .trapEntry (c ep)
  | .handlerCommit ep h => .handlerCommit (c ep) h
  | .streamFill ep w j => .streamFill (c ep) w j
  | .streamWrite ep w j => .streamWrite (c ep) w j
  | .variableResultWriteback ep w f u v fl p => .variableResultWriteback (c ep) w f u v fl p
  | .accessLeavesQueue ep i => .accessLeavesQueue (c ep) i
  | .handleEntryRead ep w x i => .handleEntryRead (c ep) w x i
  | .coreAnswer ep x n => .coreAnswer (c ep) x n
  | .solicitScan ep x q => .solicitScan (c ep) x q
  | .epochMarkApply ep m => .epochMarkApply (c ep) m
  | .tileReserve m => .tileReserve { m with src := c m.src, dst := c m.dst }
  | .tileCommit m => .tileCommit { m with src := c m.src, dst := c m.dst }
  | .tileCommitArrival m st sv => .tileCommitArrival { m with src := c m.src, dst := c m.dst } st sv
  | .load x => .load { x with owner := c x.owner }
  | .store x => .store { x with owner := c x.owner }
  | .atomic x => .atomic { x with owner := c x.owner }
  | .data x l p => .data { x with core := c x.core } l p
  | .arm q => .arm { q with owner := c q.owner }
  | .armack q r => .armack { q with rel := { q.rel with srcEp := c q.rel.srcEp } } r
  | .pull r => .pull { r with srcEp := c r.srcEp }
  | .record r ws => .record { r with dst := c r.dst } ws
  | .release r => .release { r with dst := c r.dst }
  | .active m => .active { m with dst := c m.dst }
  | .delivery m st => .delivery { m with src := c m.src } st
  | .copyAcceptance q t => .copyAcceptance { q with src := c q.src } t
  | .copyDeferral q => .copyDeferral { q with src := c q.src }
  | .copyReady ep e => .copyReady (c ep) e
  | .bedrockAnswer q k => .bedrockAnswer { q with src := c q.src } k
  | .dequePush ep x =>
    .dequePush (c ep) (if ep == a && x.rel.srcEp == a then { x with rel := { x.rel with srcEp := b } } else x)
  | .joinMessage m => .joinMessage { m with core := c m.core }
  | .stealRequest t v => .stealRequest (c t) (c v)
  | .stealGrant t v x => .stealGrant (c t) (c v) x
  | .stealAttempt ep => .stealAttempt (c ep)
  | .barrierContribution q => .barrierContribution { q with core := c q.core }
  | ev => mapWin (fun q => { q with ep := c q.ep }) ev

/-- `FORWARD_PACKET` (R228): the message unit of a vacated core sends a packet that has come to it on to the core that its forwarding
entry names. -/
def execForwardPacket (k : Nat) (s : State) : Out :=
  .next (match s.net[k]? with
    | none => s
    | some m =>
      let c := s.core m.dst
      if c.code != 3 || !bitOf c.fwd 63 || m.ch != .eject then s
      else
        let d := fld c.fwd 0 12
        { s with net := s.net.set k { m with
            dst := d, rt := routerOf m.dst, ch := .inject, since := s.now, wait := 0, ev := moveEvent m.dst d m.ev } })

/-- Whether a tile move that names a core is under way (R361). -/
def State.tileMoving (s : State) (ep : Nat) : Bool :=
  let names := fun (ev : Event) => match ev with
    | .tileReserve t => t.src == ep || t.dst == ep
    | .tileCommit t => t.src == ep || t.dst == ep
    | .tileCommitArrival t _ _ => t.src == ep || t.dst == ep
    | _ => false
  let leaves := fun (q : QEnt) => match q.item with | .release _ evs => evs.any (fun e => names e.2.2.2) | _ => false
  (s.port ep).dir.any (fun t => t.2.st != 1) || s.net.any (fun m => names m.ev) || s.cores.any (fun p => p.2.oq.any leaves)
/-- Whether the stream of a migrating core is complete (R227, R330, R361): no result outstanding, nothing in its outbound queue, copy
FIFO or unbound streams, no tile moving, no formed pass or drain of its slice, and no census under way at the destination. -/
def State.streamDone (s : State) (ep dst : Nat) : Bool :=
  let c := s.core ep
  let a := s.arr (epGeode ep)
  let k := ep % 8
  c.wins.toList.all (fun f => f.outs.isEmpty) && c.oq.isEmpty && c.copy.fifo.isEmpty && c.closing.isEmpty
    && !s.tileMoving ep && !s.tileMoving dst && (s.port dst).rows.isEmpty
    && (isMemCore ep || (!a.passes.any (fun p => p.state ≤ 5 && p.mask.getLsbD k)
      && !a.allDrains.any (fun d => d.members.any (fun m => m.core == k)) && !a.zeros.any (fun z => z.core == k)))

/-- The rows of a frame placed at the destination (R227, R270): in banks that are free there, or in its spill reserve with no groups
yet. `img` holds the lanes of its 32 registers. -/
def State.placeRows (s : State) (ep w : Nat) (img : List (List Half)) : State :=
  let f := s.frame ep w
  let need := ceilDiv f.nLanes 16
  let ch := s.chooseGroups ep w false need 32 (Choice.mk [] [] [])
  if f.nLanes == 0 then s
  else if ch.marked.isEmpty && need ≤ ch.chosen.length then
    let s := ch.chosen.foldl (fun t x => t.claimBank ep w x) s
    let gm := ch.chosen.foldl (fun n g => n + 2 ^ g) 0
    let s := s.modFrame ep w (fun f => { f with spilled := false, vlen := setFld (setFld f.vlen 16 16 gm) 33 1 0 })
    (List.range 32).foldl (fun u r => u.vwrite ep w (BitVec.ofNat 5 r) (img.getD r [])) s
  else
    let gm := if need ≤ ch.chosen.length then ch.chosen.foldl (fun n g => n + 2 ^ g) 0 else 0
    let s := s.modFrame ep w (fun f => { f with spilled := true, vlen := setFld (setFld f.vlen 16 16 gm) 33 1 0 })
    (List.range 32).foldl (fun u r => u.vwrite ep w (BitVec.ofNat 5 r) (img.getD r [])) s

/-- The bytes of a core's LM in place of another's (R227). -/
def State.copyLm (s : State) (a b : Nat) : State :=
  let lo := lmKey a 0 / 8; let hi := lmKey b 0 / 8; let n := 2 ^ 16
  { s with
    mem := memMove s.mem (lmKey a 0) (lmKey b 0) (2 ^ 19)
    bad := s.bad.filter (fun w => w < hi || hi + n ≤ w) ++ (s.bad.filter (fun w => lo ≤ w && w < lo + n)).map (fun w => w - lo + hi) }

/-- The context of core `a` at core `d` (R227): windows, ceilings, claims, busy bits, handlers, directory, FIFOs, deque, joins, copy
barriers and counts. What configures core `d` stays. -/
def Core.carried (c d : Core) : Core :=
  let sum := fun (x y : Vector Nat 16) => x.zipWith (fun p q => (p + q) % 2 ^ 32) y
  { d with
    wins := c.wins.map (fun f => { f with vlen := setFld f.vlen 16 16 0, spilling := false }), ceiling := c.ceiling, claims := c.claims, recbusy := c.recbusy, handlers := c.handlers
    census := { c.census with held := [] }, copy := c.copy, closing := []
    spawn := { c.spawn with victims := [], steal := d.spawn.steal, lfsr := d.spawn.lfsr, granted := d.spawn.granted, received := d.spawn.received }
    leaf := { d.leaf with sent := sum c.leaf.sent d.leaf.sent, recv := sum c.leaf.recv d.leaf.recv } }
/-- What a vacated core keeps (R228): its configuration and its forwarding entry. -/
def Core.vacate (c : Core) (d : Nat) : Core :=
  { c with
    code := 3, fwd := BitVec.ofNat 64 (2 ^ 63 + d), wins := Vector.replicate 8 Frame.free, mig := none, push := []
    ceiling := Vector.replicate 64 0, claims := [], recbusy := 0, handlers := Vector.replicate 64 Handler.empty
    census := CensusPort.reset, copy := CopyPort.reset, monitors := []
    fifo := Vector.replicate 8 [], ring := Vector.replicate 8 [], ringHead := Vector.replicate 8 0
    spawn := { SpawnUnit.reset with cfg := c.spawn.cfg, steal := c.spawn.steal, lfsr := c.spawn.lfsr, granted := c.spawn.granted, received := c.spawn.received }
    leaf := { c.leaf with sent := Vector.replicate 16 0, recv := Vector.replicate 16 0 } }

/-- A monitor sampled again at the destination; one whose record moved names the destination for the pull (R228). It keeps its index where
that is free there, and waits as an arm request does while all 16 are taken. -/
def State.armAgain (s : State) (a d : Nat) (x : Monitor) : State :=
  let c := fun (k : Nat) => if k == a then d else k
  let q := { x.q with owner := d, rel := { x.q.rel with srcEp := c x.q.rel.srcEp, dst := c x.q.rel.dst } }
  let used := (s.core d).monitors.map (fun m => m.idx)
  if s.armHoldsLm d q then s.sendRelease d q.rel
  else match (x.idx :: List.range 16).find? (fun k => !used.contains k) with
    | none => s.send 0 q.rel.srcEp d (.arm q)
    | some k => s.modCore d (fun c => { c with monitors := c.monitors ++ [Monitor.mk k q] })
/-- The top frame of a core goes on in the state it has. -/
def State.goOn (s : State) (ep : Nat) : State :=
  match (s.core ep).top with
  | none => s
  | some w => s.resume ep w (s.frame ep w).st

/-- A migrating core's context moved to its destination (R227, R228, R330, R361): the source is VACATED with its forwarding entry,
monitors are sampled again, held solicits are scanned, and the completion release is sent. -/
def State.moveCore (s : State) (ep : Nat) (m : Migration) : State :=
  let c := s.core ep
  let d := m.dst
  let rows := (List.range 8).map (fun w => if (c.win w).nLanes == 0 then [] else (List.range 32).map (fun r => s.vread ep w (BitVec.ofNat 5 r)))
  let ents := (List.range 8).map (fun p => (vget [] c.fifo p).map (fun e => (e, false))
    ++ (vget [] c.ring p).zipIdx.map (fun x => s.ringEntry ep p x.2 x.1))
  let s := s.copyLm ep d
  let s := s.setCore d (c.carried (s.core d))
  let s := s.setCore ep (c.vacate d)
  let s := if isMemCore ep then s
    else (s.modGeode (epGeode ep) (fun g => { g with
        banks := g.banks.filter (fun b => b.core != ep % 8)
        array := { g.array with cmask := g.array.cmask &&& ~~~(BitVec.ofNat 8 (2 ^ (ep % 8))) } })).refreshBorrow (epGeode ep)
  let s := if isMemCore ep then s else s.arrayKick (epGeode ep)
  let s := (List.range 8).foldl (fun t w => t.placeRows d w (rows.getD w [])) s
  let s := ents.foldl (fun t l => l.foldl (fun u x => if x.2 then u.entryLost d x.1 else u.queueEntry d x.1) t) s
  let s := { s with net := s.net.map (fun (x : Msg) => if x.cls == 4 then { x with ev := moveEvent ep d x.ev } else x) }
  let s := s.modGuest (fun g => { g with tlbops := g.tlbops.map (fun o => ({ o.1 with ep := if o.1.ep == ep then d else o.1.ep }, o.2)) })
  let s := c.monitors.foldl (fun t x => t.armAgain ep d x) s
  let s := s.scanHeld d c.census.held
  let w0 := s.lmWord d (0x7C000 + 64 * m.rel.recIdx.toNat); let w1 := s.lmWord d (0x7C000 + 64 * m.rel.recIdx.toNat + 8)
  let r := { m.rel with
    prio := BitVec.ofNat 3 (fld w0 0 3), asid := BitVec.ofNat 16 (fld w1 48 16), gen := BitVec.ofNat 16 (fld w1 32 16) }
  let s := (s.modCore d (fun k => { k with recbusy := k.recbusy ||| BitVec.ofNat 256 (2 ^ r.recIdx.toNat) })).countSent d r.asid
  let s := s.sendRelease d (relDone r (if m.lost then 2 else 0) 0)
  (((s.uncover d 8).goOn d).select d).answerKick d

/-- `MIGRATION_COMMIT` (R227): the context is at the destination in one step, once the core's streams are done. -/
def execMigrationCommit (ep : Nat) (s : State) : Out :=
  let s := s.settle ep
  let s := if (s.core ep).code == 2 then s.loseReserves ep else s
  let c := s.core ep
  .next (match c.mig with
    | none => s
    | some m =>
      if c.code != 2 then s
      else if !s.streamDone ep m.dst then s.later (.migrationCommit ep)
      else s.moveCore ep m)

end Sys2Proof.Machine
end

