-- ==== Sys2Proof/Machine/Crypto.lean ====
section
/-! DEFINITION. The checks and digests of boot and attestation (16_host_port.md R513; 17_package.md R523): CRC-32, SHA-256 and ECDSA
over P-256 with SHA-256. The spec names the three by their standards alone: their constants are those of IEEE 802.3, FIPS 180-4 and
FIPS 186-4 (PRESUMED; log entry 85). -/

namespace Sys2Proof.Machine

/-! ## CRC-32 -/

/-- One bit of the CRC-32 register, least significant bit first. -/
def crcBit (c : Nat) : Nat := if c % 2 == 1 then (c / 2) ^^^ 0xEDB88320 else c / 2
/-- CRC-32 of bytes. -/
def crc32 (l : List Byte) : Nat :=
  (l.foldl (fun c b => (List.range 8).foldl (fun c _ => crcBit c) (c ^^^ b.toNat)) 0xFFFFFFFF) ^^^ 0xFFFFFFFF

/-! ## SHA-256 -/

/-- A 32-bit word turned right. -/
def ror32 (x n : Nat) : Nat := x / 2 ^ n + x % 2 ^ n * 2 ^ (32 - n)
/-- The bytes of a number, the most significant first. -/
def bytesBE (n x : Nat) : List Byte := (toBytes n x).reverse
/-- The number that bytes are, the most significant first. -/
def ofBytesBE (l : List Byte) : Nat := ofBytes l.reverse
/-- The first 32 constants of the rounds. -/
def shaK1 : List Nat := [
  0x428A2F98, 0x71374491, 0xB5C0FBCF, 0xE9B5DBA5, 0x3956C25B, 0x59F111F1, 0x923F82A4, 0xAB1C5ED5,
  0xD807AA98, 0x12835B01, 0x243185BE, 0x550C7DC3, 0x72BE5D74, 0x80DEB1FE, 0x9BDC06A7, 0xC19BF174,
  0xE49B69C1, 0xEFBE4786, 0x0FC19DC6, 0x240CA1CC, 0x2DE92C6F, 0x4A7484AA, 0x5CB0A9DC, 0x76F988DA,
  0x983E5152, 0xA831C66D, 0xB00327C8, 0xBF597FC7, 0xC6E00BF3, 0xD5A79147, 0x06CA6351, 0x14292967]
/-- The other 32. -/
def shaK2 : List Nat := [
  0x27B70A85, 0x2E1B2138, 0x4D2C6DFC, 0x53380D13, 0x650A7354, 0x766A0ABB, 0x81C2C92E, 0x92722C85,
  0xA2BFE8A1, 0xA81A664B, 0xC24B8B70, 0xC76C51A3, 0xD192E819, 0xD6990624, 0xF40E3585, 0x106AA070,
  0x19A4C116, 0x1E376C08, 0x2748774C, 0x34B0BCB5, 0x391C0CB3, 0x4ED8AA4A, 0x5B9CCA4F, 0x682E6FF3,
  0x748F82EE, 0x78A5636F, 0x84C87814, 0x8CC70208, 0x90BEFFFA, 0xA4506CEB, 0xBEF9A3F7, 0xC67178F2]
/-- The chaining value that a digest starts from. -/
def shaInit : List Nat := [0x6A09E667, 0xBB67AE85, 0x3C6EF372, 0xA54FF53A, 0x510E527F, 0x9B05688C, 0x1F83D9AB, 0x5BE0CD19]
/-- The next word of a schedule, held with its newest word first. -/
def shaNext (w : List Nat) : Nat :=
  let a := w.getD 1 0; let b := w.getD 14 0
  let s1 := ror32 a 17 ^^^ ror32 a 19 ^^^ a / 2 ^ 10
  let s0 := ror32 b 7 ^^^ ror32 b 18 ^^^ b / 2 ^ 3
  (s1 + w.getD 6 0 + s0 + w.getD 15 0) % 2 ^ 32
/-- The 64 words of a block's schedule, in order. -/
def shaSchedule (b : List Byte) : List Nat :=
  let w := ((List.range 16).map (fun k => ofBytesBE ((b.drop (4 * k)).take 4))).reverse
  ((List.range 48).foldl (fun w _ => shaNext w :: w) w).reverse
/-- One round: `p` is a word of the schedule and the round's constant. -/
def shaRound (h : List Nat) (p : Nat × Nat) : List Nat :=
  match h with
  | [a, b, c, d, e, f, g, x] =>
    let t1 := x + (ror32 e 6 ^^^ ror32 e 11 ^^^ ror32 e 25) + ((e &&& f) ^^^ ((2 ^ 32 - 1 - e) &&& g)) + p.1 + p.2
    let t2 := (ror32 a 2 ^^^ ror32 a 13 ^^^ ror32 a 22) + ((a &&& b) ^^^ (a &&& c) ^^^ (b &&& c))
    [(t1 + t2) % 2 ^ 32, a, b, c, (d + t1) % 2 ^ 32, e, f, g]
  | h => h
/-- A block taken into the chaining value. -/
def shaBlock (h : List Nat) (b : List Byte) : List Nat :=
  (h.zip (((shaSchedule b).zip (shaK1 ++ shaK2)).foldl shaRound h)).map (fun p => (p.1 + p.2) % 2 ^ 32)
/-- SHA-256 of bytes: 32 bytes. -/
def sha256 (l : List Byte) : List Byte :=
  let m := l ++ [0x80] ++ List.replicate ((119 - l.length % 64) % 64) 0 ++ bytesBE 8 (8 * l.length)
  (((List.range (m.length / 64)).map (fun k => (m.drop (64 * k)).take 64)).foldl shaBlock shaInit).flatMap (bytesBE 4)

/-! ## ECDSA over P-256 -/

/-- The prime of the field. -/
def p256P : Nat := 0xFFFFFFFF00000001000000000000000000000000FFFFFFFFFFFFFFFFFFFFFFFF
/-- The order of the base point. -/
def p256N : Nat := 0xFFFFFFFF00000000FFFFFFFFFFFFFFFFBCE6FAADA7179E84F3B9CAC2FC632551
/-- The coefficient b of the curve; a is -3. -/
def p256B : Nat := 0x5AC635D8AA3A93E7B3EBBD55769886BC651D06B0CC53B0F63BCE3C3E27D2604B
/-- The base point, in Jacobian coordinates. -/
def p256G : Nat × Nat × Nat :=
  (0x6B17D1F2E12C4247F8BCE6E563A440F277037D812DEB33A0F4A13945D898C296,
    0x4FE342E2FE1A7F9B8EE7EB4A7C0F9E162BCE33576B315ECECBB6406837BF51F5, 1)
/-- Difference modulo the prime. -/
def subP (a b : Nat) : Nat := (a + p256P - b) % p256P
/-- A point doubled; z = 0 is the point at infinity. -/
def ecDouble (q : Nat × Nat × Nat) : Nat × Nat × Nat :=
  let (x, y, z) := q
  let zz := z * z % p256P; let yy := y * y % p256P
  let m := 3 * (subP x zz * ((x + zz) % p256P) % p256P) % p256P
  let t := 4 * (x * yy % p256P) % p256P
  let x' := subP (m * m % p256P) (2 * t % p256P)
  (x', subP (m * subP t x' % p256P) (8 * (yy * yy % p256P) % p256P), 2 * (y * z % p256P) % p256P)
/-- The sum of two points. -/
def ecAdd (a b : Nat × Nat × Nat) : Nat × Nat × Nat :=
  if a.2.2 == 0 then b else if b.2.2 == 0 then a
  else
    let (x1, y1, z1) := a; let (x2, y2, z2) := b
    let zz1 := z1 * z1 % p256P; let zz2 := z2 * z2 % p256P
    let u1 := x1 * zz2 % p256P; let u2 := x2 * zz1 % p256P
    let s1 := y1 * (zz2 * z2 % p256P) % p256P; let s2 := y2 * (zz1 * z1 % p256P) % p256P
    let h := subP u2 u1; let r := subP s2 s1
    if h == 0 then (if r == 0 then ecDouble a else (1, 1, 0))
    else
      let hh := h * h % p256P; let hhh := h * hh % p256P; let v := u1 * hh % p256P
      let x' := subP (subP (r * r % p256P) hhh) (2 * v % p256P)
      (x', subP (r * subP v x' % p256P) (s1 * hhh % p256P), h * (z1 * z2 % p256P) % p256P)
/-- The sum of two multiples of points. -/
def ecSum (u v : Nat) (a b : Nat × Nat × Nat) : Nat × Nat × Nat :=
  let ab := ecAdd a b
  (List.range 256).foldl (fun t k =>
    let t := ecDouble t
    match u.testBit (255 - k), v.testBit (255 - k) with
    | true, true => ecAdd t ab
    | true, false => ecAdd t a
    | false, true => ecAdd t b
    | false, false => t) (1, 1, 0)
/-- A power modulo the order, by whose order less 2 a number is inverted. -/
def invN (x : Nat) : Nat :=
  (List.range 256).foldl (fun t k => let t := t * t % p256N; if (p256N - 2).testBit (255 - k) then t * x % p256N else t) 1
/-- Whether 64 bytes are a point of the curve. -/
def keyPoint (k : List Byte) : Option (Nat × Nat) :=
  let x := ofBytesBE (k.take 32); let y := ofBytesBE (k.drop 32)
  if k.length == 64 && x < p256P && y < p256P && y * y % p256P == (x * x * x + (p256P - 3) * x + p256B) % p256P then some (x, y) else none
/-- Whether a signature (r, s) of bytes is valid under a public key, both of 64 bytes. -/
def ecdsaOk (key bytes sig : List Byte) : Bool :=
  let r := ofBytesBE (sig.take 32); let s := ofBytesBE (sig.drop 32)
  match keyPoint key with
  | none => false
  | some (x, y) =>
    if sig.length != 64 || r == 0 || p256N ≤ r || s == 0 || p256N ≤ s then false
    else
      let w := invN s
      let q := ecSum (ofBytesBE (sha256 bytes) * w % p256N) (r * w % p256N) p256G (x, y, 1)
      let zz := q.2.2 * q.2.2 % p256P
      q.2.2 != 0 && (q.1 == r * zz % p256P || (r + p256N < p256P && q.1 == (r + p256N) * zz % p256P))

end Sys2Proof.Machine
end

