-- ==== Sys2Proof/Machine/Package.lean ====
section
/-! DEFINITION. The module: reset and boot, the device id, power and temperature, scrubbing, attestation (16_host_port.md
R510-R516; 17_package.md R518-R524). -/

namespace Sys2Proof.Machine

/-- The state with the package changed. -/
def State.modPkg (s : State) (k : Package → Package) : State := { s with pkg := k s.pkg }

/-! ## Boot (R510-R515) -/

/-- The bytes of an image or of the configuration table. -/
def Image.bytes (i : Image) : List Byte := i.segs.flatMap (fun g => g.2)
/-- Whether an image or the configuration table verifies (R513): the hash of its key is the fused one, its signature, over its bytes, is
valid, and its IMGSEQ is not below the fused minimum. What a signature covers the spec does not say (DESIGN CHOICE; log entry 86). -/
def Image.ok (i : Image) (f : Flash) : Bool := sha256 i.key == f.keyHash && ecdsaOk i.key i.bytes i.sig && f.minSeq ≤ i.imgseq
/-- The public key whose hash is fused, from the headers in flash; a marker copy holds none of its own (DESIGN CHOICE; log entry 86). -/
def Flash.key (f : Flash) : List Byte := (([f.imageA, f.imageB, f.config.header].map Image.key).find? (fun k => sha256 k == f.keyHash)).getD []
/-- What a marker copy says, when it verifies (R513): its magic and zero bytes, its CRC and its signature are right. -/
def Flash.marker (f : Flash) (b : List Byte) : Option Marker :=
  let slot := ofBytes ((b.drop 12).take 1)
  if b.length == 128 && ofBytes (b.take 8) == 0x4D524B && slot < 2 && ((b.drop 13).take 47).all (fun x => x == 0)
      && ofBytes ((b.drop 60).take 4) == crc32 (b.take 60) && ecdsaOk f.key (b.take 64) (b.drop 64) then
    some (Marker.mk (ofBytes ((b.drop 8).take 4)) slot)
  else none
/-- The image of a slot. -/
def Flash.image (f : Flash) (slot : Nat) : Image := if slot == 0 then f.imageA else f.imageB
/-- The verified marker copies, the one that boot prefers first (R514). -/
def Flash.markers (f : Flash) : List Marker :=
  match f.marker f.marker0, f.marker f.marker1 with
  | some a, some b =>
    let d := ahead b.seq a.seq
    let second : Bool := if d == 0 then a.slot != b.slot && (f.image b.slot).imgseq < (f.image a.slot).imgseq else d < 2 ^ 31
    if second then [b, a] else [a, b]
  | a, b => a.toList ++ b.toList
/-- The marker whose slot boots, or BOOTERR (R514). -/
def Flash.choose (f : Flash) : Sum Marker Nat :=
  match f.markers with
  | [] => .inr 1
  | l => match l.find? (fun m => (f.image m.slot).ok f) with
    | some m => .inl m
    | none => .inr 2
/-- Whether the configuration table verifies (R510, R512). -/
def Flash.configOk (f : Flash) : Bool :=
  f.config.header.ok f && f.config.cols.length == 4
    && f.config.cols.all (fun c => c.1 < 8 && 1 ≤ c.2.2 && c.2.2 ≤ 4 && c.2.1 + c.2.2 ≤ 16)
/-- SLABCOL of a table's columns (R512). -/
def slabcolOf (l : List (Nat × Nat × Nat)) : Word :=
  BitVec.ofNat 64 ((List.range 4).foldl (fun n k => let c := l.getD k (7, 0, 2); n + ((c.2.2 - 1) * 64 + c.2.1 * 4) * 2 ^ (8 * k)) 0)
/-- COLS of a table's columns (R512). -/
def colsOf (l : List (Nat × Nat × Nat)) : Word :=
  BitVec.ofNat 64 ((List.range 4).foldl (fun n k => n + (l.getD k (7, 0, 2)).1 * 2 ^ (4 * k)) 0)
/-- Every task core and memory core. -/
def everyCore : List Nat := List.range 4096 ++ (List.range 4).flatMap (fun sl => (List.range 32).map (memCoreEp sl))
/-- The map of the firmware column's geodes (R511). -/
def State.columnMap (s : State) : BitVec 512 := BitVec.ofNat 512 (((List.range 512).filter s.fwGeode).foldl (fun n g => n + 2 ^ g) 0)
/-- What boot writes into a core (R510, R511). -/
def State.bootCore (s : State) (map : BitVec 512) (route trap : Word) (starve : Nat) (ep : Nat) : State :=
  let off : Bool := epClass ep == 0 && !s.pkg.flash.geoen.getLsbD (epGeode ep)
  s.modCore ep (fun c => { c with
    fwmap := map, fwhmask := BitVec.ofNat 64 (2 ^ 63), feroute := route, trapvec := trap, starve := BitVec.ofNat 64 starve
    noplace := s.firmware ep, code := if off then 5 else 0 })
/-- Every enabled bedrock group OPEN, and those that fuses disable neither OPEN nor SEALED (R383, R515; log entry 66). -/
def State.bootGroups (s : State) (off : BitVec 64) : State :=
  ((List.range 64).filter off.getLsbD).foldl (fun t k => t.modGroup (k / 16) (k % 16) (fun g => { g with st := 3, disabled := true })) s
/-- The registers of R511 written from a configuration. -/
def State.bootRegs (s : State) (c : ConfigTable) (trap : Word) : State :=
  let s := s.modPkg (fun p => { p with slabcol := slabcolOf c.cols, cols := colsOf c.cols })
  let map := s.columnMap
  let route := BitVec.ofNat 64 (2 ^ 63 + c.feroute)
  let s := s.modPkg (fun p => { p with portmap := map })
  let s := s.modFe (fun f => { f with quantum := c.quantum, fecore := c.feroute, roles := c.roles })
  let s := s.bootGroups s.pkg.flash.bedoff
  let s := everyCore.foldl (fun t ep => t.bootCore map route trap c.starve ep) s
  (List.range 4).foldl (fun t k => t.modGraph k (fun g => { g with feroute := route })) s
/-- Boot fails (R499). -/
def State.bootFail (s : State) (err : Nat) : State := s.modFe (fun f => { f with boot := 4, booterr := err })
/-- The module at a conventional reset: every register at its reset value; what flash, fuses and memories hold stays. -/
def State.resetModule (s : State) : State :=
  { State.reset with
    now := s.now, turn := s.turn, agenda := s.agenda, fv := s.fv, uid := s.uid, outbox := s.outbox, mem := s.mem, bad := s.bad
    pkg := { Package.reset with flash := s.pkg.flash } }
/-- The Fjarlink ports trained and their routing tables set (R515 step 5, R517). -/
def State.bootPorts (s : State) (f : Flash) : State :=
  (s.modPkg (fun p => { p with regionrt := f.regionrt, localrt := f.localrt })).modFe (fun x => { x with links := f.links })
/-- The image copied to its code space in DRAM (R515); a part outside populated DRAM is left out. -/
def State.placeImage (s : State) (segs : List (Nat × List Byte)) : State :=
  segs.foldl (fun t g => if paPopulated g.1 && paPopulated (g.1 + g.2.length - 1) then
    t.poke (dramKey g.1) g.2 else t) s
/-- The module after a conventional reset (R487, R499): the boot ROM runs, and the socket of a guest chiplet that is present trains. -/
def State.romStart (s : State) : State :=
  let s := s.resetModule.modFe (fun f => { f with boot := 1 })
  if s.pkg.flash.guest then s.modGuest (fun g => { g with state := 1, en := true }) else s
/-- Boot from the ROM on (R514, R515): the image is chosen and copied, the configuration taken, the registers written, the ports trained;
boot waits for a device id where the configuration fixes none, and for the socket of a guest chiplet. -/
def State.bootRom (s : State) : State :=
  let f := s.pkg.flash
  match f.choose with
    | .inr err => s.bootFail err
    | .inl m =>
      let img := f.image m.slot
      let cfg := if f.configOk then f.config else ConfigTable.default
      let s := s.modFe (fun x => { x with bslot := m.slot, markerSeq := m.seq, cfgdef := !f.configOk, fwversion := img.version, boot := 2 })
      let s := s.placeImage img.segs
      let s := (s.bootRegs cfg img.trapvec).bootPorts f
      if img.faults then s.bootFail 3
      else
        let s := match cfg.fixedId with
          | some d => { s with devId := d, didv := true }
          | none => s
        s.bootReady
/-- `MODULE_RESET` (R515): a reset, after which the ROM boots the module; where the ROM runs already, it goes on. -/
def execModuleReset (s : State) : Out :=
  .next (if s.fe.boot == 1 && !s.net.any (fun m => m.ev == .moduleReset) then s.bootRom
    else s.romStart.later .moduleReset)

/-! ## What firmware writes after boot (R514, R517; log entry 42) -/

/-- The bytes of a marker copy. -/
def Flash.copy (f : Flash) (c : Nat) : List Byte := if c == 0 then f.marker0 else f.marker1
/-- Whether a marker copy verifies with this SEQ. -/
def Flash.holds (f : Flash) (c seq : Nat) : Bool := match f.marker (f.copy c) with
  | some m => m.seq == seq
  | none => false
/-- The copy that an update writes next: the one that does not hold the highest SEQ, or copy 0 when both hold it (R514 steps 3, 4). -/
def Flash.nextCopy (f : Flash) (seq : Nat) : Nat := if f.holds 0 seq && !f.holds 1 seq then 1 else 0
/-- Whether the update sequence may leave a marker copy with these bytes, `m` preferred so far and `active` booted: SEQ S + 1 and the
other slot, whose image verifies (step 3); SEQ S and the slot of the copy that holds it (step 4); or bytes that fail (a power loss). -/
def Flash.mayMark (f : Flash) (m : Marker) (active : Nat) (b : List Byte) : Bool :=
  match f.marker b with
  | none => true
  | some n => (n.seq == (m.seq + 1) % 2 ^ 32 && n.slot != active && (f.image n.slot).ok f) || n == m
/-- Flash after a write of an update (R514): only the slot that the active marker does not name, and only the copy whose turn it is. -/
def Flash.update (f : Flash) (active : Nat) (w : FirmwareWrite) : Flash :=
  match w with
  | .image slot img => if slot == active || 1 < slot then f else if slot == 0 then { f with imageA := img } else { f with imageB := img }
  | .marker c b => match f.markers with
    | [] => f
    | m :: _ => if c == f.nextCopy m.seq && f.mayMark m active b then
        (if c == 0 then { f with marker0 := b } else { f with marker1 := b })
      else f
  | .region _ _ => f
  | .locals _ _ => f
/-- Whether a port holds a packet, or one on its way to it, for a device whose route is in question (R517). -/
def State.portHolds (s : State) (port : Nat) (uses : Nat → Bool) : Bool :=
  s.net.any (fun m => m.cls != 4 && m.dst == fjPlace + port && match m.ev with
    | .fjarlinkPacket _ p => uses (fjTo s.srcDev p).toNat
    | _ => false)
/-- Firmware, which runs once BOOT is 3, writes flash by the update sequence (R514), or a routing entry while its old port holds no
packet that the entry routes (R517); any other write is not made. -/
def State.firmwareWrite (s : State) (w : FirmwareWrite) : State :=
  let p := s.pkg
  let own := s.devId.toNat / 1024
  if s.fe.boot != 3 then s
  else match w with
    | .region i k =>
      if 4096 ≤ i || 32 ≤ k || s.portHolds (p.regionrt.get 31 i) (fun d => d / 1024 == i && i != own) then s
      else s.modPkg (fun p => { p with regionrt := p.regionrt.put i k })
    | .locals i k =>
      if 1024 ≤ i || 32 ≤ k || s.portHolds (p.localrt.get 31 i) (fun d => d / 1024 == own && d % 1024 == i) then s
      else s.modPkg (fun p => { p with localrt := p.localrt.put i k })
    | _ => s.modPkg (fun p => { p with flash := p.flash.update s.fe.bslot w })

/-- `DEVICE_ID_ASSIGN` (R516): boot goes on (R515). -/
def execDeviceIdAssign (id : BitVec 22) (s : State) : Out :=
  .next (if s.didv then s else { s with devId := id, didv := true }.bootReady)

/-! ## Power, temperature, errors (R519-R522) -/

/-- THROT after an evaluation (R521). -/
def nextThrot (cap watts temp t : Nat) : Nat :=
  if cap < watts || 95 ≤ temp then Nat.min 12 (t + 1)
  else if 100 * watts < 95 * cap && temp < 90 then t - 1 else t
/-- The module trips (R519): every engine stops until a conventional reset. -/
def State.trip (s : State) : State := (s.modPkg (fun p => { p with tripped := true })).machineCheck 0 110
/-- `THROTTLE_EVALUATION` (R519, R521): at 110 °C the module trips. -/
def execThrottleEvaluation (watts temp die : Nat) (s : State) : Out :=
  let s := s.modPkg (fun p => { p with
    pwrnow := watts % 4096, temp := temp % 256, die := die % 256, throt := nextThrot p.pwrcap (watts % 4096) (temp % 256) p.throt })
  .next (if 110 ≤ temp % 256 then s.trip else s)
/-- `THERMAL_TRIP` (R519). -/
def execThermalTrip (s : State) : Out := .next s.trip
/-- `LM_SCRUB` (R522): the correctable errors that a scrub of LM finds are corrected in place and counted. -/
def execLmScrub (_ep corrected : Nat) (s : State) : Out := .next (s.modPkg (fun p => { p with cecnt := (p.cecnt + corrected) % 2 ^ 64 }))

/-! ## Attestation (R523) -/

/-- An SPDM response leaves: its code, its content, and `n` bytes the spec does not state. -/
def State.spdm (s : State) (code : Nat) (b : List Byte) (n : Nat) : State :=
  let (x, s) := s.freeBytes n
  s.out (.spdm code (b ++ x))
/-- `GET_VERSION` (R523). -/
def execGetVersion (s : State) : Out := .next (s.spdm 0x04 [0x13] 0)
/-- `GET_CAPABILITIES` (R523): its flags are CERT, CHAL and signed MEAS of SPDM 1.3 and no other, so that there are no sessions, key
exchange or mutual authentication (PRESUMED, log entry 85); the rest the spec does not state. -/
def execGetCapabilities (s : State) : Out := .next (s.spdm 0x61 (toBytes 4 0x16) 12)
/-- `NEGOTIATE_ALGORITHMS` (R523): ECDSA P-256 and SHA-256 by their bits of SPDM 1.3 (PRESUMED, log entry 85); the rest the spec does
not state. -/
def execNegotiateAlgorithms (s : State) : Out := .next (s.spdm 0x63 (toBytes 4 0x10 ++ toBytes 4 1) 24)
/-- `GET_DIGESTS` (R523): the SHA-256 of the certificate chain. -/
def execGetDigests (s : State) : Out := .next (s.spdm 0x01 (sha256 s.pkg.flash.certs) 0)
/-- `GET_CERTIFICATE` (R523). -/
def execGetCertificate (off n : Nat) (s : State) : Out := .next (s.spdm 0x02 ((s.pkg.flash.certs.drop off).take n) 0)
/-- `CHALLENGE` (R523): signed over the nonce. -/
def execChallenge (nonce : List Byte) (s : State) : Out := .next (s.spdm 0x03 nonce 64)
/-- A measurement (R523): the SHA-256 of the booted image, that of the configuration table, the marker SEQ and BSLOT. -/
def State.measurement (s : State) (k : Nat) : List Byte :=
  match k with
  | 1 => sha256 (s.pkg.flash.image s.fe.bslot).bytes
  | 2 => sha256 s.pkg.flash.config.header.bytes
  | 3 => toBytes 4 s.fe.markerSeq ++ toBytes 1 s.fe.bslot
  | _ => []
/-- `GET_MEASUREMENTS` (R523): one measurement, or, with index 255, all; signed over the nonce. -/
def execGetMeasurements (index : Nat) (nonce : List Byte) (s : State) : Out :=
  let l := if index == 255 then [1, 2, 3] else [index]
  .next (s.spdm 0x60 (l.flatMap s.measurement ++ nonce) 64)

end Sys2Proof.Machine
end

