-- ==== Sys2Proof/Machine/Csr.lean ====
section
/-! DEFINITION. CSR instructions (05_task_core.md R181-R183, 02_bundles.md R64-R66) and the flag OR tree of a geode
(03_numbers.md R92). -/

namespace Sys2Proof.Machine

/-- The windows live on a geode's task cores. -/
def State.geodeFrames (s : State) (g : Nat) : List Frame :=
  (List.range 8).flatMap (fun k => ((List.range 8).map (fun w => s.frame (8 * g + k) w)).filter (fun f => f.st != .free))
/-- `GFLAGS` of a module geode (R92). -/
def State.gflags (s : State) (g : Nat) : Word :=
  let live := (s.geodeFrames g).foldl (fun (a : Word) f => a ||| (f.fcsr &&& 31) ||| (if bitOf f.fcsr 8 then 32 else 0)) 0
  (((s.geode g).sticky.setWidth 64) <<< 8) ||| live
/-- `BRSCHED` (R387): the schedule counts units of 10 ns. -/
def State.brsched (s : State) : Word := BitVec.ofNat 64 (s.sched / 4000 % 2 ^ 16 * 2 ^ 32 + s.sched % 4000)

/-- Whether R64 lists a CSR number for the frame's mode (R65). -/
def csrOk (fm : Bool) (n : Nat) : Bool :=
  (1 ≤ n && n ≤ 6) || n == 8 || (0x20 ≤ n && n ≤ 0x3F) || (fm && (n == 0x100 || n == 0x101 || n == 0x102 || n == 0x103
    || n == 0x110 || n == 0x111 || n == 0x112))
/-- Whether a CSR is one of the probes of R378. -/
def csrProbe (n : Nat) : Bool := n == 8 || (0x20 ≤ n && n ≤ 0x3F)
/-- Whether a CSR has RW fields (R64). -/
def csrRw (n : Nat) : Bool := n == 1 || n == 0x100 || n == 0x101 || n == 0x102 || n == 0x110 || n == 0x111 || n == 0x112

/-- A CSR as the issuing frame reads it at issue (R41, R64). In a trap frame the trap CSRs name the trapped frame's
(R217). A memory core has no geode, and its `GFLAGS` is a free value (log entry 6). -/
def State.csrRead (s : State) (n : Nat) : Word :=
  let f := s.cf
  let tf := if f.trapFrame then (((List.range 7).reverse.map (s.frame s.iss.ep)).find? (fun t => t.st == .trapped)).getD f else f
  match n with
  | 0x001 => f.fcsr
  | 0x002 => BitVec.ofNat 64 (f.level.toNat + (if f.fm then 8 else 0))
  | 0x003 => BitVec.ofNat 64 ((maxLevel s.cc.top s.cc.claimCeil).getD 0)
  | 0x004 => if f.fm then 0 else f.asid.setWidth 64
  | 0x005 => f.vlen
  | 0x006 => 0x01000000
  | 0x008 => s.brsched
  | 0x100 => tf.ecause
  | 0x101 => tf.eval
  | 0x102 => tf.epc
  | 0x103 => if isMemCore s.iss.ep then Config.freeWord s.fv else s.gflags (epGeode s.iss.ep)
  | 0x110 => f.sawctl
  | 0x111 => f.sawaddr
  | 0x112 => f.sawdata
  | _ => BitVec.ofNat 64 ((s.engine (copyEp (epSlab s.iss.ep) (n - 0x20))).wm % 2 ^ 48)

/-- The checks of a CSR instruction: R65, and R378 in a deterministic launch. -/
def State.csrCheck (s : State) (n : Nat) (reads : Bool) (go : State → State) : State :=
  if !csrOk s.cf.fm n then s.illegalC
  else if s.det && reads && csrProbe n then s.raise 51 0
  else go (if n == 0x103 && isMemCore s.iss.ep then { s with fv := s.fv + 1 } else s)
/-- A CSR written, a result of latency 2 (R183); a CSR with no RW field takes none. -/
def State.csrPut (s : State) (n : BitVec 12) (v : Word) : State :=
  if csrRw n.toNat then s.fixed (.csr n) (.word v) 0 2 else s

/-- `CSRRW` (R182); with rd = 0 it does not read. -/
def execCsrrw (csr : BitVec 12) (rs1 rd : Reg) (s : State) : Out :=
  .next (s.csrCheck csr.toNat (rd != 0) (fun t => (t.fixedX rd (s.csrRead csr.toNat) 2).csrPut csr (s.xr rs1)))
/-- `CSRRS` (R182); with rs1 = 0 it writes nothing. -/
def execCsrrs (csr : BitVec 12) (rs1 rd : Reg) (s : State) : Out :=
  .next (s.csrCheck csr.toNat true (fun t =>
    let old := s.csrRead csr.toNat
    let t := t.fixedX rd old 2
    if rs1 == 0 then t else t.csrPut csr (old ||| s.xr rs1)))
/-- `CSRRC` (R182); with rs1 = 0 it writes nothing. -/
def execCsrrc (csr : BitVec 12) (rs1 rd : Reg) (s : State) : Out :=
  .next (s.csrCheck csr.toNat true (fun t =>
    let old := s.csrRead csr.toNat
    let t := t.fixedX rd old 2
    if rs1 == 0 then t else t.csrPut csr (old &&& ~~~(s.xr rs1))))

end Sys2Proof.Machine
end

