-- ==== Sys2Proof/Machine/Packet.lean ====
section
/-! DEFINITION. Packets as the network carries them (07_message_unit.md R232-R236, R248; 10 to 16: the KIND tables): KIND, length
in flits, the 16-byte header, and the payload layouts that the spec states. -/

namespace Sys2Proof.Machine

/-! ## KIND and length -/

/-- KIND of a packet (R234, R355, R391, R400, R450, R468, R509); 0 for an event that no packet carries. -/
def evKind : Event → Nat
  | .load _ => 0x01
  | .store a => if a.part == 2 && !coreEp a.core && epClass a.core != 2 then 0x17 else 0x02  -- a barrier's result (R355)
  | .atomic _ => 0x03
  | .arm _ => 0x04
  | .pull _ => 0x05
  | .active _ => 0x06
  | .data a _ _ => match a.op with | .load _ => 0x01 | .store _ => 0x02 | .pf => 0x01 | .cmo _ _ _ => 0x02 | _ => 0x03
  | .armack _ _ => 0x04
  | .record _ _ => 0x05
  | .delivery _ _ => 0x06
  | .release _ => 0x01
  | .hostAccessRequest a => match a.op with | .store _ => 0x02 | _ => 0x01
  | .solicitRequest _ => 0x10
  | .solicitScan _ _ _ => 0x11
  | .coreAnswer _ _ _ => 0x12
  | .answerFold _ _ _ _ => 0x12
  | .epochMarkApply _ _ => 0x13
  | .tileReserve _ => 0x14
  | .tileCommitArrival _ _ _ => 0x14
  | .tileCommit _ => 0x15
  | .barrierContribution _ => 0x16
  | .copyRequest _ => 0x20
  | .copyAcceptance _ _ => 0x21
  | .copyDeferral _ => 0x22
  | .copyReady _ _ => 0x23
  | .slotWrite _ _ _ _ _ _ _ => 0x24
  | .slotWriteAck _ _ _ => 0x25
  | .bedrockRequest _ => 0x26
  | .bedrockAnswer _ _ => 0x27
  | .carveoutUpdate _ _ _ _ _ => 0x28
  | .carveoutAck _ => 0x29
  | .rds _ => 0x30
  | .rdo _ => 0x31
  | .upg _ => 0x32
  | .wb _ => 0x33
  | .rangeClaim _ => 0x34
  | .claimwrite _ => 0x35
  | .claimend _ => 0x36
  | .snoop _ _ _ _ _ => 0x37
  | .cmo _ => 0x38
  | .coherentData _ _ _ _ => 0x39
  | .homeAck _ _ => 0x3A
  | .snpresp _ _ _ _ _ _ _ _ _ => 0x3B
  | .homeRetry _ => 0x3C
  | .graphStart _ _ _ _ => 0x40
  | .graphGo _ _ _ => 0x40
  | .nodeDone _ _ st _ => if st == 2 || st == 3 then 0x45 else 0x41  -- FKILL and LOST reports are faults (R439, R455)
  | .token _ _ _ _ _ => 0x42
  | .instanceEnd _ _ _ => 0x44
  | .cancelWalkStep _ _ _ _ _ _ _ _ => 0x43
  | .firingCompletion _ _ _ => 0x45
  | .dequePush _ _ => 0x50
  | .pushAck _ => 0x51
  | .joinMessage _ => 0x52
  | .stealRequest _ _ => 0x53
  | .stealGrant _ _ _ => 0x54
  | .terminationWave _ => 0x55
  | .waveAnswer _ _ _ _ _ => 0x56
  | .terminationReport _ => 0x57
  | .guestSubmission _ => 0x58
  | .doorbellEvent _ _ _ => 0x60
  | .queueControlEvent _ _ _ => 0x61
  | .queueRead _ => 0x62
  | .queueData _ _ _ _ => 0x63
  | .completionWrite _ _ _ _ => 0x64
  | .completionAck _ => 0x65
  | .registerStateUpdate _ => 0x66
  | .fjarlinkPacket _ p => match p with
    | .active _ => 0x06
    | .release _ => 0x01
    | .pull _ => 0x05
    | .record _ _ => 0x05
    | .delivery _ _ => 0x06
    | .census _ _ => 0x18
    | .censusAnswer _ _ _ _ => 0x19
    | .linkRequest q => match q.op with | .read => 0x30 | .write _ => 0x35 | .claim => 0x34 | .claimEnd => 0x36
    | .linkAnswer _ _ b => if b.isEmpty then 0x3A else 0x39
    | .other _ k _ _ _ _ => k
  | _ => 0

/-- The flits of an active message (R248). -/
def activeFlits (m : ActiveMsg) : Nat := ceilDiv (24 + 8 * m.body.length) 64

/-- The flits of a census answer: header, counts and flags in 32 bytes, then the payload (R232, R341, R347). -/
def answerFlits (a : Option Answer) : Nat := ceilDiv (32 + 4 * (match a with | some x => x.payload.length | none => 0)) 64

/-- The length of a packet in flits (R232, R236, R248, R391, R400, R468, R509). A length that the spec does not state is the least that
holds the contents (log entry 62). -/
def evFlits : Event → Nat
  | .active m => activeFlits m
  | .record _ _ => 2
  | .solicitRequest _ => 2
  | .solicitScan _ _ _ => 2
  | .answerFold _ _ _ a => answerFlits a
  | .copyRequest _ => 2
  | .slotWrite _ _ _ _ _ _ _ => 3
  | .wb _ => 3
  | .claimwrite _ => 3
  | .coherentData _ _ _ _ => 3
  | .snpresp _ _ _ _ d _ _ _ _ => if d.isSome then 3 else 1
  | .dequePush _ _ => 3
  | .stealGrant _ _ c => if c.isSome then 3 else 1
  | .waveAnswer _ _ _ _ _ => 3
  | .guestSubmission _ => 2
  | .queueData _ _ _ _ => 2
  | .fjarlinkPacket _ p => match p with
    | .active m => activeFlits m
    | .record _ _ => 2
    | .census _ _ => 2
    | .censusAnswer _ _ _ a => answerFlits a
    | .linkRequest q => match q.op with | .write _ => 3 | _ => 1
    | .linkAnswer _ _ b => if b.isEmpty then 1 else 3
    | _ => 1
  | _ => 1

/-! ## The header (R233) -/

/-- A packet's header (R233). -/
structure Header where
  dstEp : Nat
  dstDev : BitVec 22
  xd : Bool
  cls : Nat
  len : Nat
  prio : Nat
  fm : Bool
  net : Nat
  kind : Nat
  srcEp : Nat
  srcDev : BitVec 22
  asid : BitVec 16
  tag : Nat
  deriving DecidableEq, Repr

/-- The two header words (R233). -/
def Header.words (h : Header) : List Word :=
  [BitVec.ofNat 64 (h.dstEp % 2 ^ 14 * 2 ^ 50 + h.dstDev.toNat * 2 ^ 28 + bitNat h.xd * 2 ^ 27 + h.cls % 4 * 2 ^ 25 + h.len % 8 * 2 ^ 22
      + h.prio % 8 * 2 ^ 19 + bitNat h.fm * 2 ^ 18 + h.net % 4 * 2 ^ 16 + h.kind % 256 * 2 ^ 8),
    BitVec.ofNat 64 (h.srcEp % 2 ^ 14 * 2 ^ 50 + h.srcDev.toNat * 2 ^ 28 + h.asid.toNat * 2 ^ 12 + h.tag % 2 ^ 12)]

/-- Priority, mode, ASID and TAG that a packet's header holds: of the frame or request that causes it, 0 for what no frame and no request
of an engine causes. The TAG of a request is the model's own name of it, modulo 2^12 (log entry 62). -/
def evSender : Event → Nat × Bool × BitVec 16 × Nat
  | .load a => ofAccess a
  | .store a => ofAccess a
  | .atomic a => ofAccess a
  | .data a _ _ => ofAccess a
  | .hostAccessRequest a => ofAccess a
  | .arm q => ofRelease q.rel
  | .armack q _ => ofRelease q.rel
  | .pull r => ofRelease r
  | .record r _ => ofRelease r
  | .release r => ofRelease r
  | .active m => ofActive m
  | .delivery m _ => ofActive m
  | .fjarlinkPacket _ p => match p with
    | .active m => ofActive m
    | .delivery m _ => ofActive m
    | .release r => ofRelease r
    | .pull r => ofRelease r
    | .record r _ => ofRelease r
    | .linkRequest q => (0, false, q.asid, q.tid)
    | .linkAnswer q _ _ => (0, false, q.asid, q.tid)
    | .census _ q => (0, false, q.asid, q.id)
    | _ => (0, false, 0, 0)
  | .copyRequest q => ofCopy q
  | .copyAcceptance q _ => ofCopy q
  | .copyDeferral q => ofCopy q
  | .bedrockRequest q => (q.win, q.fm, q.asid, q.id)
  | .bedrockAnswer q _ => (q.win, q.fm, q.asid, q.id)
  | .solicitRequest q => (q.win, 6 ≤ q.win, q.asid, q.id)
  | .solicitScan _ _ q => (q.win, 6 ≤ q.win, q.asid, q.id)
  | .barrierContribution q => (q.win, 6 ≤ q.win, q.asid, 0)
  | .tileReserve m => (m.prio, 6 ≤ m.prio, m.asid, m.id)
  | .tileCommit m => (m.prio, 6 ≤ m.prio, m.asid, m.id)
  | .tileCommitArrival m _ _ => (m.prio, 6 ≤ m.prio, m.asid, m.id)
  | .rds q => ofHome q
  | .rdo q => ofHome q
  | .upg q => ofHome q
  | .wb q => ofHome q
  | .rangeClaim q => ofHome q
  | .claimwrite q => ofHome q
  | .claimend q => ofHome q
  | .cmo q => ofHome q
  | .coherentData q _ _ _ => ofHome q
  | .homeAck q _ => ofHome q
  | .homeRetry q => ofHome q
  | .snoop _ _ _ _ b => (b.1, 6 ≤ b.1, b.2, 0)
  | .snpresp _ _ _ _ _ _ _ _ b => (b.1, 6 ≤ b.1, b.2, 0)
  | .dequePush _ c => ofRelease c.rel
  | .pushAck r => ofRelease r
  | .stealGrant _ _ (some c) => ofRelease c.rel
  | .joinMessage m => (m.prio, 6 ≤ m.prio, m.asid, 0)
  | .guestSubmission j => (j.prio, 6 ≤ j.prio, j.asid, 0)
  | _ => (0, false, 0, 0)
where
  /-- Of an access. -/
  ofAccess (a : Access) : Nat × Bool × BitVec 16 × Nat := (a.prio, 6 ≤ a.prio, a.asid, a.id)
  /-- Of a release. -/
  ofRelease (r : Release) : Nat × Bool × BitVec 16 × Nat := (r.prio.toNat, r.fm, r.asid, r.recIdx.toNat)
  /-- Of a copy request. -/
  ofCopy (q : CopyReq) : Nat × Bool × BitVec 16 × Nat := (q.prio, 6 ≤ q.prio, q.asid, q.tag)
  /-- Of a request to a home. -/
  ofHome (q : HomeReq) : Nat × Bool × BitVec 16 × Nat := (q.prio, 6 ≤ q.prio, q.asid, q.tag)
  /-- Of an active message. -/
  ofActive (m : ActiveMsg) : Nat × Bool × BitVec 16 × Nat := (m.prio.toNat, m.fm, m.asid, m.uid.getD 0)

/-- The instance slot that a packet between graph engines is about, whose ASID its header holds. -/
def evSlot : Event → Option Nat
  | .graphStart k _ _ _ => some k
  | .graphGo k _ _ => some k
  | .nodeDone f _ _ _ => some f.slot
  | .token _ k _ _ _ => some k
  | .instanceEnd k _ _ => some k
  | .firingCompletion f _ _ => some f.slot
  | .cancelWalkStep k _ _ _ _ _ _ _ => some k
  | _ => none

/-- NET of a packet (R233, R239): zero until a router has moved it; 1 on VC1, 2 on escape. -/
def Chan.net : Chan → Nat
  | .link _ vc => vc
  | _ => 0
/-- The agent and device that a packet between devices comes from. -/
def fjFrom (ep : Nat) (own : BitVec 22) : FjPacket → Nat × BitVec 22
  | .active m => (m.src, m.srcDev)
  | .release r => (r.srcEp, r.srcDev)
  | .pull r => (r.dst, r.dstDev.getD own)
  | .record r _ => (r.srcEp, r.srcDev)
  | .delivery m _ => (m.dst, m.dstDev.getD own)
  | .census _ q => (agentEp 0 3, (q.origin.map Prod.fst).getD own)
  | .censusAnswer _ _ _ _ => (agentEp 0 3, own)
  | .linkRequest q => (q.engine, q.srcDev)
  | .linkAnswer q _ _ => (ep, q.dev)
  | .other _ _ d e _ _ => (e, d)
/-- The class of a packet between devices. -/
def fjCls : FjPacket → Nat
  | .release _ => 2
  | .record _ _ => 1
  | .delivery _ _ => 1
  | .censusAnswer _ _ _ _ => 1
  | .linkAnswer _ _ _ => 1
  | .other c _ _ _ _ _ => c
  | _ => 0
/-- The header of a packet in flight. -/
def State.header (s : State) (m : Msg) : Header :=
  let (prio, fm, asid0, tag) := evSender m.ev
  let asid := match evSlot m.ev with | some k => (s.inst k).asid | none => asid0
  let dev := match m.ev with | .fjarlinkPacket _ p => fjTo s.srcDev p | _ => s.srcDev
  let xd := dev != s.srcDev
  let dst := match m.ev with
    | .fjarlinkPacket _ p => (match p with
      | .active a => a.dst
      | .release r => r.dst
      | .pull r => r.srcEp
      | .record r _ => r.dst
      | .delivery a _ => a.src
      | .linkRequest q => q.engine
      | .linkAnswer q _ _ => q.engine
      | .other _ _ _ _ _ d => d
      | _ => m.dst)
    | _ => m.dst
  let src := match m.ev with | .fjarlinkPacket _ p => fjFrom m.src s.srcDev p | _ => (m.src, s.srcDev)
  Header.mk dst (if xd then dev else 0) xd m.cls (evFlits m.ev - 1) prio fm m.ch.net (evKind m.ev) src.1 src.2 asid tag

/-! ## Payloads (R235, R236, R248) -/

/-- The code of an `AMO` (R53). -/
def amoCode : AmoOp → Nat
  | .add => 0 | .andOp => 1 | .orOp => 2 | .xorOp => 3 | .min => 4 | .max => 5 | .minn => 6 | .maxn => 7 | .swap => 8 | .fadd => 9
/-- The size code of an access of `n` bytes (R49). -/
def sizeCode (n : Nat) : Nat := if n ≤ 1 then 0 else if n ≤ 2 then 1 else if n ≤ 4 then 2 else 3
/-- The code of an atomic's ordering (R53). -/
def ordCode : MemOrd → Nat
  | .rlx => 0 | .acq => 1 | .rel => 2 | .ar => 3
/-- Bytes of a list padded with zeros to a length. -/
def padTo (n : Nat) (l : List Byte) : List Byte := (l ++ List.replicate n 0).take n
/-- The bytes of words. -/
def wordBytes (l : List Word) : List Byte := l.flatMap (fun w => toBytes 8 w.toNat)
/-- The payload of an active message (R248): the control word and the body. -/
def activePayload (m : ActiveMsg) : List Byte := wordBytes (m.control :: m.body)
/-- The payload of a release (R235). -/
def releasePayload (r : Release) : List Byte :=
  wordBytes [BitVec.ofNat 64 (r.gen.toNat * 2 ^ 48 + r.status.toNat * 2 ^ 32 + r.detail.toNat * 2 ^ 16 + r.recIdx.toNat)]
/-- The payload of an `ATOMIC` (R236). -/
def atomicPayload (a : Access) (o : MemOrd) : List Byte :=
  match a.op with
  | .amo op n b => wordBytes [BitVec.ofNat 64 (a.addr + amoCode op * 2 ^ 24 + (if n == 8 then 2 ^ 28 else 0) + ordCode o * 2 ^ 29), b]
  | .cas n e v => wordBytes [BitVec.ofNat 64 (a.addr + 10 * 2 ^ 24 + (if n == 8 then 2 ^ 28 else 0) + ordCode o * 2 ^ 29), v, e]
  | .amog n b => wordBytes [BitVec.ofNat 64 (a.addr + 11 * 2 ^ 24 + (if n == 8 then 2 ^ 28 else 0) + ordCode o * 2 ^ 29), b]
  | _ => []
/-- The payload of a packet after its header, where the spec states its layout. -/
def State.payload (s : State) : Event → Option (List Byte)
  | .load a => some (wordBytes [BitVec.ofNat 64 (a.addr + sizeCode a.op.size * 2 ^ 20)])
  | .store a => match a.op with
    | .store b => some (match a.pair? with
      | some (x, _) => wordBytes [BitVec.ofNat 64 (a.addr + sizeCode x.length * 2 ^ 20 + 2 ^ 22)] ++ padTo 16 b
      | none => wordBytes [BitVec.ofNat 64 (a.addr + sizeCode b.length * 2 ^ 20)] ++ padTo 16 b)
    | _ => none
  | .atomic a => some (atomicPayload a ((s.core a.core).ordOf a.id))
  | .arm q => some (wordBytes [BitVec.ofNat 64 (q.addr + condCode q.cond * 2 ^ 24 + bitNat q.d * 2 ^ 27 + q.rel.recIdx.toNat * 2 ^ 28), q.comparand])
  | .pull r => some (wordBytes [r.recIdx.setWidth 64])
  | .data a b p => match a.op with
    | .store _ => some []
    | _ => some (padTo 16 b ++ wordBytes [BitVec.ofNat 64 (bitNat p)])
  | .armack _ r => some (wordBytes [BitVec.ofNat 64 (bitNat r)])
  | .record _ ws => some (List.replicate 48 0 ++ wordBytes ws)
  | .release r => some (releasePayload r)
  | .active m => some (activePayload m)
  | .fjarlinkPacket _ p => match p with
    | .active m => some (activePayload m)
    | .release r => some (releasePayload r)
    | .pull r => some (wordBytes [r.recIdx.setWidth 64])
    | .record _ ws => some (List.replicate 48 0 ++ wordBytes ws)
    | _ => none
  | _ => none
/-- A packet's bytes as its flits carry them, where its payload is stated: header, payload, zeros. -/
def State.wire (s : State) (m : Msg) : List Byte :=
  match s.payload m.ev with
  | some b => padTo (64 * evFlits m.ev) (wordBytes (s.header m).words ++ b)
  | none => wordBytes (s.header m).words

/-- Whether KIND `k` of a class has a packet (R234 and the tables of the chapters). -/
def kindListed (cls k : Nat) : Bool :=
  match cls with
  | 0 => (1 ≤ k && k ≤ 6) || [0x10, 0x11, 0x13, 0x14, 0x17, 0x18, 0x20, 0x23, 0x24, 0x26, 0x28, 0x50, 0x52, 0x53, 0x55, 0x57,
      0x60, 0x61, 0x62, 0x64, 0x66].contains k || (0x30 ≤ k && k ≤ 0x38) || [0x40, 0x41, 0x42, 0x43, 0x45].contains k || k == 0x58
  | 1 => (1 ≤ k && k ≤ 6) || [0x12, 0x15, 0x16, 0x19, 0x21, 0x22, 0x25, 0x27, 0x29, 0x39, 0x3A, 0x3B, 0x3C, 0x44, 0x51, 0x54, 0x56,
      0x63, 0x65].contains k
  | 2 => k == 1
  | _ => false

end Sys2Proof.Machine
end

