-- ==== Sys2Proof/Machine/Router.lean ====
section
/-! DEFINITION. The slab network's routers (07_message_unit.md R237-R243, R261): the next hop of a packet, virtual channels and their
slots, ejection buffers, and which packet of a buffer goes first. -/

namespace Sys2Proof.Machine

/-! ## Routes (R238, R239) -/

/-- What a packet does next: it leaves the slab network at its endpoint, crosses a bridge to a module geode, or goes to the next router
of a ring. Directions: 0 and 1 the row ring up and down, 2 and 3 the column ring; `cross` says that the link is a dateline. -/
inductive Hop where
  | eject
  | bridge (rt : Nat)
  | ring (dir rt : Nat) (cross : Bool)
  deriving DecidableEq, Repr

/-- The next stop from `a` to `b` on a ring of `n`, the shorter way, the increasing way when both are as long: whether it goes up, the
stop, and whether the link is the dateline. -/
def ringHop (n a b : Nat) : Option (Bool × Nat × Bool) :=
  let up := (b + n - a) % n
  if up == 0 then none
  else if 2 * up ≤ n then some (true, (a + 1) % n, a + 1 == n)
  else some (false, (a + n - 1) % n, a == 0)
/-- The next stop of an escape route, which crosses no dateline. -/
def escHop (a b : Nat) : Option (Bool × Nat × Bool) :=
  if a == b then none else if a < b then some (true, a + 1, false) else some (false, a - 1, false)
/-- The geode of the bridge between two slabs (R237). -/
def bridgeOf (a b : Nat) : Nat := match a ^^^ b with | 1 => 59 | 2 => 60 | _ => 68
/-- The hop on a slab from one module geode toward another: the row ring first, then the column ring. -/
def slabHop (esc : Bool) (rt goal : Nat) : Hop :=
  let base := rt / 128 * 128; let a := rt % 128; let b := goal % 128
  match (if esc then escHop (a % 8) (b % 8) else ringHop 8 (a % 8) (b % 8)) with
  | some (up, c, x) => .ring (if up then 0 else 1) (base + a / 8 * 8 + c) x
  | none => match (if esc then escHop (a / 8) (b / 8) else ringHop 16 (a / 8) (b / 8)) with
    | some (up, r, x) => .ring (if up then 2 else 3) (base + r * 8 + a % 8) x
    | none => .eject
/-- The next hop of a packet, on its dateline route or on its escape route (R238, R239). -/
def Msg.hop (m : Msg) (esc : Bool) : Hop :=
  let goal := if m.dst == fjPlace + 31 then m.rt else routerOf m.dst
  let sl := m.rt / 128
  if goal / 128 == sl then slabHop esc m.rt goal
  else match slabHop esc m.rt (sl * 128 + bridgeOf sl (goal / 128)) with
    | .eject => .bridge (goal / 128 * 128 + bridgeOf sl (goal / 128))
    | h => h
/-- The channel in which a packet makes a ring hop (R239): VC0 as it enters a ring, VC1 from the dateline on; 2 is escape. -/
def Msg.nextVc (m : Msg) (esc : Bool) (dir : Nat) (cross : Bool) : Nat :=
  if esc then 2 else if cross then 1 else match m.ch with
    | .link d vc => if d / 2 == dir / 2 then vc else 0
    | _ => 0

/-! ## Slots (R240, R242) -/

/-- Flits of a packet. -/
def Msg.flits (m : Msg) : Nat := evFlits m.ev
/-- The flits that some packets in flight have. -/
def State.flitsOf (s : State) (p : Msg → Bool) : Nat := ((s.net.filter p).map Msg.flits).foldl (fun a b => a + b) 0
/-- The flits that a channel of a router's input port holds. -/
def State.chanFlits (s : State) (rt dir cls vc : Nat) : Nat := s.flitsOf (fun m => m.cls == cls && m.rt == rt && m.ch == .link dir vc)
/-- The shared slots taken at an input port: what its six dateline channels hold beyond their four reserved slots each. -/
def State.sharedUsed (s : State) (rt dir : Nat) : Nat :=
  ((List.range 3).flatMap (fun c => [s.chanFlits rt dir c 0 - 4, s.chanFlits rt dir c 1 - 4])).foldl (fun a b => a + b) 0
/-- Whether a channel of an input port admits a packet of `n` flits (R240). -/
def State.admits (s : State) (rt dir cls vc n : Nat) : Bool :=
  let used := s.chanFlits rt dir cls vc
  if vc == 2 then used + n ≤ 8 else n ≤ (4 - used) + (8 - s.sharedUsed rt dir)
/-- The flits that an endpoint's ejection buffer of a class holds. -/
def State.ejectFlits (s : State) (ep cls : Nat) : Nat := s.flitsOf (fun m => m.cls == cls && m.dst == ep && m.ch == .eject)
/-- Whether an endpoint's ejection buffer has room for a packet (R242): responses always have. -/
def State.ejectRoom (s : State) (m : Msg) : Bool :=
  !coreEp m.dst || m.cls == 1 || s.ejectFlits m.dst m.cls + m.flits ≤ (if m.cls == 2 then 8 else 16)
/-- Whether a core's outbound response buffer has room for the response to a request (R242); how much it holds is not stated (log
entry 63). -/
def State.responseRoom (s : State) (ep : Nat) : Bool :=
  let n := s.flitsOf (fun m => m.cls == 1 && m.src == ep && m.ch == .inject)
  n == 0 || n ≤ Config.responseRoom

/-- OCCUP of a router (R261): the free dateline and escape slots of the input port that has the fewest. -/
def State.occup (s : State) (rt : Nat) : Word :=
  let free := fun (dir : Nat) =>
    let used := fun (l : List Nat) => ((List.range 3).flatMap (fun c => l.map (fun v => s.chanFlits rt dir c v))).foldl (fun a b => a + b) 0
    (32 - used [0, 1], 24 - used [2])
  let best := (List.range 4).foldl (fun (a : Nat × Nat) d => if (free d).1 + (free d).2 < a.1 + a.2 then free d else a) (32, 24)
  Config.occupWord best.1 best.2

/-! ## Order (R242, R243) -/

/-- Whether two packets are of one class, source and destination. -/
def Msg.triple (m : Msg) : Nat × Nat × Nat := (m.cls, m.src, m.dst)
/-- Whether packet `k` comes first of those of its triple that a test holds for. -/
def State.firstOfTriple (s : State) (k : Nat) (m : Msg) (p : Msg → Bool) : Bool := (s.net.take k).all (fun x => x.triple != m.triple || !p x)
/-- Whether packet `k` is at the head of its buffer: the oldest of its triple to be injected, the oldest of its channel, or the next one
that its endpoint serves: a core takes requests, and releases, in arrival order. -/
def State.atHead (s : State) (k : Nat) (m : Msg) : Bool :=
  match m.ch with
  | .inject => s.firstOfTriple k m (fun x => x.ch == .inject && x.rt == m.rt)
  | .link _ _ => s.net.all (fun x => x.cls != m.cls || x.rt != m.rt || x.ch != m.ch || m.since ≤ x.since)
  | .eject =>
    if coreEp m.dst && m.cls != 1 then
      let same := fun (x : Msg) => x.cls == m.cls && x.dst == m.dst && x.ch == .eject
      (s.net.take k).all (fun x => !same x || m.since < x.since) && s.net.all (fun x => !same x || m.since ≤ x.since)
    else s.firstOfTriple k m (fun x => x.ch == .eject)
/-- Whether a packet at the head of its buffer can make its next hop now (R240, R242). -/
def State.canHop (s : State) (k : Nat) (m : Msg) (esc : Bool) : Bool :=
  match m.hop esc with
  | .eject => s.ejectRoom m && s.firstOfTriple k m (fun x => x.ch != .eject)
  | .bridge _ => true
  | .ring dir rt x => s.admits rt dir m.cls (m.nextVc esc dir x) m.flits
/-- Whether a packet travels on escape, or must from this router on (R241, R243): it has waited 32 cycles, or follows one of its triple
that moved to escape here. -/
def State.escapes (s : State) (m : Msg) : Bool :=
  (match m.ch with | .link _ vc => vc == 2 | _ => false) || 32 ≤ m.wait || (s.geode m.rt).follow.contains m.triple

end Sys2Proof.Machine
end

