-- ==== Sys2Proof/Machine/Window.lean ====
section
/-! DEFINITION. The state-access window, what each word of each block reads as (17_package.md R525, R526; R230, R231, R261, R300,
R301, R334, R365, R392, R394, R395, R424, R456, R475, R494, R521). An offset is in bytes, a multiple of 8; `none` is an offset that
the block has not (ERR 2). -/

namespace Sys2Proof.Machine

/-- The index within an array of registers at `base`, `stride` bytes apart, `n` of them, and the offset within the element. -/
def arrIdx (off base stride n : Nat) : Option (Nat × Nat) :=
  if base ≤ off && off < base + stride * n then some ((off - base) / stride, (off - base) % stride) else none

/-- Bits set of a word by index. -/
def bitsWhere (n : Nat) (f : Nat → Bool) : Nat := ((List.range n).filter f).foldl (fun a k => a + 2 ^ k) 0
/-- A word from parts: value and lowest bit. -/
def packW (l : List (Nat × Nat)) : Word := BitVec.ofNat 64 (l.foldl (fun a p => a + p.1 * 2 ^ p.2) 0)

/-- The code of a window's state (R223). -/
def fstateCode : FState → Nat
  | .free => 0
  | .running => 1
  | .parked => 2
  | .preempted => 3
  | .trapped => 4
  | .ending => 5
  | .lost => 6
  | .faulting => 7

/-- FUSTAT (R230). -/
def Core.fustat (c : Core) : Word :=
  let live := bitsWhere 8 (fun w => (c.win w).st != .free)
  let idle := live == 0 && c.claims.isEmpty
  let code := if c.code == 0 && idle && c.noplace then 1 else c.code.toNat
  packW [(live, 8), (bitNat idle, 7), (bitNat c.noplace, 3), (code, 0)]

/-- RRPTR (R424). -/
def TraceRing.ptr (t : TraceRing) : Word :=
  packW [(t.seq % 65536, 32), (bitNat t.diverged, 16), (t.rob.length, 8), (t.entries.length, 0)]

/-- A window block (R231, R301). -/
def State.windowWord (s : State) (ep w off : Nat) : Option Word :=
  let f := s.frame ep w
  let tags := fun (k : Nat) => packW ((List.range 16).map (fun r => (tagCode (vget .raw f.tags (16 * k + r)), 4 * r)))
  let x := fun (n : Nat) => BitVec.ofNat 64 n
  match off with
  | 0x000 => some (packW [(fstateCode f.st, 0), (fstateCode f.remembered, 4), (bitNat f.trapFrame, 7), (f.outs.length % 256, 8)])
  | 0x008 => some f.pc
  | 0x010 => some f.epc
  | 0x018 => some f.ecause
  | 0x020 => some f.eval
  | 0x028 => some f.fcsr
  | 0x030 => some (packW [(f.rel.gen.toNat, 48), (f.asid.toNat, 32), (f.level.toNat, 0)])
  | 0x038 => some (f.record.getD 1 0)
  | 0x040 => some (packW [(f.segEnd, 32), (f.segBase, 0)])
  | 0x400 => some (packW [(f.poisonX.toNat, 0), (f.poisonF.toNat, 32), (f.poisonH.toNat, 48)])
  | 0x500 => some (tags 0)
  | 0x508 => some (tags 1)
  | 0x510 => some (x (bitsWhere 4 (fun j => (f.stream j).bound) + 256 * bitsWhere 4 (fun j => (f.stream j).write)))
  | _ =>
    match arrIdx off 0x100 8 32 with
    | some (r, _) => some (f.getX (BitVec.ofNat 5 r))
    | none => match arrIdx off 0x200 8 16 with
      | some (r, _) => some (f.getF (BitVec.ofNat 5 r))
      | none => match arrIdx off 0x300 32 8 with
        | some (r, o) =>
          let h := f.getH (BitVec.ofNat 3 r)
          some (match o with | 0 => h.base | 8 => h.bound | 16 => h.w2 | _ => h.w3)
        | none => match arrIdx off 0x520 48 4 with
          | some (j, o) =>
            let t := f.stream j
            match o with
            | 0 => some t.w0
            | 8 => some t.w1
            | 16 => some t.w2
            | 24 => some (x (t.pos % 2 ^ 32))
            | 32 => some (x (t.buf.length % 16))
            | _ => none
          | none => none

/-- A monitor of an LM port (R230). -/
def monitorWord (m : Monitor) (k : Nat) : Word :=
  if k == 0 then packW [(1, 63), (condCode m.q.cond, 60), (bitNat m.q.d, 59), (m.q.rel.recIdx.toNat, 51), (m.q.rel.srcEp, 37), (m.q.addr, 0)]
  else m.q.comparand

/-- The slot table of a leaf (R469), two entries a word. -/
def Leaf.tmapWord (l : Leaf) (k : Nat) : Word :=
  packW [((vget 0 l.tmap (2 * k)).toNat, 0), ((vget 0 l.tmap (2 * k + 1)).toNat, 32)]
/-- The counts of a slot at a leaf (R475). -/
def Leaf.countWord (l : Leaf) (k : Nat) : Word := packW [(vget 0 l.recv k % 2 ^ 32, 32), (vget 0 l.sent k % 2 ^ 32, 0)]

/-- The words of a join counter (R475). -/
def joinWord (j : JoinCtr) (k : Nat) : Word :=
  match k with
  | 0 => packW [(j.st, 62), (bitNat j.flt, 61), (j.jscope, 58), (j.op, 54), (j.asid.toNat, 32), (j.pending % 2 ^ 16, 0)]
  | 1 => j.value
  | 2 => j.word
  | _ => 0

/-- CPYFIFO (R394): the requests in the copy FIFO, and whether a `CPY` is stalled. -/
def Core.cpyFifo (c : Core) : Word :=
  let stalled := match c.top with | some w => (c.win w).st == .parked && (c.win w).hold == .copyFifo | none => false
  packW [(Nat.min 4 c.copy.fifo.length, 0), (bitNat stalled, 3)]
/-- CPOLLROT (R394). -/
def Core.cpollRot (c : Core) : Word := BitVec.ofNat 64 (c.copy.rot % 32)
/-- CBAR (R394): COUNT, DONE and FLT of a copy barrier. -/
def CopyBar.word (b : CopyBar) : Word := packW [(b.count % 2 ^ 16, 0), (bitNat b.done, 16), (bitNat b.flt, 17)]
/-- BGROUP (R395): state, transfers begun, B loads reading, owner and whether the group is disabled. -/
def BGroup.word (b : BGroup) : Word :=
  packW [(b.st, 0), (b.begun % 256, 8), (b.loads % 256, 16), (b.owner.toNat, 32), (bitNat b.disabled, 48)]
/-- CARVE (R395): a slice's k, MIN, MAX, and the Pin and other misses of the last interval. -/
def Home.carveWord (h : Home) : Word :=
  packW [(h.carve, 0), (h.carveMin, 8), (h.carveMax, 16), (h.lastPin % 65536, 32), (h.lastOrd % 65536, 48)]
/-- The registers of a frame-unit block below the windows (R230, R394, R424, R475). -/
def State.fuReg (s : State) (ep off : Nat) : Option Word :=
  let c := s.core ep
  let u := c.spawn
  match off with
  | 0x00 => some c.fustat
  | 0x08 => some c.trapvec
  | 0x10 => some c.spregion
  | 0x18 => some c.trapseg
  | 0x20 => some c.ringcfg
  | 0x28 => some c.fwd
  | 0x30 => some c.starve
  | 0x60 => some (packW ((List.range 8).map (fun p => (c.waiting p, 8 * p))))
  | 0x70 => some c.cpyFifo
  | 0x78 => some c.cpollRot
  | 0x80 => some (packW [(Nat.min 64 u.deque.length, 0), (u.deque.length - 64, 16), (u.attempts % 256, 32)])
  | 0x88 => some u.cfg
  | 0x90 => some u.steal
  | 0x98 => some (packW [(u.granted % 2 ^ 32, 32), (u.received % 2 ^ 32, 0)])
  | 0x300 => some (BitVec.ofNat 64 c.claims.length)
  | 0x700 => some c.trace.ctl
  | 0x708 => some c.trace.ptr
  | 0x710 => some 0
  | 0x718 => some 0
  | 0x720 => some 0
  | _ => none

/-- The arrays of a frame-unit block (R230, R394, R424, R475, R205). -/
def State.fuArr (s : State) (ep off : Nat) : Option Word :=
  let c := s.core ep
  match arrIdx off 0x40 8 4, arrIdx off 0xA0 8 8, arrIdx off 0x100 8 64, arrIdx off 0x308 8 8 with
  | some (k, _), _, _, _ => some ((c.recbusy >>> (64 * k)).setWidth 64)
  | _, some (k, _), _, _ => some (c.leaf.tmapWord k)
  | _, _, some (k, _), _ => some (vget 0 c.ceiling k)
  | _, _, _, some (k, _) => some (packW ((List.range 8).map (fun i => (c.claims.getD (8 * k + i) 0, 8 * i))))
  | _, _, _, _ =>
    match arrIdx off 0x400 16 16, arrIdx off 0x500 8 16, arrIdx off 0x600 8 32, arrIdx off 0x800 16 64, arrIdx off 0xC00 8 16 with
    | some (m, o), _, _, _, _ => some (match c.monitors.find? (fun x => x.idx == m) with | some x => monitorWord x (o / 8) | none => 0)
    | _, some (k, _), _, _, _ => some (c.leaf.countWord k)
    | _, _, some (b, _), _, _ => some (vget (CopyBar.mk 0 false false) c.copy.bars b).word
    | _, _, _, some (e, o), _ => some (match c.trace.entries[e]? with | some p => if o == 0 then p.1 else p.2 | none => 0)
    | _, _, _, _, some (m, _) => some (match c.monitors.find? (fun x => x.idx == m) with
        | some x => packW [(x.q.rel.gen.toNat, 48), (x.q.rel.asid.toNat, 32), (x.q.rel.prio.toNat, 0)]
        | none => 0)
    | _, _, _, _, _ =>
      match arrIdx off 0x1000 0x800 8, arrIdx off 0x5000 128 64, arrIdx off 0x7000 32 64, arrIdx off 0x8000 0x1000 8 with
      | some (w, o), _, _, _ => s.windowWord ep w o
      | _, some (e, o), _, _ => some (match c.spawn.deque[e]? with | some d => (childWords d.1).getD (o / 8) 0 | none => 0)
      | _, _, some (j, o), _ => some (joinWord (c.join j) (o / 8))
      | _, _, _, some (p, o) => some (match (vget [] c.fifo p)[o / 128]? with | some e => (entryWords e).getD (o % 128 / 8) 0 | none => 0)
      | _, _, _, _ => none

/-- A word of a frame-unit block: class 0. -/
def State.fuWord (s : State) (ep off : Nat) : Option Word :=
  match s.fuReg ep off with
  | some v => some v
  | none => s.fuArr ep off

/-- A handler entry's words (R261). -/
def handlerWord (h : Handler) (k : Nat) : Word :=
  match k with
  | 0 => h.kind
  | 1 => packW [(h.asid.toNat, 48), (h.state.toNat, 46), (h.head % 64, 40), (h.rxlog2 % 16, 32), (h.rxbase % 2 ^ 32, 0)]
  | 2 => h.busy.setWidth 64
  | _ => if h.state == 1 then 0 else h.staged

/-- A word of a message-unit block: class 1 (R261). -/
def State.muWord (s : State) (ep off : Nat) : Option Word :=
  let c := s.core ep
  match off with
  | 0x00 => some (packW [((c.mail.filter c.awaits).length % 256, 32), (c.queueDepth % 64, 16), (s.ejectFlits ep 2 % 64, 8), (s.ejectFlits ep 0 % 64, 0)])
  | 0x08 => some c.feroute
  | 0x10 => some c.fwhmask
  | 0x18 => some (BitVec.ofNat 64 c.refcnt)
  | _ => match arrIdx off 0x40 8 8, arrIdx off 0x100 32 64 with
    | some (k, _), _ => some ((c.fwmap >>> (64 * k)).setWidth 64)
    | _, some (n, o) => some (handlerWord (vget Handler.empty c.handlers n) (o / 8))
    | _, _ => none

/-- A tile entry's words (R365). LIVE and the move's peer share four bits, and are ORed while the entry moves (log entry 70). -/
def tileWord (t : Tile) (k : Nat) : Word :=
  match k with
  | 0 => t.key
  | 1 => t.kind
  | 2 => t.user
  | 3 => packW [(t.stamp % 65536, 48), (t.asid.toNat, 32), (bitNat t.sv, 31), (t.st, 29), (bitNat t.removed, 28), (t.base, 0)]
  | 4 => packW [(t.len, 32), (t.live % 256, 8)] ||| (if t.st == 1 then 0 else packW [(t.peer % 4096, 0)])
  | _ => 0

/-- A word of a census port's block: class 2 (R365). An open row waits for its responders, or is deferred by an INCOMING entry (R357). -/
def State.portWord (s : State) (ep off : Nat) : Option Word :=
  let p := (s.core ep).census
  let cnt := fun (st : Nat) => (p.dir.filter (fun t => t.2.st == st)).length
  match off with
  | 0x00 => some (packW [(p.dir.length, 0), (cnt 2, 8), (cnt 3, 16), (p.lastEpoch % 65536, 32)])
  | 0x08 => some (BitVec.ofNat 64 (bitsWhere 16 (fun k => p.rows.any (fun r => r.row == k))))
  | 0x2300 => some 0
  | _ => match arrIdx off 0x100 64 128, arrIdx off 0x2100 32 16 with
    | some (n, o), _ => some (match p.dir.find n with | some t => tileWord t (o / 8) | none => 0)
    | _, some (k, o) => some (match p.rows.find? (fun r => r.row == k) with
        | none => 0
        | some r => match o / 8 with
          | 0 => packW [(r.q.id % 65536, 48), (if p.defers r.q then 2 else 1, 0)]
          | 1 => packW [(r.nresp, 0), (r.nmiss, 32)]
          | 2 => packW [(r.nfault, 0), (r.left % 256, 32)]
          | _ => 0)
    | _, _ => none

/-- A word of a vector pool's block: class 3 (R300). -/
def State.poolWord (s : State) (g off : Nat) : Option Word :=
  let gd := s.geode g
  match off with
  | 0x00 => some gd.lquota
  | 0x08 => some (gd.lendlock.setWidth 64)
  | 0x10 => some (packW ((List.range 16).map (fun k => (match s.groupOwner g k with | some c => 8 + c | none => 0, 4 * k))))
  | 0x18 => some (gd.gborrow.setWidth 64)
  | 0x40 => some (BitVec.ofNat 64 gd.spillcnt)
  | 0x48 => some (BitVec.ofNat 64 gd.refillcnt)
  | _ => match arrIdx off 0x20 8 4, arrIdx off 0x100 8 64, arrIdx off 0x10000 8 0x4000 with
    | some (k, _), _, _ => some (packW ((List.range 16).map (fun i =>
        (match gd.banks.find? (fun b => b.group == 4 * k + i / 4 && b.bank == i % 4) with | some b => 8 + b.level | none => 0, 4 * i))))
    | _, some (k, _), _ =>
      let f := s.frame (8 * g + k / 8) (k % 8)
      some (packW [((f.vlen.toNat % 2 ^ 34), 0), (bitNat f.spilled, 34), (bitNat (f.st != .free), 35)])
    | _, _, some (k, _) => some (packW [((gd.rows.get 0 (2 * k)).toNat, 0), ((gd.rows.get 0 (2 * k + 1)).toNat, 32)])
    | _, _, _ => none

/-- A word of a matrix array's block: class 4 (R334). -/
def State.arrayWord (s : State) (g off : Nat) : Option Word :=
  let a := s.arr g
  let x := fun (n : Nat) => BitVec.ofNat 64 n
  match off with
  | 0x000 => some (a.cmask.setWidth 64)
  | 0x028 => some (packW [(a.queuedPasses % 16, 0), (Nat.min 15 a.queuedDrains, 8),
      (match a.running with | some p => p.entry | none => 0, 16), (bitNat a.running.isSome, 19)])
  | 0x500 => some (x a.passcnt)
  | 0x508 => some (x a.preemptcnt)
  | _ => match arrIdx off 0x08 8 4, arrIdx off 0x40 8 8, arrIdx off 0x100 64 8, arrIdx off 0x400 8 16, arrIdx off 0x600 8 32 with
    | some (k, _), _, _, _, _ =>
      let e := a.set k
      some (packW (match e.tag with
        | some (p, asid) => [(1, 63), (p.toNat, 48), (asid.toNat, 32), (e.live.toNat, 8), (e.i32.toNat, 0)]
        | none => [(e.shown.1.toNat, 48), (e.shown.2.toNat, 32), (e.live.toNat, 8), (e.i32.toNat, 0)]))
    | _, some (c, _), _, _, _ =>
      let l := a.regs.filter (fun r => r.core == c)
      some (packW [(l.length % 8, 0), (match l with | r :: _ => r.level.toNat | [] => 0, 8)])
    | _, _, some (e, o), _, _ => some (match a.passes.find? (fun p => p.entry == e) with
        | none => 0
        | some p => match o / 8 with
          | 0 => packW [(p.state, 0), (p.prio, 4), (p.step % 32, 8), (bitsWhere 8 (fun c => p.members.any (fun m => m.core == c)), 16)]
          | 1 => p.word
          | 2 => x (match p.members with | m :: _ => m.asid.toNat | [] => 0)
          | _ => 0)
    | _, _, _, some (k, _), _ => some (packW ((List.range 8).map (fun i => (a.slotState (8 * k + i) + 4 * (a.slot (8 * k + i)).bfmt, 8 * i))))
    | _, _, _, _, some (k, _) => some ((vget 0 (a.set (k / 8)).flags (k % 8)).setWidth 64)
    | _, _, _, _, _ => match arrIdx off 0x10000 8 0x4000, arrIdx off 0x400000 8 0x80000 with
      | some (k, _), _ => some (packW [((a.acc.get 0 (2 * k)).toNat, 0), ((a.acc.get 0 (2 * k + 1)).toNat, 32)])
      | _, some (k, _) => some (memWord s.mem (micaKey g (8 * k)))
      | _, _ => none

/-- A word of a geode router's block: class 5 (R261). -/
def State.routerWord (s : State) (g off : Nat) : Option Word :=
  match off with
  | 0x00 => some (BitVec.ofNat 64 (s.geode g).escxfer)
  | 0x08 => some (BitVec.ofNat 64 (s.geode g).dlcross)
  | 0x10 => some (s.occup g)
  | _ => none

/-- A word of a copy engine's block: class 6 (R392). -/
def State.engineWord (s : State) (ep off : Nat) : Option Word :=
  let e := s.engine ep
  let x := fun (n : Nat) => BitVec.ofNat 64 n
  match off with
  | 0x00 => some (packW [(e.xfers.length % 128, 0), ((e.xfers.filter (fun t => t.active)).length % 8, 8)])
  | 0x08 => some (x (e.wm % 2 ^ 48))
  | 0x10 => some (x (e.nextId % 2 ^ 48))
  | 0x18 => some (x e.bytes)
  | 0x20 => some 0
  | _ => match arrIdx off 0x1000 64 64, arrIdx off 0x2000 32 64 with
    | some (k, o), _ => some (match e.xfers.find? (fun t => t.slot == k) with
        | none => 0
        | some t => match o / 8 with
          | 0 => packW [(if t.active then 2 else 1, 62), (t.id % 2 ^ 48, 0)]
          | 5 => x t.off
          | 6 => packW [(t.q.asid.toNat, 48), (t.q.src % 2 ^ 14, 0)]
          | 7 => 0
          | n => t.q.words.getD (n - 1) 0)
    | _, some (k, o) => some (match e.log.find k with
        | none => 0
        | some f => match o / 8 with
          | 0 => packW [(f.id % 2 ^ 48, 0), (f.kind % 16, 48)]
          | 1 => x f.addr
          | 2 => x f.off
          | _ => f.asid.setWidth 64)
    | _, _ => none

/-- A snoop-filter entry's words (R424); a line with a transaction under way is BUSY (R399). -/
def sfWord (busy : Bool) (e : SfEntry) (k : Nat) : Word :=
  if k == 0 then packW [(1, 63), (if busy then 4 else e.state, 60), (bitNat e.coarse.isSome, 59), (e.line % 2 ^ 52 / 128 * 128, 0)]
  else match e.coarse with
    | some v => packW [(e.owner % 512, 27), (v.toNat, 0)]
    | none => packW [(e.ptrs.length, 36), (e.owner % 512, 27), (e.ptrs.getD 0 0, 0), (e.ptrs.getD 1 0, 9), (e.ptrs.getD 2 0, 18)]

/-- A word of a home agent's block: class 7 (R424). The ways of a set are its entries in order of allocation. -/
def State.homeWord (s : State) (ep off : Nat) : Option Word :=
  let h := s.home ep
  let x := fun (n : Nat) => BitVec.ofNat 64 n
  match off with
  | 0x000 => some (packW [(h.buf.length % 128, 0), (h.claims.length % 512, 16), (h.recallq.length % 128, 32)])
  | 0x008 => some (x h.binvcnt)
  | 0x010 => some (x h.retrycnt)
  | 0x018 => some (x h.snpcnt)
  | 0x100 => some h.trace.ctl
  | 0x108 => some h.trace.ptr
  | 0x110 => some 0
  | 0x118 => some 0
  | 0x120 => some 0
  | _ => match arrIdx off 0x400 16 64, arrIdx off 0x1000 32 256, arrIdx off 0x10000 16 0x10000 with
    | some (e, o), _, _ => some (match h.trace.entries[e]? with | some p => if o == 0 then p.1 else p.2 | none => 0)
    | _, some (c, o), _ => some (match h.claims[c]? with
        | none => 0
        | some r => match o / 8 with
          | 0 => packW [(1, 63), (r.base % 2 ^ 52, 0)]
          | 1 => x r.limit
          | 2 => x r.prog
          | _ => packW [(r.agent % 512, 48), (r.tid % 2 ^ 48, 0)])
    | _, _, some (k, o) => some (match (h.sf.filter (fun e => lineSet e.line == k / 16))[k % 16]? with
        | some e => sfWord (h.busy e.line) e (o / 8)
        | none => 0)
    | _, _, _ => none

/-- A word of a slab's bedrock and carve-out block: class 8 (R395). -/
def State.bedWord (s : State) (sl off : Nat) : Option Word :=
  match arrIdx off 0 8 16, arrIdx off 0x100 8 32 with
  | some (g, _), _ => some (s.group sl g).word
  | _, some (c, _) => some (s.home (agentEp sl (0x20 + c))).carveWord
  | _, _ => none

/-- A word of a graph engine's block: class 9 (R456). -/
def State.graphWord (s : State) (k off : Nat) : Option Word :=
  let g := s.graph k
  let x := fun (n : Nat) => BitVec.ofNat 64 n
  match off with
  | 0x00 => some (packW [(g.recs.length % 512, 0), ((g.ready.filter (fun r => (s.inst r.1).st == 1 && (s.inst r.1).gen == r.2.1 && ((s.inst r.1).ent r.2.2).st == 1)).length % 512, 16), (g.events.length % 128, 32)])
  | 0x08 => some g.feroute
  | 0x10 => some (x g.stale)
  | 0x18 => some (x g.wdogcnt)
  | 0x20 => some g.nodesel
  | 0x48 => some 0
  | _ => match arrIdx off 0x28 8 4, arrIdx off 0x50 8 8, arrIdx off 0x100 64 256, arrIdx off 0x8000 8 256, arrIdx off 0x9000 8 16 with
    | some (i, _), _, _, _, _ =>
      let t := s.inst (fld g.nodesel 0 8); let n := fld g.nodesel 16 12
      some (if t.st == 0 || t.nn ≤ n || nSlab (t.nrec n) != k then 0 else (entWords t.gen (t.ent n)).getD i 0)
    | _, some (i, _), _, _, _ => some (g.leaf.tmapWord i)
    | _, _, some (sl, o), _, _ =>
      let t := s.inst sl
      some (if slotMaster sl != k then 0 else match o / 8 with
        | 0 => packW [(t.st, 0), (t.asid.toNat, 32), (t.gen % 65536, 48)]
        | 7 => 0
        | n => if t.st == 0 then 0 else t.words.getD (n - 1) 0)
    | _, _, _, some (r, _), _ => some (match g.recs.find r with
        | some q => packW [(1, 63), (q.target % 4096, 0), (q.node % 4096, 16), (q.slot % 256, 32)]
        | none => 0)
    | _, _, _, _, some (i, _) => some (g.leaf.countWord i)
    | _, _, _, _, _ => none

/-- A word of a census slot (R365): its state of R362, the request and the answers received. The state and the asker share bits and are ORed
(log entry 70). -/
def censusWord (st : Nat) (q : Solicit) (id answers k : Nat) : Word :=
  match k with
  | 0 => packW [(id % 65536, 48), (q.asid.toNat, 32)] ||| BitVec.ofNat 64 (q.asker % 4096) ||| BitVec.ofNat 64 st
  | 1 => q.words.getD 2 0
  | 2 => q.words.getD 3 0
  | 3 => q.words.getD 4 0
  | 4 => BitVec.ofNat 64 answers
  | _ => 0
/-- The queued request that a slot of the module root shows, the oldest in the lowest slot that no LIVE or WRITING census has (R362; log
entry 70). -/
def CensusRoot.queuedAt (r : CensusRoot) (k : Nat) : Option Solicit :=
  r.queue[(List.range k).countP (fun i => !r.slots.any (fun c => c.slot == i))]?
/-- A word of a census tree node's block: class 10 (R365). -/
def State.treeWord (s : State) (n off : Nat) : Option Word :=
  let root := n == 516
  let bars := if n < 512 then 4 else if n < 516 then 8 else 16
  let r := s.census
  match arrIdx off 0x1200 16 bars, off with
  | some (b, o), _ => some (match (s.node n).bars.find? (fun x => x.idx == b) with
      | none => 0
      | some x => if o == 0 then x.word0 ||| packW [(x.asid.toNat, 48)] else BitVec.ofNat 64 x.joined.length)
  | none, 0x1300 => some 0
  | none, off =>
    if !root then none
    else match off, arrIdx off 0x100 64 64 with
      | 0x00, _ => some (BitVec.ofNat 64 (r.nextId % 65536))
      | 0x08, _ => some (BitVec.ofNat 64 (r.queue.length % 64))
      | 0x1100, _ => some 0
      | _, some (k, o) => some (match r.slots.find? (fun c => c.slot == k) with
          | none => (match r.queuedAt k with | some q => censusWord 1 q 0 0 (o / 8) | none => 0)
          | some c =>
            let n := if c.st == 3 then c.roots
              else match (s.node 516).under.find? (fun u => u.id == c.q.id) with | some u => u.got.length | none => 0
            censusWord c.st c.q c.q.id n (o / 8))
      | _, none => none

/-- A word of the termination module root's block: class 11 (R475). -/
def State.termWord (s : State) (off : Nat) : Option Word :=
  match arrIdx off 0x2000 8 16 with
  | some (k, _) =>
    let t := vget TSlot.free s.term.slots k
    some (packW [(t.st, 0), (t.asid.toNat, 32), (t.waves % 65536, 48)])
  | none => none

/-- A word of the guest socket's block: class 12 (R494). The physical page and the ASID of a grant share bits: the page is shown. -/
def State.guestWord (s : State) (off : Nat) : Option Word :=
  let g := s.guest
  let x := fun (n : Nat) => BitVec.ofNat 64 n
  match off with
  | 0x00 => some (packW [(g.state, 0), (g.reason, 8), (g.modules, 16), ((g.jobs.filter (fun j => j.st == 2)).length % 256, 24), (g.grants.length % 65536, 32)])
  | 0x08 => some 0
  | 0x10 => some (x g.cap)
  | 0x18 => some (x (g.draws.headD 0 % 256))
  | 0x20 => some 0
  | 0x28 => some (x g.fencecnt)
  | _ => match arrIdx off 0x1000 32 256, arrIdx off 0x4000 16 4096, arrIdx off 0x20000 32 64 with
    | some (e, o), _, _ => some (match g.jobs.find? (fun j => j.entry == e && j.st != 0) with
        | none => 0
        | some j => match o / 8 with
          | 0 => packW [(j.st, 0), (j.prio, 8), (jobId j, 16), (j.asid.toNat, 32)]
          | 1 => j.words.getD 0 0
          | 2 => j.words.getD 1 0
          | _ => x (j.src % 2 ^ 14))
    | _, some (k, o), _ => some (match g.grants.find? (fun t => t.idx == k) with
        | none => 0
        | some t => if o == 0 then packW [(1, 63), (t.page % 2 ^ 57 / 4096 * 4096, 0)]
          else packW [(t.size % 8, 61), (t.pa % 2 ^ 52 / 4096 * 4096, 0), (bitNat t.atomic, 3), (bitNat t.write, 2)])
    | _, _, some (k, o) => some (match g.faults.find k with
        | none => 0
        | some f => match o / 8 with
          | 0 => packW [(f.job % 65536, 0), (f.kind % 16, 16), (f.asid.toNat, 32)]
          | 1 => f.va
          | _ => 0)
    | _, _, _ => none

/-- A word of the module's block: class 13 (R525, R521). GFLAGS 32 to 35 share their offsets with the four power registers, which are
what a read returns there: only so can every register of R521 be read (DEDUCED; log entry 13). -/
def State.moduleWord (s : State) (off : Nat) : Option Word :=
  match off with
  | 0x00 => some s.asidtab
  | 0x08 => some 0
  | 0x10 => some s.pkg.tlbrange
  | 0x18 => some 0
  | 0x20 => some 0
  | 0x28 => some 0
  | 0x30 => some 0
  | 0x40 => some (BitVec.ofNat 64 s.pkg.cecnt)
  | 0x200 => some (BitVec.ofNat 64 s.pkg.pwrcap)
  | 0x208 => some (BitVec.ofNat 64 s.pkg.pwrnow)
  | 0x210 => some (BitVec.ofNat 64 s.pkg.throt)
  | 0x218 => some (packW [(s.pkg.temp, 0), (s.pkg.die, 8)])
  | _ => match arrIdx off 0x100 8 512 with
    | some (g, _) => some (s.gflags g)
    | none => none

/-! ## The capability list (R25-R30) -/

/-- Whether any group of bedrock is disabled, as a mask of the module (R388). -/
def State.bedDisabled (s : State) : Nat := bitsWhere 64 (fun k => (s.group (k / 16) (k % 16)).disabled)
/-- Enabled geodes of 64 by index (R524). -/
def State.geoenWord (s : State) (k : Nat) : Word := (s.pkg.flash.geoen >>> (64 * k)).setWidth 64
/-- CMASK of eight geodes by index (R524). -/
def State.cmaskWord (s : State) (k : Nat) : Word := packW ((List.range 8).map (fun i => ((s.arr (8 * k + i)).cmask.toNat, 8 * i)))
/-- The ports trained, and the lanes of the narrowest of them (R517). -/
def State.linkWord (s : State) : Word :=
  let l := s.fe.links
  packW [(bitsWhere 18 (fun k => l.any (fun p => p.1 == k)), 0),
    (match l.map (fun p => p.2) with | [] => 0 | a :: r => r.foldl Nat.min a, 32)]
/-- CAP_ID 4, bedrock (R388): GROUPS, GSIZE, WINDOW and SPACING; PERIODNS and WRATE; DISABLED, which is DEG when any bit is set. -/
def State.bedrockRecord (s : State) : Nat × Bool × Bool × List Word :=
  (4, true, s.bedDisabled != 0, [packW [(16, 48), (256, 32), (320, 16), (2500, 0)], packW [(40000, 32), (8000, 0)], BitVec.ofNat 64 s.bedDisabled])
/-- The records of the list: CAP_ID, EN, DEG, body. Their order after the identity record, by CAP_ID, and that no firmware-defined record
follows are the model's choice (DESIGN CHOICE; log entry 83). -/
def State.capRecords (s : State) : List (Nat × Bool × Bool × List Word) :=
  let x := fun (n : Nat) => BitVec.ofNat 64 n
  let v := s.fe.fwversion
  let geo := (List.range 8).map s.geoenWord
  let cms := (List.range 64).map s.cmaskWord
  let g := s.guest
  let fl := s.pkg.flash
  [ (1, true, false, [packW [(0x2140, 48), (0xB0, 40), (v % 2 ^ 32, 0)], packW [(bitNat s.didv, 63), (s.devId.toNat, 0)], fl.serial]),
    (2, true, cms.any (fun w => w != BitVec.allOnes 64) || geo.any (fun w => w != BitVec.allOnes 64), [packW [(4, 8), (8, 0)]] ++ geo ++ cms),
    (3, true, false, [packW [(98304, 32), (256, 16), (16, 8), (12, 0)], 0]),
    s.bedrockRecord,
    (5, true, false, [packW [(4096, 48), (128, 32), (s.fe.quantum % 65536, 16), (2048, 0)]]),
    (6, true, false, [s.pkg.slabcol, s.pkg.cols ||| packW [(s.fe.fecore % 4096, 32)]]),
    (7, !s.fe.links.isEmpty, false, [s.linkWord]),
    (8, g.en, decide (g.bmods < 4) && g.en, [packW [(g.vendor % 65536, 48), (g.part % 65536, 32), (g.jobcred % 256, 16), (g.bmods % 256, 8), (g.watts % 256, 0)],
      packW [(g.state, 0), (g.reason, 8)], 0]),
    (9, true, false, [packW [(64, 48), (48, 32), (16, 16)], packW [(10000, 32), (4352, 0)]]),
    (10, true, false, [x 0x7FFF]),
    (11, true, false, [packW [(0x13, 56), (fl.i3c % 128, 0)]] ++ (List.range 4).map (fun k => x (ofBytes ((fl.idhash.drop (8 * k)).take 8)))) ]
/-- The words of the records one after another, with no gap (DESIGN CHOICE; log entry 83): each NEXT is the offset of the next record, 0 at the last (R26, R29). -/
def capWords : Nat → List (Nat × Bool × Bool × List Word) → List Word
  | _, [] => []
  | off, (id, en, deg, body) :: l =>
    let len := 8 * (body.length + 1)
    packW [(if l.isEmpty then 0 else off + len, 48), (len, 32), (bitNat deg, 25), (bitNat en, 24), (1, 16), (id, 0)] :: body ++ capWords (off + len) l
/-- A word of the capability list (R25): all ones before the end of boot. -/
def State.capWord (s : State) (off : Nat) : Option Word :=
  if 4096 ≤ off then none
  else if s.fe.boot != 3 then some (BitVec.allOnes 64)
  else some ((capWords 0 s.capRecords).getD (off / 8) 0)

/-! ## A word of the window (R525) -/

/-- Whether CLASS and INST name a block. -/
def blockExists (cls i : Nat) : Bool :=
  match cls with
  | 0 => decide (epClass i ≤ 1) && epValid i
  | 1 => decide (epClass i ≤ 1) && epValid i
  | 2 => epClass i == 0
  | 3 => i < 512
  | 4 => i < 512
  | 5 => i < 512
  | 6 => epClass i == 2 && epValid i
  | 7 => epClass i == 3 && decide (0x20 ≤ i % 1024) && decide (i % 1024 < 0x40)
  | 8 => i < 4
  | 9 => i < 4
  | 10 => i ≤ 516
  | _ => i == 0 && decide (cls ≤ 14)

/-- What a word of the window reads as; a disabled core's block reads as zero (R526). -/
def State.winWord (s : State) (cls i off : Nat) : Option Word :=
  if !blockExists cls i then none
  else if cls ≤ 2 && s.disabled i then some 0
  else match cls with
    | 0 => s.fuWord i off
    | 1 => s.muWord i off
    | 2 => s.portWord i off
    | 3 => s.poolWord i off
    | 4 => s.arrayWord i off
    | 5 => s.routerWord i off
    | 6 => s.engineWord i off
    | 7 => s.homeWord i off
    | 8 => s.bedWord i off
    | 9 => s.graphWord i off
    | 10 => s.treeWord i off
    | 11 => s.termWord off
    | 12 => s.guestWord off
    | 13 => s.moduleWord off
    | _ => s.capWord off

end Sys2Proof.Machine
end

