-- ==== Sys2Proof/Machine/WindowOps.lean ====
section
/-! DEFINITION. Operations of the state-access window: reads, writes and commands (17_package.md R525, R526, and the rule of each
register). -/

namespace Sys2Proof.Machine

/-! ## Completion -/

/-- A window operation ends in the frame that started it (R526): BUSY clears, DONE sets, ERR says how it ended, AINC advances OFF. -/
def State.sawEnd (s : State) (q : WinOp) (err : Nat) (data : Option Word) : State :=
  let f := s.frame q.ep q.win
  if f.st == .free || f.fid != q.fid then s
  else
    let ctl := setFld (setFld f.sawctl 10 2 2) 12 4 err
    let addr := if bitOf f.sawctl 3 then setFld f.sawaddr 3 20 (fld f.sawaddr 3 20 + 1) else f.sawaddr
    s.setFrame q.ep q.win { f with sawctl := ctl, sawaddr := addr, sawdata := data.getD f.sawdata }
/-- `SAW_DONE` (R526). -/
def execSawDone (q : WinOp) (err : Nat) (s : State) : Out := .next (s.sawEnd q err none)
/-- The word that a window operation names. -/
def State.opWord (s : State) (q : WinOp) : Option Word := s.winWord (winCls q) (winInst q) (winOff q)
/-- `SAW_READ` (R525, R526): a word that no block has reads as 0 with ERR 2. -/
def execSawRead (q : WinOp) (s : State) : Out :=
  .next (match s.opWord q with
    | none => s.sawEnd q 2 (some 0)
    | some v => { s.sawEnd q 0 (some v) with fv := s.fv + 1 })

/-- What an action on a word of the window does: nothing where the block has no such word (ERR 2) or its core is disabled (ERR 5);
otherwise the action says how it ended. -/
def State.winAct (s : State) (q : WinOp) (act : State → Nat × State) : State :=
  match s.opWord q with
  | none => s.sawEnd q 2 none
  | some _ =>
    if winCls q ≤ 2 && s.disabled (winInst q) then s.sawEnd q 5 none
    else
      let r := act s
      r.2.sawEnd q r.1 none

/-! ## Counters that a read clears (R4) -/

/-- The counter at an RC word set to its reset value. -/
def State.clearRc (s : State) (cls i off : Nat) : State :=
  match cls with
  | 0 => s.modSpawn i (fun u => { u with granted := 0, received := 0 })
  | 1 => s.modCore i (fun c => { c with refcnt := 0 })
  | 3 => s.modGeode i (fun g => if off == 0x40 then { g with spillcnt := 0 } else { g with refillcnt := 0 })
  | 4 => s.modArr i (fun a => if off == 0x500 then { a with passcnt := 0 } else { a with preemptcnt := 0 })
  | 5 => s.modGeode i (fun g => if off == 0 then { g with escxfer := 0 } else { g with dlcross := 0 })
  | 6 => s.modEngine i (fun e => { e with bytes := 0 })
  | 7 => s.modHome i (fun h => if off == 8 then { h with binvcnt := 0 } else if off == 0x10 then { h with retrycnt := 0 } else { h with snpcnt := 0 })
  | 9 => s.modGraph i (fun g => if off == 0x10 then { g with stale := 0 } else { g with wdogcnt := 0 })
  | 12 => s.modGuest (fun g => { g with fencecnt := 0 })
  | _ => s.modPkg (fun p => { p with cecnt := 0 })
/-- A word of BAR0 as the host reads it (R25, R498): a register, a queue's word, the MSI-X table, or a word of the capability list. -/
def State.hostWord (s : State) (off : Nat) : Word :=
  if 0x1000 ≤ off && off < 0x2000 then (s.capWord (off - 0x1000)).getD 0 else s.bar0Word off
/-- `CLEAR_ON_READ` (R4): the value is returned and the counter cleared in one access; in BAR0 these are DBERR and BAR2ERR (R499), and the
host's reads of every other word go the same way and clear nothing. -/
def execClearOnRead (r : RegRead) (s : State) : Out :=
  .next (match r with
    | .window q => match s.opWord q with
      | none => s.sawEnd q 2 (some 0)
      | some v =>
        let s := if winCls q ≤ 2 && s.disabled (winInst q) then s else s.clearRc (winCls q) (winInst q) (winOff q)
        s.sawEnd q 0 (some v)
    | .bar0 off =>
      let t := if off == 0x10 then s.modFe (fun f => { f with dberr := 0 })
        else if off == 0x18 then s.modFe (fun f => { f with bar2err := 0 }) else s
      t.out (.bar0Data off (s.hostWord off)))

/-! ## Register writes -/

/-- The bits of the two words of a trace entry that are not reserved (R418). -/
def traceMask0 : Word := 0xFFFFFFFFFFFFF0FF
/-- Of the second word. -/
def traceMask1 : Word := 0x000FFFFFFFFFFFFF
/-- The slot table entries that a write of one word gives (R469): bits [29:16] of each are zero. -/
def Leaf.putTmap (l : Leaf) (k : Nat) (v : Word) : Leaf :=
  let e := fun (lo : Nat) => BitVec.ofNat 32 (fld v lo 32) &&& 0xC000FFFF
  { l with tmap := vset (vset l.tmap (2 * k) (e 0)) (2 * k + 1) (e 32) }

/-- A stream's direction set, in its descriptor and in what the pool does with it (R282, R301). -/
def Stream.turn (t : Stream) (w : Bool) : Stream := { t with w0 := setFld t.w0 36 1 (bitNat w), write := w }
/-- A word of a stream of a TRAPPED frame written (R301): descriptor words without their reserved bits (R5, R282), the position, the
number of buffered entries, which can only fall. -/
def Stream.windowWrite (t : Stream) (o : Nat) (v : Word) : Stream :=
  match o with
  | 0 => { t with w0 := v &&& 0x1F0007FFFF, write := bitOf v 36 }
  | 8 => { t with w1 := v }
  | 16 => { t with w2 := v }
  | 24 => { t with pos := fld v 0 32 }
  | _ => { t with buf := t.buf.take (fld v 0 4) }
/-- The write-stream mask of a TRAPPED frame written (R301): a write whose bound mask would bind or unbind a stream is ignored. -/
def Frame.streamMask (f : Frame) (v : Word) : Nat × Frame :=
  if (List.range 4).any (fun j => bitOf v j != (f.stream j).bound) then (5, f)
  else (0, (List.range 4).foldl (fun g j => g.putStream j ((g.stream j).turn (bitOf v (8 + j)))) f)
/-- A TRAPPED frame's window written (R231, R301). -/
def Frame.windowWrite (f : Frame) (off : Nat) (v : Word) : Nat × Frame :=
  let tags := fun (k : Nat) => (List.range 16).foldl (fun (g : Frame) r => match tagOf (fld v (4 * r) 4) with
    | some t => g.putTag (BitVec.ofNat 5 (16 * k + r)) t
    | none => g) f
  match off with
  | 0x010 => (0, { f with epc := v &&& ~~~7 })
  | 0x018 => (0, { f with ecause := maskWrite 0x803F f.ecause v })
  | 0x020 => (0, { f with eval := v })
  | 0x028 => (0, { f with fcsr := writeFcsr f.fcsr v })
  | 0x400 => (0, { f with
      poisonX := f.poisonX &&& ~~~(BitVec.ofNat 32 (fld v 0 32)), poisonF := f.poisonF &&& ~~~(BitVec.ofNat 16 (fld v 32 16))
      poisonH := f.poisonH &&& ~~~(BitVec.ofNat 8 (fld v 48 8)) })
  | 0x500 => (0, tags 0)
  | 0x508 => (0, tags 1)
  | 0x510 => f.streamMask v
  | _ =>
    match arrIdx off 0x100 8 32, arrIdx off 0x200 8 16, arrIdx off 0x520 48 4 with
    | some (r, _), _, _ =>
      if r == 0 then (5, f) else (0, { f.putX (BitVec.ofNat 5 r) v with poisonX := markBit f.poisonX r false })
    | _, some (r, _), _ => (0, { f.putF (BitVec.ofNat 5 r) v with poisonF := markBit f.poisonF r false })
    | _, _, some (j, o) => if 40 ≤ o then (5, f) else (0, f.putStream j ((f.stream j).windowWrite o v))
    | _, _, _ => (5, f)

/-- A frame-unit block written: class 0 (R230, R231, R209, R394, R475). Of a write to DQCFG whose ENTRIES is not 0 or a power of two up to
1,024, or whose BASE is no multiple of 128, the spec says nothing; the whole write is ignored, as RINGCFG's is (DESIGN CHOICE; log entry
49). -/
def State.fuWrite (s : State) (ep off : Nat) (v : Word) : Nat × State :=
  let c := s.core ep
  let u := c.spawn
  match off with
  | 0x00 => if !bitOf v 3 && (c.code == 3 || c.code == 4) then (5, s) else (0, s.setCore ep { c with noplace := bitOf v 3 })
  | 0x08 => (0, s.setCore ep { c with trapvec := v &&& ~~~7 })
  | 0x10 => (0, s.setCore ep { c with spregion := v &&& 0xFFFFFFC0FFFFFFC0 })
  | 0x18 => (0, s.setCore ep { c with trapseg := v &&& ~~~63 })
  | 0x20 =>
    let n := fld v 32 16
    if n == 0 || 256 < n || 2 ^ (bitLen n - 1) != n then (5, s) else (0, s.setCore ep { c with ringcfg := v &&& 0xFFFFFFFFFFFF })
  | 0x28 => (0, s.setCore ep { c with fwd := v &&& 0x8000000000000FFF })
  | 0x30 => (0, s.setCore ep { c with starve := v })
  | 0x88 =>
    let n := fld v 32 16
    if !u.deque.isEmpty || (n != 0 && (1024 < n || 2 ^ (bitLen n - 1) != n)) || fld v 0 7 != 0 then (5, s)
    else (0, s.modSpawn ep (fun u => { u with cfg := v &&& 0xFFFF0007FFFF }))
  | 0x90 => (0, s.modSpawn ep (fun u => { u with steal := v &&& 0xFFFF00FF0003 }))
  | 0x710 => (0, s.setCore ep { c with trace := { c.trace with push0 := v &&& traceMask0 } })
  | _ =>
    match arrIdx off 0xA0 8 8, arrIdx off 0x100 8 64, arrIdx off 0x600 8 32, arrIdx off 0x1000 0x800 8 with
    | some (k, _), _, _, _ => (0, s.setCore ep { c with leaf := c.leaf.putTmap k v })
    | _, some (k, _), _, _ =>
      let w := vget 0 c.ceiling k
      if bitOf w 11 then (5, s) else (0, s.setCore ep { c with ceiling := vset c.ceiling k (maskWrite 0xFFFF000F w v) })
    | _, _, some (b, _), _ =>
      if (vget (CopyBar.mk 0 false false) c.copy.bars b).count != 0 then (5, s)
      else (0, s.modCopy ep (fun p => { p with bars := vset p.bars b (CopyBar.mk (fld v 0 16) (bitOf v 16) (bitOf v 17)) }))
    | _, _, _, some (w, o) =>
      let f := c.win w
      if f.st != .trapped then (5, s)
      else
        let r := f.windowWrite o v
        (r.1, s.setFrame ep w r.2)
    | _, _, _, _ => (5, s)

/-- The bits of a kind word that are not reserved (R195, R258). -/
def kindMask : Word := 0x01FFFFFFFFFFFFE7
/-- An EMPTY handler entry written (R261), without reserved bits (R5); its ASID is 0 with a kind word of PRIO 6 or 7 (R249). -/
def Handler.write (h : Handler) (k : Nat) (v : Word) : Handler :=
  match k with
  | 0 => { h with kind := v &&& kindMask, asid := handlerAsid v h.asid }
  | 1 => { h with
      asid := handlerAsid h.kind (BitVec.ofNat 16 (fld v 48 16)), state := (if fld v 46 2 == 3 then 0 else BitVec.ofNat 2 (fld v 46 2)), head := fld v 40 6
      rxlog2 := fld v 32 4, rxbase := fld v 0 32 }
  | 2 => { h with busy := v.setWidth 64 }
  | _ => { h with staged := v &&& kindMask }

/-- A message-unit block written: class 1 (R261). -/
def State.muWrite (s : State) (ep off : Nat) (v : Word) : Nat × State :=
  let c := s.core ep
  match off with
  | 0x08 => (0, s.setCore ep { c with feroute := v &&& 0x8000000000000FFF })
  | 0x10 => (0, s.setCore ep { c with fwhmask := v })
  | _ => match arrIdx off 0x40 8 8, arrIdx off 0x100 32 64 with
    | some (k, _), _ =>
      let m : BitVec 512 := (0xFFFFFFFFFFFFFFFF : BitVec 512) <<< (64 * k)
      (0, s.setCore ep { c with fwmap := (c.fwmap &&& ~~~m) ||| ((v.setWidth 512) <<< (64 * k)) })
    | _, some (n, o) =>
      let h := vget Handler.empty c.handlers n
      if h.state != 0 then (5, s) else (0, s.setCore ep { c with handlers := vset c.handlers n (h.write (o / 8) v) })
    | _, _ => (5, s)

/-- A vector pool's block written: class 3 (R300). A ROWS word is writable while no frame holds its bank, or a TRAPPED one does. -/
def State.poolWrite (s : State) (g off : Nat) (v : Word) : Nat × State :=
  let gd := s.geode g
  if off == 8 then (0, s.setGeode g { gd with lendlock := BitVec.ofNat 8 (fld v 0 8) })
  else match arrIdx off 0x10000 8 0x4000 with
    | none => (5, s)
    | some (k, _) =>
      let row := k / 8
      let free := match gd.banks.find? (fun b => b.group == row / 128 && b.bank == row % 128 / 32) with
        | none => true
        | some b => (s.frame (8 * g + b.core) b.level).st == .trapped
      if !free then (5, s)
      else (0, s.setGeode g { gd with rows := (gd.rows.put (2 * k) (BitVec.ofNat 32 (fld v 0 32))).put (2 * k + 1) (BitVec.ofNat 32 (fld v 32 32)) })

/-- Whether an accumulator set has no queued, running or draining work (R334). -/
def MArray.setIdle (a : MArray) (k : Nat) : Bool :=
  !a.passes.any (fun p => p.state ≤ 5 && pwSet p.word == k) && !a.allDrains.any (fun d => d.members.any (fun m => pwSet m.word == k))
    && !a.zeros.any (fun z => pwSet z.word == k)
/-- A matrix array's block written: class 4 (R334). -/
def State.arrayWrite (s : State) (g off : Nat) (v : Word) : Nat × State :=
  let a := s.arr g
  match arrIdx off 8 8 4, arrIdx off 0x600 8 32, arrIdx off 0x10000 8 0x4000 with
  | some (k, _), _, _ =>
    if !a.setIdle k then (5, s)
    else (0, s.modArr g (fun a => a.modSet k (fun e => { e with
      tag := some (BitVec.ofNat 3 (fld v 48 3), BitVec.ofNat 16 (fld v 32 16)), live := BitVec.ofNat 8 (fld v 8 8), i32 := BitVec.ofNat 8 (fld v 0 8) })))
  | _, some (k, _), _ =>
    (0, s.modArr g (fun a => a.modSet (k / 8) (fun e => { e with
      flags := vset e.flags (k % 8) (vget 0 e.flags (k % 8) &&& ~~~(v.setWidth 6)) })))
  | _, _, some (k, _) =>
    if !a.setIdle (k / 0x1000) then (5, s)
    else (0, s.modArr g (fun a => { a with
      acc := (a.acc.put (2 * k) (BitVec.ofNat 32 (fld v 0 32))).put (2 * k + 1) (BitVec.ofNat 32 (fld v 32 32)) }))
  | _, _, _ => (5, s)

/-- A bedrock block written: class 8 (R395). -/
def State.bedWrite (s : State) (sl off : Nat) (v : Word) : Nat × State :=
  match arrIdx off 0 8 16 with
  | some (g, _) =>
    if (s.group sl g).st == 0 || (s.group sl g).st == 2 then (0, s.modGroup sl g (fun b => { b with owner := BitVec.ofNat 16 (fld v 32 16) })) else (5, s)
  | none => (5, s)
/-- A graph engine's block written: class 9 (R456). With GEFEROUTE valid, events held are sent (R446). -/
def State.graphWrite (s : State) (k off : Nat) (v : Word) : Nat × State :=
  match off with
  | 0x08 => (0, (s.modGraph k (fun g => { g with feroute := v &&& 0x8000000000000FFF })).sendNodeEvents k)
  | 0x20 => (0, s.modGraph k (fun g => { g with nodesel := v &&& 0xFFFF00010FFF00FF }))
  | _ => match arrIdx off 0x50 8 8 with
    | some (i, _) => (0, s.modGraph k (fun g => { g with leaf := g.leaf.putTmap i v }))
    | none => (5, s)
/-- The module's block written: class 13 (R525, R521). -/
def State.moduleWrite (s : State) (off : Nat) (v : Word) : Nat × State :=
  match off with
  | 0x00 => (0, { s with asidtab := v &&& 0xFFFFFFFFFFFE0 })
  | 0x10 => (0, s.modPkg (fun p => { p with tlbrange := v &&& 0x1FFFFFFFFFFF000 }))
  | 0x200 => (0, s.modPkg (fun p => { p with pwrcap := Nat.max 1200 (Nat.min 2400 (fld v 0 12)) }))
  | _ => (5, s)

/-- A word written where the write is no step of its own (R525); every other word keeps its value (ERR 5). -/
def State.regWrite (s : State) (cls i off : Nat) (v : Word) : Nat × State :=
  match cls with
  | 0 => s.fuWrite i off v
  | 1 => s.muWrite i off v
  | 3 => s.poolWrite i off v
  | 4 => s.arrayWrite i off v
  | 7 => if off == 0x110 then (0, s.modHome i (fun h => { h with trace := { h.trace with push0 := v &&& traceMask0 } })) else (5, s)
  | 8 => s.bedWrite i off v
  | 9 => s.graphWrite i off v
  | 12 => if off == 0x10 then (0, s.modGuest (fun g => { g with cap := Nat.min 150 (fld v 0 8) })) else if off == 8 then (0, s) else (5, s)
  | 13 => s.moduleWrite off v
  | _ => (5, s)
/-- `REGISTER_WRITE` (R4, R5, R526; BAR0: R499, R501). -/
def execRegisterWrite (w : RegWrite) (s : State) : Out :=
  .next (match w with
    | .window q => s.winAct q (fun s => s.regWrite (winCls q) (winInst q) (winOff q) q.data)
    | .bar0 off size v => s.bar0Write off size v)

/-! ## Writes that are steps of their own -/

/-- `RECBUSY_CLEAR` (R196, R230). -/
def execRecbusyClear (q : WinOp) (s : State) : Out :=
  .next (s.winAct q (fun s => (0, s.modCore (winInst q) (fun c => { c with
    recbusy := c.recbusy &&& ~~~((q.data.setWidth 256) <<< (64 * ((winOff q - 0x40) / 8))) }))))
/-- `MONITOR_FREE` (R214, R230): a monitor cleared is counted in RECV at the watching core (R470). -/
def execMonitorFree (q : WinOp) (s : State) : Out :=
  .next (s.winAct q (fun s =>
    let ep := winInst q
    let m := (winOff q - 0x400) / 16
    if q.data != 0 then (5, s)
    else match (s.core ep).monitors.find? (fun x => x.idx == m) with
      | none => (0, s)
      | some x => (0, (s.modCore ep (fun c => { c with monitors := c.monitors.filter (fun y => y.idx != m) })).countRecv x.q.rel.srcEp x.q.rel.asid)))
/-- `LQUOTA_WRITE` (R263): ignored when the sum would exceed 16. -/
def execLquotaWrite (q : WinOp) (s : State) : Out :=
  .next (s.winAct q (fun s =>
    if 16 < ((List.range 8).map (fun c => fld q.data (8 * c) 8)).foldl (fun a b => a + b) 0 then (5, s)
    else (0, s.modGeode (winInst q) (fun g => { g with lquota := q.data }))))
/-- `CMASK_WRITE` (R331): a bit is set only for a core that is ACTIVE or FREE-RESERVED. -/
def execCmaskWrite (q : WinOp) (s : State) : Out :=
  .next (s.winAct q (fun s =>
    let g := winInst q
    let v := BitVec.ofNat 8 (fld q.data 0 8)
    let old := (s.arr g).cmask
    if (List.range 8).any (fun c => v.getLsbD c && !old.getLsbD c && (s.core (8 * g + c)).code != 0) then (5, s)
    else (0, (s.modArr g (fun a => { a with cmask := v })).arrayKick g)))
/-- Whether no pass reads a slot (R309). -/
def MArray.slotIdle (a : MArray) (k : Nat) : Bool := !a.passes.any (fun p => p.stepping && pwSlot p.word == k)
/-- A slot without readers made EMPTY (R309): its loads end with it and release nothing; a copy into it is cancelled (log entry 71). -/
def State.emptySlot (s : State) (g k : Nat) : State :=
  let drop := fun (t : State) (l : SlotLoad) => match l.src with
    | .bedrock off => if l.started then t.countLoads (g / 128) (groupsTouched off (64 * cb l.bfmt)) false else t
    | .copy e tid => t.cancelXfer e tid
    | .lm _ _ => t
  (((s.arr g).slot k).loads.foldl drop s).modArr g (fun a => a.modSlot k (fun t => { t with full := false, loads := [] }))
/-- `SLOTST_EMPTY` (R309, R334): each byte whose bits [4:0] are zero (the others are reserved, R5) empties its slot when that has no readers. -/
def execSlotstEmpty (q : WinOp) (s : State) : Out :=
  .next (s.winAct q (fun s =>
    let g := winInst q
    let first := winOff q - 0x400
    let all : Bool := (List.range 8).all (fun i => fld q.data (8 * i) 5 == 0 && (s.arr g).slotIdle (first + i))
    let idle := (List.range 8).filter (fun i => fld q.data (8 * i) 5 == 0 && (s.arr g).slotIdle (first + i))
    (if all then 0 else 5, (idle.foldl (fun t i => t.emptySlot g (first + i)) s).arrayKick g)))
/-- `SETTAG_FREE` (R334): a write that clears the tagged bit frees the set. -/
def execSettagFree (q : WinOp) (s : State) : Out :=
  .next (s.winAct q (fun s =>
    let g := winInst q
    let k := (winOff q - 8) / 8
    if !(s.arr g).setIdle k then (5, s)
    else (0, (s.modArr g (fun a => a.modSet k (fun e => { e with
      tag := none, live := 0, i32 := BitVec.ofNat 8 (fld q.data 0 8), shown := (BitVec.ofNat 3 (fld q.data 48 3), BitVec.ofNat 16 (fld q.data 32 16)) }))).arrayKick g)))
/-- `SVCLEAR` (R365). -/
def execSvclear (q : WinOp) (s : State) : Out :=
  .next (s.winAct q (fun s =>
    let n := q.data.toNat
    match (s.port (winInst q)).dir.find n with
    | none => (5, s)
    | some _ => (0, s.modTile (winInst q) n (fun t => { t with sv := false }))))
/-- `CENSEND` (R354, R365). -/
def execCensend (q : WinOp) (s : State) : Out := .next (s.winAct q (fun s => (0, s.censusEnd q.data.toNat)))
/-- `BARFREE` (R363, R365). -/
def execBarfree (q : WinOp) (s : State) : Out := .next (s.winAct q (fun s => (0, s.barFree (winInst q) q.data.toNat)))
/-- `CANCEL` (R393). -/
def execCancel (q : WinOp) (s : State) : Out := .next (s.winAct q (fun s => (0, s.cancelXfer (winInst q) (fld q.data 0 48))))
/-- `SLOTEND` (R456): ignored for a slot that is not LIVE; one whose header the master has still to read is ended when it has. -/
def execSlotend (q : WinOp) (s : State) : Out :=
  .next (if q.data.toNat < 256 && s.unread q.data.toNat then s.later (.slotend q)
    else s.winAct q (fun s => if q.data.toNat < 256 && (s.inst q.data.toNat).st == 1 then (0, s.slotEndWrite q.data.toNat) else (5, s)))
/-- `JOINCTR_FREE` (R460): no release. -/
def execJoinctrFree (q : WinOp) (s : State) : Out :=
  .next (s.winAct q (fun s => (0, s.modJoin (winInst q) ((winOff q - 0x7000) / 32) (fun _ => JoinCtr.free))))
/-- `TSLOT_FREE` (R475): a write of 0 to a DONE slot. -/
def execTslotFree (q : WinOp) (s : State) : Out :=
  .next (s.winAct q (fun s =>
    let k := (winOff q - 0x2000) / 8
    if q.data == 0 && (vget TSlot.free s.term.slots k).st == 2 then (0, s.tslotFree k) else (5, s)))
/-- `GCTL_FENCE` (R488, R494). -/
def execGctlFence (q : WinOp) (s : State) : Out := .next (s.winAct q (fun s => (0, s.gctlFence)))
/-- `GCTL_RETRAIN` (R487, R494). -/
def execGctlRetrain (q : WinOp) (s : State) : Out := .next (s.winAct q (fun s => (0, s.gctlRetrain)))
/-- `JOBCANCEL` (R493, R494). -/
def execJobcancel (q : WinOp) (s : State) : Out := .next (s.winAct q (fun s => (0, s.jobCancel (fld q.data 0 16))))

/-! ## Trace rings (R420-R424) -/

/-- The port of a class 0 or class 7 block: what it sees of an arrival and what it does with one. -/
def portHdr (port : Nat) (s : State) (ev : Event) : Option Hdr := if epClass port == 3 then homeHdrOf port s ev else lmHdr s ev
/-- What a port with a trace ring does with an arrival. -/
def portPerform (port : Nat) (ev : Event) (s : State) : State :=
  if epClass port == 3 then homePerform ev s else lmServe ev s
/-- A port whose ring may have room again goes on with what waits in its home's buffers (R419). -/
def State.ringWake (s : State) (port : Nat) : State := if epClass port == 3 then s.homeWake port else s
/-- `RRCTL_WRITE` (R417, R422): MODE 0 ends a mode; everything else is written only while MODE is 0. -/
def execRrctlWrite (q : WinOp) (s : State) : Out :=
  .next (s.winAct q (fun s =>
    let p := winInst q
    let t := s.ring p
    let m := fld q.data 32 2
    if m == 0 then
      if t.mode == 1 then
        (0, (s.setRing p { t with ctl := setFld t.ctl 32 2 0 }).appendEntry p (traceEnd t.seq, 0))
      else if t.mode == 2 then
        let s := s.setRing p { t with ctl := setFld t.ctl 32 2 0, entries := [], rob := [], diverged := false }
        (0, (t.rob.foldl (fun u a => portPerform p a.2 u) s).ringWake p)
      else (0, (s.setRing p { t with ctl := q.data &&& 0x1FFFF, entries := (if t.diverged then [] else t.entries), diverged := false }).ringWake p)
    else if t.mode != 0 || m == 3 then (5, s)
    else (0, s.setRing p { t with ctl := q.data &&& 0x30001FFFF, seq := 0 })))
/-- `RRPUSH` (R420, R424): an entry is appended in replay mode; held arrivals that now match are performed. -/
def execRrpush (q : WinOp) (s : State) : Out :=
  .next (s.winAct q (fun s =>
    let p := winInst q
    let t := s.ring p
    if t.mode != 2 || 64 ≤ t.entries.length then (5, s)
    else (0, (s.setRing p { t with entries := t.entries ++ [(t.push0, q.data &&& traceMask1)] }).reexamine p (portHdr p) (portPerform p))))
/-- `RRPOP` (R419, R422, R424): entries that were recorded are popped. -/
def execRrpop (q : WinOp) (s : State) : Out :=
  .next (s.winAct q (fun s =>
    let p := winInst q
    let t := s.ring p
    if t.mode == 2 then (5, s) else (0, (s.setRing p { t with entries := t.entries.drop q.data.toNat }).ringWake p)))

/-! ## Commands (R525) -/

/-- `HCINV` (R117): a held `HLD` of a dropped entry reads it again. -/
def execHcinv (q : WinOp) (s : State) : Out :=
  let asid := BitVec.ofNat 16 (fld q.data 0 16)
  let hit := fun (e : BitVec 16 × Nat × List Word) => e.1 == asid && (bitOf q.data 28 || e.2.1 == fld q.data 16 12)
  .next (((((List.range 4).foldl (fun t k => t.modSlab k (fun b => { b with hcache := b.hcache.filter (fun e => !hit e) })) s).reread asid (fun i => hit (asid, i, [])))).sawEnd q 0 none)
/-- `ICINV` (R148). -/
def execIcinv (q : WinOp) (s : State) : Out :=
  let asid := BitVec.ofNat 16 (fld q.data 0 16)
  .next ({ s with cores := s.cores.map (fun (p : Nat × Core) => (p.1, { p.2 with icache := p.2.icache.filter (fun l => l.asid != asid) })) }.sawEnd q 0 none)
/-- `GFCLEAR` (R92, R93). -/
def execGfclear (q : WinOp) (s : State) : Out :=
  .next ((s.modGeode (fld q.data 0 9) (fun g => { g with sticky := 0 })).sawEnd q 0 none)

/-- Whether a range of virtual addresses is touched by a page. -/
def pageHit (lo n page bits : Nat) : Bool := n == 0 || (page < lo + 4096 * n && lo < page + 2 ^ bits)
/-- Whether an access or a transfer of an ASID that was translated is still to be performed (R126). -/
def State.asidBusy (s : State) (asid : BitVec 16) : Bool :=
  s.cores.any (fun p => p.2.oq.any (fun e => match e.acc? with | some a => a.space == 2 && a.asid == asid | none => false)
    || p.2.dcache.pend.any (fun a => a.1.asid == asid))
    || s.engines.any (fun p => p.2.xfers.any (fun t => t.begun && t.q.asid == asid))
/-- Cached translations of a range dropped from every TLB, and of its ASID from every walk cache (R126). -/
def State.dropXlate (s : State) (asid : BitVec 16) (lo n : Nat) : State :=
  let keep := fun (l : List TlbEntry) => l.filter (fun e => !(e.asid == asid && pageHit lo n e.page e.bits))
  { s with
    cores := s.cores.map (fun (p : Nat × Core) => (p.1, { p.2 with tlb := keep p.2.tlb }))
    engines := s.engines.map (fun (p : Nat × Engine) => (p.1, { p.2 with tlb := keep p.2.tlb }))
    slabs := s.slabs.map (fun (p : Nat × Slab) => (p.1, { p.2 with walks := p.2.walks.filter (fun e => e.1 != asid) })) }
/-- `TLBINV` (R126, R485): the range leaves every TLB and walk cache; the command waits for the accesses translated before, then for
the guest's answers, which a guest that is not OPEN does not owe. `range` is TLBRANGE as the command found it, once it waits. -/
def execTlbinv (q : WinOp) (range : Option Word) (s : State) : Out :=
  let asid := BitVec.ofNat 16 (fld q.data 0 16)
  let base := range.getD s.pkg.tlbrange
  let lo := base.toNat; let n := fld q.data 32 32
  let s := s.dropXlate asid lo n
  .next (if s.asidBusy asid then s.later (.tlbinv q (some base))
    else
      let hit := fun (g : Grant) => g.asid == asid && pageHit lo n g.page (pageBits g.size)
      let l := (s.guest.grants.filter hit).map (fun g => g.idx)
      if s.guest.state != 2 || l.isEmpty then s.sawEnd q 0 none
      else (s.invalidate hit).modGuest (fun g => { g with tlbops := g.tlbops ++ [(q, l)] }))

/-- `CORERESET` (R525): of a HALTED or VACATED core only (ERR 6). LM keeps its bytes, and each monitor cleared counts as one
that firmware cleared (R470). -/
def execCorereset (q : WinOp) (s : State) : Out :=
  let ep := fld q.data 0 12
  let c := s.core ep
  .next (if !(c.code == 3 || c.code == 4) then s.sawEnd q 6 none
    else
      let s := (List.range 8).foldl (fun t w => t.endGrant ep w) s
      let s := c.monitors.foldl (fun t x => t.countRecv x.q.rel.srcEp x.q.rel.asid) s
      let s := s.modCore ep (fun c => { c with
        code := 0, noplace := true, wins := Vector.replicate 8 Frame.free, recbusy := 0, monitors := []
        handlers := Vector.replicate 64 Handler.empty, census := { c.census with dir := [] }, claims := [], closing := []
        ceiling := c.ceiling.map (fun w => setFld w 11 1 0), fwd := 0, mig := none })
      let s := (c.push.foldl (fun t _ => t.later (.framePush ep)) s).select ep
      s.sawEnd q 0 none)

end Sys2Proof.Machine
end

