-- ==== Sys2Proof/Machine/Complete.lean ====
section
/-! DEFINITION. What comes back: answers of ports, homes, devices and the host at those who asked, and the fates of packets on the
way (03 to 16: R43, R145, R194, R241, R245, R246, R250, R260, R374, R400, R401, R421). -/

namespace Sys2Proof.Machine

/-- The code address space of a frame (R194): ASID 0 for an F-mode frame. -/
def Frame.codeAsid (f : Frame) : BitVec 16 := if f.fm then 0 else f.asid

/-- `CODE_FILL` (R194): the line is filled, or the top frame that waits for it takes cause 12 or 1 with the address. -/
def execCodeFill (ep : Nat) (asid : BitVec 16) (va : Word) (s : State) : Out :=
  let (k, s) := s.fillCode ep asid va.toNat
  .next (if k == 0 then s
    else match (s.core ep).top with
      | none => s
      | some w =>
        let f := s.frame ep w
        if f.st == .running && f.codeAsid == asid && f.pc == va then
          ({ s with iss := Issue.mk ep w va 0 0 false 0 .go } : State).raise (if k == 1 then 12 else 1) va
        else s)

/-- An answer of an owning port reaches whoever asked: a host packet, a frame, a moving tile, a copy engine or a census root. -/
def State.takeData (s : State) (a : Access) (bytes : List Byte) (poison : Bool) : State :=
  if a.core == hostEp then s.hostDone (some (a.win, a.id)) 0 0
  else match epClass a.core with
    | 2 => s.engineData a bytes poison
    | 3 => s.rootAck a
    | _ => if a.win < 8 then (s.performed a.core a.id).complete a bytes poison else s.tileAck a
/-- `DATA` (R43, R236): data, an old value or an acknowledgement. -/
def execData (a : Access) (bytes : List Byte) (poison : Bool) (s : State) : Out := .next (s.takeData a bytes poison)

/-- `DELIVERY` (R250): the status is written to the sender's destination register; a message that no core of this device took is
counted in RECV here (R470). -/
def execDelivery (m : ActiveMsg) (status : Nat) (s : State) : Out :=
  .next (if epClass m.src == 3 then s.eventDelivered (epSlab m.src) m.fid status
    else
      let taken := (status == 0 || status == 2) && m.dstDev.isNone
      let s := if taken then s else s.countRecv m.src m.asid
      s.answerWord m.src m.win m.fid m.uid (BitVec.ofNat 64 status))

/-- Whether a request comes from an agent that caches no line, for an access of `once` (R381, R409). -/
def hostlike (q : HomeReq) : Bool := fjPlace ≤ q.src || epClass q.src == 3
/-- A grant of a home at its requester: no agent of its slab loads an older copy from then on (R139). One for a guest that is fenced goes no
further (R489). -/
def State.takeLine (s : State) (q : HomeReq) (grant : LState) (data : BitVec 1024) (poison : Bool) : State :=
  if q.agent == 256 then (if s.guestGone then s else (s.slabApply 3 q.line).out (.guest (.coherentData q grant data poison)))
  else if hostlike q then (s.slabApply (routerOf q.src / 128) q.line).onceAnswer q (lineBytes data q.mask.toNat q.limit) poison
  else if epClass q.src == 2 then (s.slabApply (epSlab q.src) q.line).engineLine q data poison
  else s.fillLine q grant data poison
/-- `COHERENT_DATA` (R401): the agent fills its cache, or takes the data once. -/
def execCoherentData (q : HomeReq) (grant : LState) (data : BitVec 1024) (poison : Bool) (s : State) : Out :=
  .next (s.takeLine q grant data poison)

/-- An acknowledgement of a home at its requester (R400): Upg, WB, a claim's steps, a CMO, a ONCE write, or a handover, which is the ONCE
write of a core (R187). -/
def State.takeAck (s : State) (q : HomeReq) (dirty : Bool) : State :=
  if q.agent == 256 then (if s.guestGone then s else s.out (.guest (.homeAck q dirty)))
  else if hostlike q then s.onceAnswer q [] false
  else if epClass q.src == 2 then s.engineAck q
  else match q.kind with
    | .upg => s.upgraded q.src q.line
    | .wb =>
      if q.once then s.handleGiven q
      else (s.modCore q.src (fun c => { c with dcache := { c.dcache with wbuf := c.dcache.wbuf.del q.line } })).askPend q.src q.line
    | .cmo _ => s.cmoAck q.src q.tag q.line dirty
    | _ => s
/-- `HOME_ACK` (R400). -/
def execHomeAck (q : HomeReq) (dirty : Bool) (s : State) : Out := .next (s.takeAck q dirty)

/-- `TRANSFER_COMPLETE` (R374, R375): a transfer whose last write is acknowledged and whose claims have ended. -/
def execTransferComplete (engine tid : Nat) (s : State) : Out :=
  .next (match (s.engine engine).find tid with
    | none => s
    | some t => match t.stop with
      | none => s
      | some (st, d) => if t.busy || t.ends != 0 then s else s.xferDone engine t st d)

/-- `FJARLINK_PACKET` (R17, R246, R260, R517), at a port: at the device that it names the packet is taken in; else it leaves here, or goes
to the port that its route names. A device without an id passes nothing on: what its own agents send to another device then is lost with
no word to them, so that a record stays busy and no status comes, of which the spec says nothing (DESIGN CHOICE; log entry 50). -/
def execFjarlinkPacket (port : Nat) (p : FjPacket) (s : State) : Out :=
  let d := fjTo s.srcDev p
  let here := fjPlace + port
  .next (if !s.didv then s
    else if d != s.devId then
      if fjCls p == 3 then s.fjTake port p else match s.fjPort d with
      | none => s.fjLost port p
      | some k =>
        if k == port then s.out (.fjarlink port d p (s.wire (Msg.mk (fjCls p) here here (routerOf here) .eject 0 0 (.fjarlinkPacket port p))))
        else s.send (fjCls p) here fjPlace (.fjarlinkPacket 31 p)
    else match p with
      | .linkAnswer q st b => s.engineLink q st b
      | _ => s.fjTake port p)

/-- `REPLAY_TIMEOUT` (R421): an arrival has waited 10 µs in the reorder buffer. -/
def execReplayTimeout (port : Nat) (s : State) : Out :=
  let t := s.ring port
  .next (if t.mode == 2 && !t.rob.isEmpty then s.diverge port (portPerform port) else s)

/-- `HOST_ACCESS_REQUEST` (R145): the host port sends a load as a non-posted read, and a store as a posted write, which is then
acknowledged. -/
def execHostAccessRequest (a : Access) (s : State) : Out :=
  .next (match a.op with
    | .store b => (s.out (.hostWrite a.addr b)).send 1 hostEp a.core (.data a [] false)
    | _ => s.out (.hostRead a))

/-- `NON_POSTED_READ_COMPLETION` (R145): a HOST load's bytes go back to the memory core. -/
def execNonPostedReadCompletion (a : Access) (bytes : List Byte) (poison : Bool) (s : State) : Out :=
  .next (s.send 1 hostEp a.core (.data a ((bytes ++ List.replicate a.op.size 0).take a.op.size) poison))

/-- Packet `k` makes its next hop if it can (R238-R241, R243): dateline crossings and moves to escape are counted at the router it leaves
(R261), and later packets of its triple follow it to escape there. -/
def State.hopPacket (s : State) (k : Nat) : State :=
  match s.net[k]? with
  | none => s
  | some m =>
    let esc := s.escapes m
    if 3 ≤ m.cls || m.ch == .eject || !s.atHead k m || !s.canHop k m esc then s
    else
      let on := match m.ch with | .link _ vc => vc == 2 | _ => false
      let go := fun (m : Msg) => { s with net := s.net.set k { m with since := s.now, wait := 0 } }
      match m.hop esc with
      | .eject => go { m with ch := .eject }
      | .bridge rt => go { m with rt := rt, ch := .inject }
      | .ring dir rt x =>
        let s := go { m with rt := rt, ch := .link dir (m.nextVc esc dir x) }
        s.modGeode m.rt (fun g => { g with
          dlcross := if !esc && x then (g.dlcross + 1) % 2 ^ 64 else g.dlcross
          escxfer := if esc && !on then (g.escxfer + 1) % 2 ^ 64 else g.escxfer
          follow := if esc && !on && !g.follow.contains m.triple then g.follow ++ [m.triple] else g.follow })
/-- `ESCAPE_MOVE` (R241): a packet that must go on on escape at a router does so, as soon as the escape hop admits it. -/
def execEscapeMove (k router : Nat) (s : State) : Out :=
  .next (match s.net[k]? with
    | none => s
    | some m => if m.rt == router && s.escapes m then s.hopPacket k else s)

/-- A free value, poisoned, for a result (R219, R245). -/
def State.lostResult (s : State) (ep win fid : Nat) (u : Option Nat) : State :=
  match u with
  | none => s
  | some u => { s with fv := s.fv + 1 }.later (.variableResultWriteback ep win fid u (.word (Config.freeWord s.fv)) 0 true)
/-- The status of a message is lost: the sender's result is poisoned; an attempt to deliver a node event counts as not delivered (R446). -/
def State.lostDelivery (s : State) (m : ActiveMsg) : State :=
  if m.srcDev != s.srcDev then s
  else if epClass m.src == 3 then s.eventDelivered (epSlab m.src) m.fid 4
  else s.lostResult m.src m.win m.fid m.uid
/-- The line that accesses of a core wait for does not come: what they read is poisoned (R245). -/
def State.lostLine (s : State) (ep line : Nat) : State :=
  let l := (s.core ep).dcache.pend.filter (fun p => lineOf p.1.addr == line)
  l.foldl (fun t p =>
      let (b, t) := t.freeBytes p.1.op.size
      (t.performed ep p.1.id).complete p.1 b true)
    (s.modCore ep (fun c => { c with dcache := { c.dcache with pend := c.dcache.pend.filter (fun p => lineOf p.1.addr != line) } }))
/-- A cache maintenance operation is answered poisoned. -/
def State.lostCmo (s : State) (q : HomeReq) : State :=
  match ((s.core q.src).oq.find? (fun e => e.id == q.tag)).bind QEnt.acc? with
  | some a => let (b, s) := s.freeBytes 8; (s.performed q.src q.tag).complete a b true
  | none => s
/-- A handover's result is poisoned; the handover is done (R187). -/
def State.lostGive (s : State) (q : HomeReq) : State :=
  let bad := fun (r : Result) => if r.uid == q.tag - 1 then { r with bad := true } else r
  (s.modCore q.src (fun c => { c with wins := c.wins.map (fun f => { f with outs := f.outs.map bad }) })).handleGiven q
/-- Whether a request comes from the data cache of a core. -/
def cachedReq (q : HomeReq) : Bool := !hostlike q && epClass q.src == 1
/-- A copy request that its core will hear nothing of: it leaves the FIFO. -/
def State.lostCopy (s : State) (q : CopyReq) : State :=
  let s := if epClass q.src == 3 then s else (s.modCopy q.src (fun c => { c with fifo := c.fifo.filter (fun e => e.id != q.tag) })).sendHead q.src false
  s.lostResult q.src q.win q.fid q.uid

/-- A response lost on the way (R245): the result that waits for it is poisoned; where none waits, what is lost is taken as said. -/
def State.lostResponse (s : State) (ev : Event) : State :=
  match ev with
  | .data a b _ => let (b', s) := s.freeBytes b.length; s.takeData a b' true
  | .delivery m _ => s.lostDelivery m
  | .fjarlinkPacket _ (.delivery m _) => s.lostDelivery m
  | .fjarlinkPacket _ (.linkAnswer q _ _) => if q.srcDev == s.srcDev then s.engineLink q 3 [] else s
  | .copyAcceptance q _ => s.lostCopy q
  | .copyDeferral q => s.lostCopy q
  | .barrierContribution q => s.lostResult q.core q.win q.fid q.uid
  | .bedrockAnswer q code =>
    if q.host.isSome || (s.frame q.src q.win).fid != q.fid then s
    else s.modFrame q.src q.win (fun f => { f with answer := some [BitVec.ofNat 64 code, BitVec.ofNat 64 q.id, 1], waiting := false })
  | .coherentData q g _ _ =>
    let (b, s) := s.freeBytes 128
    s.takeLine q g (BitVec.ofNat 1024 (ofBytes b)) true
  | .homeAck q dirty =>
    match q.kind with
    | .cmo _ => s.lostCmo q
    | .upg => s.lostLine q.src q.line
    | .wb => if cachedReq q && q.once then s.lostGive q else s.takeAck q dirty
    | _ => s.takeAck q dirty
  | .homeRetry q =>
    match q.kind with
    | .cmo _ => s.lostCmo q
    | .rds => if cachedReq q then s.lostLine q.src q.line else s.takeLine q .i 0 true
    | .rdo => if cachedReq q then s.lostLine q.src q.line else s
    | .upg => if cachedReq q then s.lostLine q.src q.line else s
    | .wb => if cachedReq q && q.once then s.lostGive q else s.askHome q
    | _ => s.askHome q
  | .slotWriteAck e t n => s.slotWritten e t n
  | .pushAck r => s.pushAcked r
  | .completionAck q => s.completionDone q
  | .queueData q n w _ => { s with fv := s.fv + w.length }.queueTake q n ((List.range w.length).map (fun k => Config.freeWord (s.fv + k)))
  | _ => s

/-- `ROUTER_PACKET_DISCARD` (R245): the packet is lost whole; a machine check names its source. A node event lost is sent again (R446). -/
def execRouterPacketDiscard (k : Nat) (s : State) : Out :=
  .next (match s.net[k]? with
    | none => s
    | some m =>
      if 3 ≤ m.cls || m.ch == .eject then s
      else
        let h := s.header m
        let s := ({ s with net := s.net.eraseIdx k } : State).machineCheckOf h.srcDev h.srcEp 7
        match m.ev with
        | .active a => if epClass a.src == 3 then s.lostDelivery a else s
        | ev => if m.cls == 1 then s.lostResponse ev else s)

end Sys2Proof.Machine
end

