-- ==== Sys2Proof/Machine/Control.lean ====
section
/-! DEFINITION. Control transfer (05_task_core.md R157-R159). -/

namespace Sys2Proof.Machine

/-- The next bundle is at `t` (R32). -/
def State.jump (s : State) (t : Word) : State := s.modCf (fun f => { f with pc := t })

/-- The target of a branch or `JAL`: `pc` + 8 x the offset in bundles (R157, R158). -/
def State.target (s : State) (short : Word) : Word := s.iss.pc + 8 * s.imm short

/-- A branch on a condition (R157). -/
def State.branch (s : State) (imm : BitVec 14) (taken : Bool) : State :=
  if taken then s.jump (s.target (imm.signExtend 64)) else s

/-- `BEQ` (R157). -/
def execBeq (imm : BitVec 14) (rs2 rs1 : Reg) (s : State) : Out := .next (s.branch imm (s.xr rs1 == s.xr rs2))
/-- `BNE` (R157). -/
def execBne (imm : BitVec 14) (rs2 rs1 : Reg) (s : State) : Out := .next (s.branch imm (s.xr rs1 != s.xr rs2))
/-- `BLT` (R157). -/
def execBlt (imm : BitVec 14) (rs2 rs1 : Reg) (s : State) : Out := .next (s.branch imm ((s.xr rs1).slt (s.xr rs2)))
/-- `BGE` (R157). -/
def execBge (imm : BitVec 14) (rs2 rs1 : Reg) (s : State) : Out := .next (s.branch imm (!(s.xr rs1).slt (s.xr rs2)))
/-- `BLTN` (R157). -/
def execBltn (imm : BitVec 14) (rs2 rs1 : Reg) (s : State) : Out := .next (s.branch imm ((s.xr rs1).ult (s.xr rs2)))
/-- `BGEN` (R157). -/
def execBgen (imm : BitVec 14) (rs2 rs1 : Reg) (s : State) : Out := .next (s.branch imm (!(s.xr rs1).ult (s.xr rs2)))

/-- `JAL` (R158): x[rd] := `pc` + 8. -/
def execJal (imm : BitVec 19) (rd : Reg) (s : State) : Out :=
  .next ((s.fixedX rd (s.iss.pc + 8) 1).jump (s.target (imm.signExtend 64)))

/-- `JALR` (R158): a target whose bits [2:0] are not zero raises cause 0 and nothing changes. -/
def execJalr (imm : BitVec 9) (rs1 rd : Reg) (s : State) : Out :=
  let t := s.xr rs1 + 8 * imm.signExtend 64
  .next (if t.setWidth 3 != (0 : BitVec 3) then s.raise 0 t else (s.fixedX rd (s.iss.pc + 8) 1).jump t)

end Sys2Proof.Machine
end

