-- ==== Sys2Proof/Machine/ScalarFp.lean ====
section
/-! DEFINITION. Scalar floating point (05_task_core.md R174-R180) over the rounding of Float.lean. -/

namespace Sys2Proof.Machine

/-- A rounding form: illegal when FRM is taken and is not a mode (R55, R90). -/
def State.withMode (s : State) (r : BitVec 3) (go : BitVec 3 → State) : State :=
  match s.mode r with
  | none => s.illegalA
  | some m => go m

/-- An arithmetic form: f[rd] := g(f[rs1], f[rs2]) rounded once (R175). -/
def State.fpArith (s : State) (rm : Rnd) (d : Bool) (rs2 rs1 rd : Reg) (lat : Nat)
    (g : Fmt → BitVec 3 → Nat → Nat → Nat × FlagSet) : State :=
  s.withMode (rndCode rm) (fun m =>
    let (v, fl) := g (fmtOf d) m (asFp d (s.fr rs1)) (asFp d (s.fr rs2))
    s.fixedF rd (fpWord d v) fl lat)

/-- The latency of `FDIV` (R42). -/
def fdivLat (d : Bool) : Nat := if d then 20 else 12
/-- The latency of `FSQRT` (R42). -/
def fsqrtLat (d : Bool) : Nat := if d then 24 else 14

/-- `FADD` (R175). -/
def execFadd (rm : Rnd) (d : Bool) (rs2 rs1 rd : Reg) (s : State) : Out := .next (s.fpArith rm d rs2 rs1 rd 4 fAdd)

/-- `FSUB` (R175). -/
def execFsub (rm : Rnd) (d : Bool) (rs2 rs1 rd : Reg) (s : State) : Out := .next (s.fpArith rm d rs2 rs1 rd 4 fSub)

/-- `FMUL` (R175). -/
def execFmul (rm : Rnd) (d : Bool) (rs2 rs1 rd : Reg) (s : State) : Out := .next (s.fpArith rm d rs2 rs1 rd 4 fMul)

/-- `FDIV` (R175). -/
def execFdiv (rm : Rnd) (d : Bool) (rs2 rs1 rd : Reg) (s : State) : Out := .next (s.fpArith rm d rs2 rs1 rd (fdivLat d) fDiv)

/-- `FSQRT` (R175). -/
def execFsqrt (rm : Rnd) (d : Bool) (rs1 rd : Reg) (s : State) : Out :=
  .next (s.fpArith rm d rs1 rs1 rd (fsqrtLat d) (fun f m a _ => fSqrt f m a))

/-- A minimum or maximum (R176). -/
def State.fpMinMax (s : State) (isMax d : Bool) (rs2 rs1 rd : Reg) : State :=
  let (v, fl) := fMinMax (fmtOf d) isMax (asFp d (s.fr rs1)) (asFp d (s.fr rs2))
  s.fixedF rd (fpWord d v) fl 2

/-- `FMIN` (R176). -/
def execFmin (d : Bool) (rs2 rs1 rd : Reg) (s : State) : Out := .next (s.fpMinMax false d rs2 rs1 rd)
/-- `FMAX` (R176). -/
def execFmax (d : Bool) (rs2 rs1 rd : Reg) (s : State) : Out := .next (s.fpMinMax true d rs2 rs1 rd)

/-- A comparison into x[rd] (R176). -/
def State.fpCmp (s : State) (d : Bool) (rs2 rs1 rd : Reg) (g : Fmt → Nat → Nat → Bool × FlagSet) : State :=
  let (b, fl) := g (fmtOf d) (asFp d (s.fr rs1)) (asFp d (s.fr rs2))
  s.fixedXF rd (boolWord b) fl 2

/-- `FEQ` (R176). -/
def execFeq (d : Bool) (rs2 rs1 rd : Reg) (s : State) : Out := .next (s.fpCmp d rs2 rs1 rd fEq)
/-- `FLT` (R176). -/
def execFlt (d : Bool) (rs2 rs1 rd : Reg) (s : State) : Out := .next (s.fpCmp d rs2 rs1 rd fLt)
/-- `FLE` (R176). -/
def execFle (d : Bool) (rs2 rs1 rd : Reg) (s : State) : Out := .next (s.fpCmp d rs2 rs1 rd fLe)

/-- The sign bit's place. -/
def signPos (d : Bool) : Nat := if d then 63 else 31

/-- `FSGNJ`: the magnitude of f[rs1] with the sign of f[rs2], its inverse, or the XOR of both (R178). -/
def execFsgnj (form : SgnForm) (d : Bool) (rs2 rs1 rd : Reg) (s : State) : Out :=
  let a := s.fr rs1; let b := s.fr rs2
  let sg := match form with
    | .plain => bitOf b (signPos d)
    | .n => !bitOf b (signPos d)
    | .x => bitOf a (signPos d) != bitOf b (signPos d)
  let v := setFld (if d then a else zext 32 a) (signPos d) 1 (bitNat sg)
  .next (s.fixedF rd v 0 1)

/-- `FCLASS` (R177). -/
def execFclass (d : Bool) (rs1 rd : Reg) (s : State) : Out :=
  .next (s.fixedX rd (BitVec.ofNat 64 (2 ^ fClass (fmtOf d) (asFp d (s.fr rs1)))) 1)

/-- `FMVX` (R178). -/
def execFmvx (d : Bool) (rs1 rd : Reg) (s : State) : Out := .next (s.fixedX rd (if d then s.fr rs1 else sext 32 (s.fr rs1)) 1)

/-- `FMVF` (R178). -/
def execFmvf (d : Bool) (rs1 rd : Reg) (s : State) : Out :=
  .next (s.fixedF rd (if d then s.xr rs1 else zext 32 (s.xr rs1)) 0 1)

/-- A fused form, rounded `DYN` (R179). -/
def State.fpFused (s : State) (negProd negC d : Bool) (rs3 rs2 rs1 rd : Reg) : State :=
  s.withMode 7 (fun m =>
    let (v, fl) := fMulAdd (fmtOf d) m negProd negC (asFp d (s.fr rs1)) (asFp d (s.fr rs2)) (asFp d (s.fr rs3))
    s.fixedF rd (fpWord d v) fl 5)

/-- `FMADD` (R179). -/
def execFmadd (d : Bool) (rs3 rs2 rs1 rd : Reg) (s : State) : Out := .next (s.fpFused false false d rs3 rs2 rs1 rd)

/-- `FMSUB` (R179). -/
def execFmsub (d : Bool) (rs3 rs2 rs1 rd : Reg) (s : State) : Out := .next (s.fpFused false true d rs3 rs2 rs1 rd)

/-- `FNMADD` (R179). -/
def execFnmadd (d : Bool) (rs3 rs2 rs1 rd : Reg) (s : State) : Out := .next (s.fpFused true true d rs3 rs2 rs1 rd)

/-- `FNMSUB` (R179). -/
def execFnmsub (d : Bool) (rs3 rs2 rs1 rd : Reg) (s : State) : Out := .next (s.fpFused true false d rs3 rs2 rs1 rd)

/-- Whether the floating-point side of a conversion is FP64 (R180). -/
def cvtD : CvtForm → Bool
  | .s_d => false | .d_s => true | .s_i => false | .s_n => false | .d_i => true | .d_n => true
  | .i_s => false | .n_s => false | .i_d => true | .n_d => true

/-- Whether the integer side is signed (R180). -/
def cvtSigned : CvtForm → Bool
  | .s_i | .d_i | .i_s | .i_d => true
  | _ => false

/-- `FCVT` (R180, R88); `.d.s` takes its mode too, so an illegal FRM faults (R55). -/
def execFcvt (form : CvtForm) (w : Bool) (rm : Rnd) (rs1 rd : Reg) (s : State) : Out :=
  let n := width w
  .next (s.withMode (rndCode rm) (fun m =>
    match form with
    | .s_d =>
      let (v, fl) := fConvert .f64 .f32 m (s.fr rs1).toNat
      s.fixedF rd (fpWord false v) fl 4
    | .d_s =>
      let (v, fl) := fConvert .f32 .f64 m (asFp false (s.fr rs1))
      s.fixedF rd (fpWord true v) fl 4
    | _ =>
      let d := cvtD form; let sg := cvtSigned form
      if form.toF then
        let i : Int := if sg then (sOpd w (s.xr rs1)).toInt else (zOpd w (s.xr rs1)).toNat
        let (v, fl) := intToF (fmtOf d) m i
        s.fixedF rd (fpWord d v) fl 4
      else
        let (i, fl) := valToInt m sg n ((fmtOf d).decode (asFp d (s.fr rs1)))
        s.fixedXF rd (intWord sg n i) fl 4))

end Sys2Proof.Machine
end

