-- ==== Sys2Proof/Machine/Steps.lean ====
section
/-! DEFINITION. The meaning of each step and event of the opcode table that no slot word encodes: it acts on the event being delivered
(`ev`), and does nothing when that is another (log entry 5). -/

namespace Sys2Proof.Machine

/-- The instruction that an event runs. -/
def eventInstr : Event → Instr
  | .fixedResultWriteback _ _ _ => .fixedResultWriteback
  | .variableResultWriteback _ _ _ _ _ _ _ => .variableResultWriteback
  | .accessLeavesQueue _ _ => .accessLeavesQueue
  | .codeFill _ _ _ => .codeFill
  | .load _ => .load
  | .store _ => .store
  | .atomic _ => .atomic
  | .arm _ => .arm
  | .armack _ _ => .armack
  | .pull _ => .pull
  | .record _ _ => .record
  | .data _ _ _ => .data
  | .release _ => .release
  | .releaseArrival _ _ => .releaseArrival
  | .framePush _ => .framePush
  | .fifoRingMove _ _ => .fifoRingMove
  | .framePop _ => .framePop
  | .refillComplete _ => .refillComplete
  | .trapEntry _ => .trapEntry
  | .frameLost _ _ => .frameLost
  | .migrationCommit _ => .migrationCommit
  | .forwardPacket _ => .forwardPacket
  | .starvationReport _ _ => .starvationReport
  | .active _ => .active
  | .delivery _ _ => .delivery
  | .handlerCommit _ _ => .handlerCommit
  | .escapeMove _ _ => .escapeMove
  | .routerPacketDiscard _ => .routerPacketDiscard
  | .fjarlinkPacket _ _ => .fjarlinkPacket
  | .streamFill _ _ _ => .streamFill
  | .streamWrite _ _ _ => .streamWrite
  | .slotLoadDone _ _ _ => .slotLoadDone
  | .slotWrite _ _ _ _ _ _ _ => .slotWrite
  | .slotWriteAck _ _ _ => .slotWrite
  | .gangFormation _ _ => .gangFormation
  | .passStart _ => .passStart
  | .passStep _ => .passStep
  | .drainJobStart _ => .drainJobStart
  | .drainJobDone _ => .drainJobDone
  | .solicitRequest _ => .solicitRequest
  | .censusLive => .censusLive
  | .epochMarkApply _ _ => .epochMarkApply
  | .solicitScan _ _ _ => .solicitScan
  | .coreAnswer _ _ _ => .coreAnswer
  | .answerFold _ _ _ _ => .answerFold
  | .remoteCensus _ => .remoteCensus
  | .censusResultWrite _ => .censusResultWrite
  | .censusComplete _ => .censusComplete
  | .tileReserve _ => .tileReserve
  | .tileCommit _ => .tileCommit
  | .tileCommitArrival _ _ _ => .tileCommitArrival
  | .barrierContribution _ => .barrierContribution
  | .copyRequest _ => .copyRequest
  | .copyAcceptance _ _ => .copyAcceptance
  | .copyDeferral _ => .copyDeferral
  | .copyReady _ _ => .copyReady
  | .transferBegin _ _ => .transferBegin
  | .transferComplete _ _ => .transferComplete
  | .transferFault _ _ _ _ => .transferFault
  | .bedrockRequest _ => .bedrockRequest
  | .bedrockAnswer _ _ => .bedrockAnswer
  | .groupSealed _ _ => .groupSealed
  | .groupOpened _ _ => .groupOpened
  | .refreshWindow => .refreshWindow
  | .carveoutUpdate _ _ _ _ _ => .carveoutUpdate
  | .carveoutAck _ => .carveoutUpdate
  | .carveoutSample _ => .carveoutSample
  | .rds _ => .rds
  | .rdo _ => .rdo
  | .upg _ => .upg
  | .wb _ => .wb
  | .rangeClaim _ => .rangeClaim
  | .claimwrite _ => .claimwrite
  | .claimend _ => .claimend
  | .snoop _ _ _ _ _ => .snoop
  | .snpresp _ _ _ _ _ _ _ _ _ => .snpresp
  | .coherentData _ _ _ _ => .coherentData
  | .homeAck _ _ => .homeAck
  | .cmo _ => .cmo
  | .transactionTaken _ => .transactionTaken
  | .homeRetry _ => .homeRetry
  | .replayTimeout _ => .replayTimeout
  | .graphStart _ _ _ _ => .graphStart
  | .graphGo _ _ _ => .graphGo
  | .nodeFire _ => .nodeFire
  | .token _ _ _ _ _ => .token
  | .nodeDone _ _ _ _ => .nodeDone
  | .firingCompletion _ _ _ => .firingCompletion
  | .cancelWalkStep _ _ _ _ _ _ _ _ => .cancelWalkStep
  | .instanceEnd _ _ _ => .instanceEnd
  | .gangWatchdog _ => .gangWatchdog
  | .eventResend _ => .eventResend
  | .censusResubmit _ => .censusResubmit
  | .dequePush _ _ => .dequePush
  | .pushAck _ => .dequePush
  | .joinMessage _ => .joinMessage
  | .stealAttempt _ => .stealAttempt
  | .stealRequest _ _ => .stealRequest
  | .stealGrant _ _ _ => .stealGrant
  | .terminationWave _ => .terminationWave
  | .waveAnswer _ _ _ _ _ => .waveAnswer
  | .terminationReport _ => .terminationReport
  | .guestSubmission _ => .guestSubmission
  | .jobDelivery => .jobDelivery
  | .preemptionAnswer _ => .preemptionAnswer
  | .guestCompletion _ _ _ _ => .guestCompletion
  | .translationRequest _ _ _ _ => .translationRequest
  | .invalidationAnswer _ => .invalidationAnswer
  | .poisonReport _ => .poisonReport
  | .guestIdentity _ _ _ _ _ => .guestIdentity
  | .trainingTimeout _ => .trainingTimeout
  | .dutyTimeout _ => .dutyTimeout
  | .powerReport _ => .powerReport
  | .tailDoorbell _ _ => .tailDoorbell
  | .cheadDoorbell _ _ => .cheadDoorbell
  | .queueEnable _ => .queueEnable
  | .queueDestroy _ => .queueDestroy
  | .doorbellEvent _ _ _ => .doorbellEvent
  | .queueControlEvent _ _ _ => .queueControlEvent
  | .queueRead _ => .queueRead
  | .queueData _ _ _ _ => .queueRead
  | .completionWrite _ _ _ _ => .completionWrite
  | .completionAck _ => .completionWrite
  | .registerStateUpdate _ => .registerStateUpdate
  | .launchRoot _ => .launchRoot
  | .launchGraph _ => .launchGraph
  | .queueCopy _ => .queueCopy
  | .signal _ => .signal
  | .waitQueue _ => .waitQueue
  | .bedrockOpen _ => .bedrockOpen
  | .bedrockSeal _ => .bedrockSeal
  | .swapAsid _ => .swapAsid
  | .quantumExpiry => .quantumExpiry
  | .packetPrefetch _ _ => .packetPrefetch
  | .bar2Read _ _ => .bar2Read
  | .bar2Write _ _ => .bar2Write
  | .moduleReset => .moduleReset
  | .deviceIdAssign _ => .deviceIdAssign
  | .throttleEvaluation _ _ _ => .throttleEvaluation
  | .thermalTrip => .thermalTrip
  | .lmScrub _ _ => .lmScrub
  | .getVersion => .getVersion
  | .getCapabilities => .getCapabilities
  | .negotiateAlgorithms => .negotiateAlgorithms
  | .getDigests => .getDigests
  | .getCertificate _ _ => .getCertificate
  | .challenge _ => .challenge
  | .getMeasurements _ _ => .getMeasurements
  | .sawRead _ => .sawRead
  | .sawDone _ _ => .sawDone
  | .registerWrite _ => .registerWrite
  | .clearOnRead _ => .clearOnRead
  | .hcinv _ => .hcinv
  | .tlbinv _ _ => .tlbinv
  | .icinv _ => .icinv
  | .corereset _ => .corereset
  | .gfclear _ => .gfclear
  | .recbusyClear _ => .recbusyClear
  | .monitorFree _ => .monitorFree
  | .lquotaWrite _ => .lquotaWrite
  | .cmaskWrite _ => .cmaskWrite
  | .slotstEmpty _ => .slotstEmpty
  | .settagFree _ => .settagFree
  | .svclear _ => .svclear
  | .censend _ => .censend
  | .barfree _ => .barfree
  | .cancel _ => .cancel
  | .rrctlWrite _ => .rrctlWrite
  | .rrpush _ => .rrpush
  | .rrpop _ => .rrpop
  | .slotend _ => .slotend
  | .joinctrFree _ => .joinctrFree
  | .tslotFree _ => .tslotFree
  | .gctlFence _ => .gctlFence
  | .gctlRetrain _ => .gctlRetrain
  | .jobcancel _ => .jobcancel
  | .pageWalkDone _ _ _ => .pageWalkDone
  | .handleEntryRead _ _ _ _ => .handleEntryRead
  | .snoopApply _ => .snoopApply
  | .lineDrop _ _ => .lineDrop
  | .hostAccessRequest _ => .hostAccessRequest
  | .nonPostedReadCompletion _ _ _ => .nonPostedReadCompletion

/-- `FIXED_RESULT_WRITEBACK` (R41): the event being delivered, when it is one. -/
def runFixedResultWriteback (s : State) : Out :=
  match s.ev with
  | some (.fixedResultWriteback ep win uid) => execFixedResultWriteback ep win uid s
  | _ => .next s

/-- `VARIABLE_RESULT_WRITEBACK` (R44): the event being delivered, when it is one. -/
def runVariableResultWriteback (s : State) : Out :=
  match s.ev with
  | some (.variableResultWriteback ep win fid uid val fl poison) => execVariableResultWriteback ep win fid uid val fl poison s
  | _ => .next s

/-- `ACCESS_LEAVES_QUEUE` (R172): the event being delivered, when it is one. -/
def runAccessLeavesQueue (s : State) : Out :=
  match s.ev with
  | some (.accessLeavesQueue ep id) => execAccessLeavesQueue ep id s
  | _ => .next s

/-- `CODE_FILL` (R194): the event being delivered, when it is one. -/
def runCodeFill (s : State) : Out :=
  match s.ev with
  | some (.codeFill ep asid va) => execCodeFill ep asid va s
  | _ => .next s

/-- `LOAD` (R236): the event being delivered, when it is one. -/
def runLoad (s : State) : Out :=
  match s.ev with
  | some (.load a) => execLoad a s
  | _ => .next s

/-- `STORE` (R236): the event being delivered, when it is one. -/
def runStore (s : State) : Out :=
  match s.ev with
  | some (.store a) => execStore a s
  | _ => .next s

/-- `ATOMIC` (R167): the event being delivered, when it is one. -/
def runAtomic (s : State) : Out :=
  match s.ev with
  | some (.atomic a) => execAtomic a s
  | _ => .next s

/-- `ARM` (R213): the event being delivered, when it is one. -/
def runArm (s : State) : Out :=
  match s.ev with
  | some (.arm q) => execArm q s
  | _ => .next s

/-- `ARMACK` (R213): the event being delivered, when it is one. -/
def runArmack (s : State) : Out :=
  match s.ev with
  | some (.armack q refused) => execArmack q refused s
  | _ => .next s

/-- `PULL` (R200): the event being delivered, when it is one. -/
def runPull (s : State) : Out :=
  match s.ev with
  | some (.pull r) => execPull r s
  | _ => .next s

/-- `RECORD` (R200): the event being delivered, when it is one. -/
def runRecord (s : State) : Out :=
  match s.ev with
  | some (.record r words) => execRecord r words s
  | _ => .next s

/-- `DATA` (R236): the event being delivered, when it is one. -/
def runData (s : State) : Out :=
  match s.ev with
  | some (.data a bytes poison) => execData a bytes poison s
  | _ => .next s

/-- `RELEASE` (R235): the event being delivered, when it is one. -/
def runRelease (s : State) : Out :=
  match s.ev with
  | some (.release r) => execRelease r s
  | _ => .next s

/-- `RELEASE_ARRIVAL` (R200): the event being delivered, when it is one. -/
def runReleaseArrival (s : State) : Out :=
  match s.ev with
  | some (.releaseArrival ep e) => execReleaseArrival ep e s
  | _ => .next s

/-- `FRAME_PUSH` (R208): the event being delivered, when it is one. -/
def runFramePush (s : State) : Out :=
  match s.ev with
  | some (.framePush ep) => execFramePush ep s
  | _ => .next s

/-- `FIFO_RING_MOVE` (R205): the event being delivered, when it is one. -/
def runFifoRingMove (s : State) : Out :=
  match s.ev with
  | some (.fifoRingMove ep level) => execFifoRingMove ep level s
  | _ => .next s

/-- `FRAME_POP` (R204): the event being delivered, when it is one. -/
def runFramePop (s : State) : Out :=
  match s.ev with
  | some (.framePop ep) => execFramePop ep s
  | _ => .next s

/-- `REFILL_COMPLETE` (R269): the event being delivered, when it is one. -/
def runRefillComplete (s : State) : Out :=
  match s.ev with
  | some (.refillComplete ep) => execRefillComplete ep s
  | _ => .next s

/-- `TRAP_ENTRY` (R215): the event being delivered, when it is one. -/
def runTrapEntry (s : State) : Out :=
  match s.ev with
  | some (.trapEntry ep) => execTrapEntry ep s
  | _ => .next s

/-- `FRAME_LOST` (R225): the event being delivered, when it is one. -/
def runFrameLost (s : State) : Out :=
  match s.ev with
  | some (.frameLost ep win) => execFrameLost ep win s
  | _ => .next s

/-- `MIGRATION_COMMIT` (R228): the event being delivered, when it is one. -/
def runMigrationCommit (s : State) : Out :=
  match s.ev with
  | some (.migrationCommit ep) => execMigrationCommit ep s
  | _ => .next s

/-- `FORWARD_PACKET` (R228): the event being delivered, when it is one. -/
def runForwardPacket (s : State) : Out :=
  match s.ev with
  | some (.forwardPacket k) => execForwardPacket k s
  | _ => .next s

/-- `STARVATION_REPORT` (R22): the event being delivered, when it is one. -/
def runStarvationReport (s : State) : Out :=
  match s.ev with
  | some (.starvationReport ep level) => execStarvationReport ep level s
  | _ => .next s

/-- `ACTIVE` (R249): the event being delivered, when it is one. -/
def runActive (s : State) : Out :=
  match s.ev with
  | some (.active m) => execActive m s
  | _ => .next s

/-- `DELIVERY` (R250): the event being delivered, when it is one. -/
def runDelivery (s : State) : Out :=
  match s.ev with
  | some (.delivery m status) => execDelivery m status s
  | _ => .next s

/-- `HANDLER_COMMIT` (R252): the event being delivered, when it is one. -/
def runHandlerCommit (s : State) : Out :=
  match s.ev with
  | some (.handlerCommit ep handler) => execHandlerCommit ep handler s
  | _ => .next s

/-- `ESCAPE_MOVE` (R241): the event being delivered, when it is one. -/
def runEscapeMove (s : State) : Out :=
  match s.ev with
  | some (.escapeMove k router) => execEscapeMove k router s
  | _ => .next s

/-- `ROUTER_PACKET_DISCARD` (R245): the event being delivered, when it is one. -/
def runRouterPacketDiscard (s : State) : Out :=
  match s.ev with
  | some (.routerPacketDiscard k) => execRouterPacketDiscard k s
  | _ => .next s

/-- `FJARLINK_PACKET` (R260): the event being delivered, when it is one. -/
def runFjarlinkPacket (s : State) : Out :=
  match s.ev with
  | some (.fjarlinkPacket port p) => execFjarlinkPacket port p s
  | _ => .next s

/-- `STREAM_FILL` (R284): the event being delivered, when it is one. -/
def runStreamFill (s : State) : Out :=
  match s.ev with
  | some (.streamFill ep win j) => execStreamFill ep win j s
  | _ => .next s

/-- `STREAM_WRITE` (R284): the event being delivered, when it is one. -/
def runStreamWrite (s : State) : Out :=
  match s.ev with
  | some (.streamWrite ep win j) => execStreamWrite ep win j s
  | _ => .next s

/-- `SLOT_LOAD_DONE` (R309): the event being delivered, when it is one. -/
def runSlotLoadDone (s : State) : Out :=
  match s.ev with
  | some (.slotLoadDone geode slot seq) => execSlotLoadDone geode slot seq s
  | _ => .next s

/-- `SLOT_WRITE` (R391): the event being delivered, when it is one. -/
def runSlotWrite (s : State) : Out :=
  match s.ev with
  | some (.slotWrite engine tid geode slot col off bytes) => execSlotWrite engine tid geode slot col off bytes s
  | some (.slotWriteAck engine tid n) => .next (s.slotWritten engine tid n)
  | _ => .next s

/-- `GANG_FORMATION` (R317): the event being delivered, when it is one. -/
def runGangFormation (s : State) : Out :=
  match s.ev with
  | some (.gangFormation geode seq) => execGangFormation geode seq s
  | _ => .next s

/-- `PASS_START` (R320): the event being delivered, when it is one. -/
def runPassStart (s : State) : Out :=
  match s.ev with
  | some (.passStart geode) => execPassStart geode s
  | _ => .next s

/-- `PASS_STEP` (R321): the event being delivered, when it is one. -/
def runPassStep (s : State) : Out :=
  match s.ev with
  | some (.passStep geode) => execPassStep geode s
  | _ => .next s

/-- `DRAIN_JOB_START` (R323): the event being delivered, when it is one. -/
def runDrainJobStart (s : State) : Out :=
  match s.ev with
  | some (.drainJobStart geode) => execDrainJobStart geode s
  | _ => .next s

/-- `DRAIN_JOB_DONE` (R325): the event being delivered, when it is one. -/
def runDrainJobDone (s : State) : Out :=
  match s.ev with
  | some (.drainJobDone geode) => execDrainJobDone geode s
  | _ => .next s

/-- `SOLICIT_REQUEST` (R344): the event being delivered, when it is one. -/
def runSolicitRequest (s : State) : Out :=
  match s.ev with
  | some (.solicitRequest q) => execSolicitRequest q s
  | _ => .next s

/-- `CENSUS_LIVE` (R344): the event being delivered, when it is one. -/
def runCensusLive (s : State) : Out :=
  match s.ev with
  | some .censusLive => execCensusLive s
  | _ => .next s

/-- `EPOCH_MARK_APPLY` (R360): the event being delivered, when it is one. -/
def runEpochMarkApply (s : State) : Out :=
  match s.ev with
  | some (.epochMarkApply ep mark) => execEpochMarkApply ep mark s
  | _ => .next s

/-- `SOLICIT_SCAN` (R345): the event being delivered, when it is one. -/
def runSolicitScan (s : State) : Out :=
  match s.ev with
  | some (.solicitScan ep asId q) => execSolicitScan ep asId q s
  | _ => .next s

/-- `CORE_ANSWER` (R347): the event being delivered, when it is one. -/
def runCoreAnswer (s : State) : Out :=
  match s.ev with
  | some (.coreAnswer ep asId census) => execCoreAnswer ep asId census s
  | _ => .next s

/-- `ANSWER_FOLD` (R350): the event being delivered, when it is one. -/
def runAnswerFold (s : State) : Out :=
  match s.ev with
  | some (.answerFold node census child a) => execAnswerFold node census child a s
  | _ => .next s

/-- `REMOTE_CENSUS` (R351): the event being delivered, when it is one. -/
def runRemoteCensus (s : State) : Out :=
  match s.ev with
  | some (.remoteCensus q) => execRemoteCensus q s
  | _ => .next s

/-- `CENSUS_RESULT_WRITE` (R352): the event being delivered, when it is one. -/
def runCensusResultWrite (s : State) : Out :=
  match s.ev with
  | some (.censusResultWrite census) => execCensusResultWrite census s
  | _ => .next s

/-- `CENSUS_COMPLETE` (R362): the event being delivered, when it is one. -/
def runCensusComplete (s : State) : Out :=
  match s.ev with
  | some (.censusComplete census) => execCensusComplete census s
  | _ => .next s

/-- `TILE_RESERVE` (R356): the event being delivered, when it is one. -/
def runTileReserve (s : State) : Out :=
  match s.ev with
  | some (.tileReserve m) => execTileReserve m s
  | _ => .next s

/-- `TILE_COMMIT` (R356): the event being delivered, when it is one. -/
def runTileCommit (s : State) : Out :=
  match s.ev with
  | some (.tileCommit m) => execTileCommit m s
  | _ => .next s

/-- `TILE_COMMIT_ARRIVAL` (R356): the event being delivered, when it is one. -/
def runTileCommitArrival (s : State) : Out :=
  match s.ev with
  | some (.tileCommitArrival m stamp sv) => execTileCommitArrival m stamp sv s
  | _ => .next s

/-- `BARRIER_CONTRIBUTION` (R363): the event being delivered, when it is one. -/
def runBarrierContribution (s : State) : Out :=
  match s.ev with
  | some (.barrierContribution q) => execBarrierContribution q s
  | _ => .next s

/-- `COPY_REQUEST` (R373): the event being delivered, when it is one. -/
def runCopyRequest (s : State) : Out :=
  match s.ev with
  | some (.copyRequest q) => execCopyRequest q s
  | _ => .next s

/-- `COPY_ACCEPTANCE` (R373): the event being delivered, when it is one. -/
def runCopyAcceptance (s : State) : Out :=
  match s.ev with
  | some (.copyAcceptance q tid) => execCopyAcceptance q tid s
  | _ => .next s

/-- `COPY_DEFERRAL` (R391): the event being delivered, when it is one. -/
def runCopyDeferral (s : State) : Out :=
  match s.ev with
  | some (.copyDeferral q) => execCopyDeferral q s
  | _ => .next s

/-- `COPY_READY` (R391): the event being delivered, when it is one. -/
def runCopyReady (s : State) : Out :=
  match s.ev with
  | some (.copyReady ep entry) => execCopyReady ep entry s
  | _ => .next s

/-- `TRANSFER_BEGIN` (R374): the event being delivered, when it is one. -/
def runTransferBegin (s : State) : Out :=
  match s.ev with
  | some (.transferBegin engine tid) => execTransferBegin engine tid s
  | _ => .next s

/-- `TRANSFER_COMPLETE` (R374): the event being delivered, when it is one. -/
def runTransferComplete (s : State) : Out :=
  match s.ev with
  | some (.transferComplete engine tid) => execTransferComplete engine tid s
  | _ => .next s

/-- `TRANSFER_FAULT` (R376): the event being delivered, when it is one. -/
def runTransferFault (s : State) : Out :=
  match s.ev with
  | some (.transferFault engine tid kind addr) => execTransferFault engine tid kind addr s
  | _ => .next s

/-- `BEDROCK_REQUEST` (R385): the event being delivered, when it is one. -/
def runBedrockRequest (s : State) : Out :=
  match s.ev with
  | some (.bedrockRequest q) => execBedrockRequest q s
  | _ => .next s

/-- `BEDROCK_ANSWER` (R385): the event being delivered, when it is one. -/
def runBedrockAnswer (s : State) : Out :=
  match s.ev with
  | some (.bedrockAnswer q code) => execBedrockAnswer q code s
  | _ => .next s

/-- `GROUP_SEALED` (R384): the event being delivered, when it is one. -/
def runGroupSealed (s : State) : Out :=
  match s.ev with
  | some (.groupSealed slab group) => execGroupSealed slab group s
  | _ => .next s

/-- `GROUP_OPENED` (R384): the event being delivered, when it is one. -/
def runGroupOpened (s : State) : Out :=
  match s.ev with
  | some (.groupOpened slab group) => execGroupOpened slab group s
  | _ => .next s

/-- `REFRESH_WINDOW` (R387): the event being delivered, when it is one. -/
def runRefreshWindow (s : State) : Out :=
  match s.ev with
  | some .refreshWindow => execRefreshWindow s
  | _ => .next s

/-- `CARVEOUT_UPDATE` (R390): the event being delivered, when it is one. -/
def runCarveoutUpdate (s : State) : Out :=
  match s.ev with
  | some (.carveoutUpdate home core _ _ _) => execCarveoutUpdate home core s
  | _ => .next s

/-- `CARVEOUT_SAMPLE` (R131): the event being delivered, when it is one. -/
def runCarveoutSample (s : State) : Out :=
  match s.ev with
  | some (.carveoutSample home) => execCarveoutSample home s
  | _ => .next s

/-- `RDS` (R401): the event being delivered, when it is one. -/
def runRds (s : State) : Out :=
  match s.ev with
  | some (.rds q) => execRds q s
  | _ => .next s

/-- `RDO` (R401): the event being delivered, when it is one. -/
def runRdo (s : State) : Out :=
  match s.ev with
  | some (.rdo q) => execRdo q s
  | _ => .next s

/-- `UPG` (R401): the event being delivered, when it is one. -/
def runUpg (s : State) : Out :=
  match s.ev with
  | some (.upg q) => execUpg q s
  | _ => .next s

/-- `WB` (R401): the event being delivered, when it is one. -/
def runWb (s : State) : Out :=
  match s.ev with
  | some (.wb q) => execWb q s
  | _ => .next s

/-- `RANGE_CLAIM` (R410): the event being delivered, when it is one. -/
def runRangeClaim (s : State) : Out :=
  match s.ev with
  | some (.rangeClaim q) => execRangeClaim q s
  | _ => .next s

/-- `CLAIMWRITE` (R411): the event being delivered, when it is one. -/
def runClaimwrite (s : State) : Out :=
  match s.ev with
  | some (.claimwrite q) => execClaimwrite q s
  | _ => .next s

/-- `CLAIMEND` (R411): the event being delivered, when it is one. -/
def runClaimend (s : State) : Out :=
  match s.ev with
  | some (.claimend q) => execClaimend q s
  | _ => .next s

/-- `SNOOP` (R402): the event being delivered, when it is one. -/
def runSnoop (s : State) : Out :=
  match s.ev with
  | some (.snoop home agent line ty by') => execSnoop home agent line ty by' s
  | _ => .next s

/-- `SNPRESP` (R401): the event being delivered, when it is one. -/
def runSnpresp (s : State) : Out :=
  match s.ev with
  | some (.snpresp home agent line held data poison noalloc pin _) => execSnpresp home agent line held data poison noalloc pin s
  | _ => .next s

/-- `COHERENT_DATA` (R401): the event being delivered, when it is one. -/
def runCoherentData (s : State) : Out :=
  match s.ev with
  | some (.coherentData q grant data poison) => execCoherentData q grant data poison s
  | _ => .next s

/-- `HOME_ACK` (R400): the event being delivered, when it is one. -/
def runHomeAck (s : State) : Out :=
  match s.ev with
  | some (.homeAck q dirty) => execHomeAck q dirty s
  | _ => .next s

/-- `CMO` (R415): the event being delivered, when it is one. -/
def runCmo (s : State) : Out :=
  match s.ev with
  | some (.cmo q) => execCmo q s
  | _ => .next s

/-- `TRANSACTION_TAKEN` (R403): the event being delivered, when it is one. -/
def runTransactionTaken (s : State) : Out :=
  match s.ev with
  | some (.transactionTaken home) => execTransactionTaken home s
  | _ => .next s

/-- `HOME_RETRY` (R403): the event being delivered, when it is one. -/
def runHomeRetry (s : State) : Out :=
  match s.ev with
  | some (.homeRetry q) => execHomeRetry q s
  | _ => .next s

/-- `REPLAY_TIMEOUT` (R421): the event being delivered, when it is one. -/
def runReplayTimeout (s : State) : Out :=
  match s.ev with
  | some (.replayTimeout port) => execReplayTimeout port s
  | _ => .next s

/-- `GRAPH_START` (R433): the event being delivered, when it is one. -/
def runGraphStart (s : State) : Out :=
  match s.ev with
  | some (.graphStart slot gen slab phase) => execGraphStart slot gen slab phase s
  | _ => .next s

/-- `GRAPH_GO` (R433): the event being delivered, when it is one. -/
def runGraphGo (s : State) : Out :=
  match s.ev with
  | some (.graphGo slot gen slab) => execGraphGo slot gen slab s
  | _ => .next s

/-- `NODE_FIRE` (R435): the event being delivered, when it is one. -/
def runNodeFire (s : State) : Out :=
  match s.ev with
  | some (.nodeFire slab) => execNodeFire slab s
  | _ => .next s

/-- `TOKEN` (R441): the event being delivered, when it is one. -/
def runToken (s : State) : Out :=
  match s.ev with
  | some (.token slab slot gen edge src) => execToken slab slot gen edge src s
  | _ => .next s

/-- `NODE_DONE` (R439): the event being delivered, when it is one. -/
def runNodeDone (s : State) : Out :=
  match s.ev with
  | some (.nodeDone f core status detail) => execNodeDone f core status detail s
  | _ => .next s

/-- `FIRING_COMPLETION` (R437): the event being delivered, when it is one. -/
def runFiringCompletion (s : State) : Out :=
  match s.ev with
  | some (.firingCompletion f status detail) => execFiringCompletion f status detail s
  | _ => .next s

/-- `CANCEL_WALK_STEP` (R443): the event being delivered, when it is one. -/
def runCancelWalkStep (s : State) : Out :=
  match s.ev with
  | some (.cancelWalkStep slot gen sl todo level seen cone ended) => execCancelWalkStep slot gen sl todo level seen cone ended s
  | _ => .next s

/-- `INSTANCE_END` (R449): the event being delivered, when it is one. -/
def runInstanceEnd (s : State) : Out :=
  match s.ev with
  | some (.instanceEnd slot gen owner) => execInstanceEnd slot gen owner s
  | _ => .next s

/-- `GANG_WATCHDOG` (R445): the event being delivered, when it is one. -/
def runGangWatchdog (s : State) : Out :=
  match s.ev with
  | some (.gangWatchdog f) => execGangWatchdog f s
  | _ => .next s

/-- `EVENT_RESEND` (R446): the event being delivered, when it is one. -/
def runEventResend (s : State) : Out :=
  match s.ev with
  | some (.eventResend slab) => execEventResend slab s
  | _ => .next s

/-- `CENSUS_RESUBMIT` (R437): the event being delivered, when it is one. -/
def runCensusResubmit (s : State) : Out :=
  match s.ev with
  | some (.censusResubmit q) => execCensusResubmit q s
  | _ => .next s

/-- `DEQUE_PUSH` (R461): the event being delivered, when it is one. -/
def runDequePush (s : State) : Out :=
  match s.ev with
  | some (.dequePush ep c) => execDequePush ep c s
  | some (.pushAck r) => .next (s.pushAcked r)
  | _ => .next s

/-- `JOIN_MESSAGE` (R465): the event being delivered, when it is one. -/
def runJoinMessage (s : State) : Out :=
  match s.ev with
  | some (.joinMessage m) => execJoinMessage m s
  | _ => .next s

/-- `STEAL_ATTEMPT` (R466): the event being delivered, when it is one. -/
def runStealAttempt (s : State) : Out :=
  match s.ev with
  | some (.stealAttempt ep) => execStealAttempt ep s
  | _ => .next s

/-- `STEAL_REQUEST` (R467): the event being delivered, when it is one. -/
def runStealRequest (s : State) : Out :=
  match s.ev with
  | some (.stealRequest thief victim) => execStealRequest thief victim s
  | _ => .next s

/-- `STEAL_GRANT` (R467): the event being delivered, when it is one. -/
def runStealGrant (s : State) : Out :=
  match s.ev with
  | some (.stealGrant thief victim c) => execStealGrant thief victim c s
  | _ => .next s

/-- `TERMINATION_WAVE` (R471): the event being delivered, when it is one. -/
def runTerminationWave (s : State) : Out :=
  match s.ev with
  | some (.terminationWave ep) => execTerminationWave ep s
  | _ => .next s

/-- `WAVE_ANSWER` (R471): the event being delivered, when it is one. -/
def runWaveAnswer (s : State) : Out :=
  match s.ev with
  | some (.waveAnswer ep child idle sent recv) => execWaveAnswer ep child idle sent recv s
  | _ => .next s

/-- `TERMINATION_REPORT` (R471): the event being delivered, when it is one. -/
def runTerminationReport (s : State) : Out :=
  match s.ev with
  | some (.terminationReport slot) => execTerminationReport slot s
  | _ => .next s

/-- `GUEST_SUBMISSION` (R480): the event being delivered, when it is one. -/
def runGuestSubmission (s : State) : Out :=
  match s.ev with
  | some (.guestSubmission j) => execGuestSubmission j s
  | _ => .next s

/-- `JOB_DELIVERY` (R480): the event being delivered, when it is one. -/
def runJobDelivery (s : State) : Out :=
  match s.ev with
  | some .jobDelivery => execJobDelivery s
  | _ => .next s

/-- `PREEMPTION_ANSWER` (R490): the event being delivered, when it is one. -/
def runPreemptionAnswer (s : State) : Out :=
  match s.ev with
  | some (.preemptionAnswer level) => execPreemptionAnswer level s
  | _ => .next s

/-- `GUEST_COMPLETION` (R481): the event being delivered, when it is one. -/
def runGuestCompletion (s : State) : Out :=
  match s.ev with
  | some (.guestCompletion job gst code va) => execGuestCompletion job gst code va s
  | _ => .next s

/-- `TRANSLATION_REQUEST` (R484): the event being delivered, when it is one. -/
def runTranslationRequest (s : State) : Out :=
  match s.ev with
  | some (.translationRequest job va write atomic) => execTranslationRequest job va write atomic s
  | _ => .next s

/-- `INVALIDATION_ANSWER` (R485): the event being delivered, when it is one. -/
def runInvalidationAnswer (s : State) : Out :=
  match s.ev with
  | some (.invalidationAnswer grant) => execInvalidationAnswer grant s
  | _ => .next s

/-- `POISON_REPORT` (R486): the event being delivered, when it is one. -/
def runPoisonReport (s : State) : Out :=
  match s.ev with
  | some (.poisonReport line) => execPoisonReport line s
  | _ => .next s

/-- `GUEST_IDENTITY` (R487): the event being delivered, when it is one. -/
def runGuestIdentity (s : State) : Out :=
  match s.ev with
  | some (.guestIdentity vendor part credits modules watts) => execGuestIdentity vendor part credits modules watts s
  | _ => .next s

/-- `TRAINING_TIMEOUT` (R487): the event being delivered, when it is one. -/
def runTrainingTimeout (s : State) : Out :=
  match s.ev with
  | some (.trainingTimeout modules) => execTrainingTimeout modules s
  | _ => .next s

/-- `DUTY_TIMEOUT` (R488): the event being delivered, when it is one. -/
def runDutyTimeout (s : State) : Out :=
  match s.ev with
  | some (.dutyTimeout reason) => execDutyTimeout reason s
  | _ => .next s

/-- `POWER_REPORT` (R492): the event being delivered, when it is one. -/
def runPowerReport (s : State) : Out :=
  match s.ev with
  | some (.powerReport watts) => execPowerReport watts s
  | _ => .next s

/-- `TAIL_DOORBELL` (R503): the event being delivered, when it is one. -/
def runTailDoorbell (s : State) : Out :=
  match s.ev with
  | some (.tailDoorbell q v) => execTailDoorbell q v s
  | _ => .next s

/-- `CHEAD_DOORBELL` (R503): the event being delivered, when it is one. -/
def runCheadDoorbell (s : State) : Out :=
  match s.ev with
  | some (.cheadDoorbell q v) => execCheadDoorbell q v s
  | _ => .next s

/-- `QUEUE_ENABLE` (R505): the event being delivered, when it is one. -/
def runQueueEnable (s : State) : Out :=
  match s.ev with
  | some (.queueEnable q) => execQueueEnable q s
  | _ => .next s

/-- `QUEUE_DESTROY` (R505): the event being delivered, when it is one. -/
def runQueueDestroy (s : State) : Out :=
  match s.ev with
  | some (.queueDestroy q) => execQueueDestroy q s
  | _ => .next s

/-- `DOORBELL_EVENT` (R509): the event being delivered, when it is one. -/
def runDoorbellEvent (s : State) : Out :=
  match s.ev with
  | some (.doorbellEvent q chead v) => execDoorbellEvent q chead v s
  | _ => .next s

/-- `QUEUE_CONTROL_EVENT` (R509): the event being delivered, when it is one. -/
def runQueueControlEvent (s : State) : Out :=
  match s.ev with
  | some (.queueControlEvent q off v) => execQueueControlEvent q off v s
  | _ => .next s

/-- `QUEUE_READ` (R509): the event being delivered, when it is one. -/
def runQueueRead (s : State) : Out :=
  match s.ev with
  | some (.queueRead q) => execQueueRead q s
  | some (.queueData q n w _) => .next (s.queueTake q n w)
  | _ => .next s

/-- `COMPLETION_WRITE` (R504): the event being delivered, when it is one. -/
def runCompletionWrite (s : State) : Out :=
  match s.ev with
  | some (.completionWrite q packet status detail) => execCompletionWrite q packet status detail s
  | some (.completionAck q) => .next (s.completionDone q)
  | _ => .next s

/-- `REGISTER_STATE_UPDATE` (R509): the event being delivered, when it is one. -/
def runRegisterStateUpdate (s : State) : Out :=
  match s.ev with
  | some (.registerStateUpdate q) => execRegisterStateUpdate q s
  | _ => .next s

/-- `LAUNCH_ROOT` (R502): the event being delivered, when it is one. -/
def runLaunchRoot (s : State) : Out :=
  match s.ev with
  | some (.launchRoot q) => execLaunchRoot q s
  | _ => .next s

/-- `LAUNCH_GRAPH` (R502): the event being delivered, when it is one. -/
def runLaunchGraph (s : State) : Out :=
  match s.ev with
  | some (.launchGraph q) => execLaunchGraph q s
  | _ => .next s

/-- `QUEUE_COPY` (R502): the event being delivered, when it is one. -/
def runQueueCopy (s : State) : Out :=
  match s.ev with
  | some (.queueCopy q) => execQueueCopy q s
  | _ => .next s

/-- `SIGNAL` (R502): the event being delivered, when it is one. -/
def runSignal (s : State) : Out :=
  match s.ev with
  | some (.signal q) => execSignal q s
  | _ => .next s

/-- `WAIT_QUEUE` (R502): the event being delivered, when it is one. -/
def runWaitQueue (s : State) : Out :=
  match s.ev with
  | some (.waitQueue q) => execWaitQueue q s
  | _ => .next s

/-- `BEDROCK_OPEN` (R502): the event being delivered, when it is one. -/
def runBedrockOpen (s : State) : Out :=
  match s.ev with
  | some (.bedrockOpen q) => execBedrockOpen q s
  | _ => .next s

/-- `BEDROCK_SEAL` (R502): the event being delivered, when it is one. -/
def runBedrockSeal (s : State) : Out :=
  match s.ev with
  | some (.bedrockSeal q) => execBedrockSeal q s
  | _ => .next s

/-- `SWAP_ASID` (R502): the event being delivered, when it is one. -/
def runSwapAsid (s : State) : Out :=
  match s.ev with
  | some (.swapAsid q) => execSwapAsid q s
  | _ => .next s

/-- `QUANTUM_EXPIRY` (R507): the event being delivered, when it is one. -/
def runQuantumExpiry (s : State) : Out :=
  match s.ev with
  | some .quantumExpiry => execQuantumExpiry s
  | _ => .next s

/-- `PACKET_PREFETCH` (R508): the event being delivered, when it is one. -/
def runPacketPrefetch (s : State) : Out :=
  match s.ev with
  | some (.packetPrefetch q k) => execPacketPrefetch q k s
  | _ => .next s

/-- `BAR2_READ` (R496): the event being delivered, when it is one. -/
def runBar2Read (s : State) : Out :=
  match s.ev with
  | some (.bar2Read addr n) => execBar2Read addr n s
  | _ => .next s

/-- `BAR2_WRITE` (R496): the event being delivered, when it is one. -/
def runBar2Write (s : State) : Out :=
  match s.ev with
  | some (.bar2Write addr bytes) => execBar2Write addr bytes s
  | _ => .next s

/-- `MODULE_RESET` (R515): the event being delivered, when it is one. -/
def runModuleReset (s : State) : Out :=
  match s.ev with
  | some .moduleReset => execModuleReset s
  | _ => .next s

/-- `DEVICE_ID_ASSIGN` (R516): the event being delivered, when it is one. -/
def runDeviceIdAssign (s : State) : Out :=
  match s.ev with
  | some (.deviceIdAssign id) => execDeviceIdAssign id s
  | _ => .next s

/-- `THROTTLE_EVALUATION` (R521): the event being delivered, when it is one. -/
def runThrottleEvaluation (s : State) : Out :=
  match s.ev with
  | some (.throttleEvaluation watts temp die) => execThrottleEvaluation watts temp die s
  | _ => .next s

/-- `THERMAL_TRIP` (R519): the event being delivered, when it is one. -/
def runThermalTrip (s : State) : Out :=
  match s.ev with
  | some .thermalTrip => execThermalTrip s
  | _ => .next s

/-- `LM_SCRUB` (R522): the event being delivered, when it is one. -/
def runLmScrub (s : State) : Out :=
  match s.ev with
  | some (.lmScrub ep corrected) => execLmScrub ep corrected s
  | _ => .next s

/-- `GET_VERSION` (R523): the event being delivered, when it is one. -/
def runGetVersion (s : State) : Out :=
  match s.ev with
  | some .getVersion => execGetVersion s
  | _ => .next s

/-- `GET_CAPABILITIES` (R523): the event being delivered, when it is one. -/
def runGetCapabilities (s : State) : Out :=
  match s.ev with
  | some .getCapabilities => execGetCapabilities s
  | _ => .next s

/-- `NEGOTIATE_ALGORITHMS` (R523): the event being delivered, when it is one. -/
def runNegotiateAlgorithms (s : State) : Out :=
  match s.ev with
  | some .negotiateAlgorithms => execNegotiateAlgorithms s
  | _ => .next s

/-- `GET_DIGESTS` (R523): the event being delivered, when it is one. -/
def runGetDigests (s : State) : Out :=
  match s.ev with
  | some .getDigests => execGetDigests s
  | _ => .next s

/-- `GET_CERTIFICATE` (R523): the event being delivered, when it is one. -/
def runGetCertificate (s : State) : Out :=
  match s.ev with
  | some (.getCertificate off n) => execGetCertificate off n s
  | _ => .next s

/-- `CHALLENGE` (R523): the event being delivered, when it is one. -/
def runChallenge (s : State) : Out :=
  match s.ev with
  | some (.challenge nonce) => execChallenge nonce s
  | _ => .next s

/-- `GET_MEASUREMENTS` (R523): the event being delivered, when it is one. -/
def runGetMeasurements (s : State) : Out :=
  match s.ev with
  | some (.getMeasurements index nonce) => execGetMeasurements index nonce s
  | _ => .next s

/-- `SAW_READ` (R526): the event being delivered, when it is one. -/
def runSawRead (s : State) : Out :=
  match s.ev with
  | some (.sawRead q) => execSawRead q s
  | _ => .next s

/-- `SAW_DONE` (R526): the event being delivered, when it is one. -/
def runSawDone (s : State) : Out :=
  match s.ev with
  | some (.sawDone q err) => execSawDone q err s
  | _ => .next s

/-- `REGISTER_WRITE` (R4): the event being delivered, when it is one. -/
def runRegisterWrite (s : State) : Out :=
  match s.ev with
  | some (.registerWrite w) => execRegisterWrite w s
  | _ => .next s

/-- `CLEAR_ON_READ` (R4): the event being delivered, when it is one. -/
def runClearOnRead (s : State) : Out :=
  match s.ev with
  | some (.clearOnRead r) => execClearOnRead r s
  | _ => .next s

/-- `HCINV` (R117): the event being delivered, when it is one. -/
def runHcinv (s : State) : Out :=
  match s.ev with
  | some (.hcinv q) => execHcinv q s
  | _ => .next s

/-- `TLBINV` (R126): the event being delivered, when it is one. -/
def runTlbinv (s : State) : Out :=
  match s.ev with
  | some (.tlbinv q r) => execTlbinv q r s
  | _ => .next s

/-- `ICINV` (R148): the event being delivered, when it is one. -/
def runIcinv (s : State) : Out :=
  match s.ev with
  | some (.icinv q) => execIcinv q s
  | _ => .next s

/-- `CORERESET` (R525): the event being delivered, when it is one. -/
def runCorereset (s : State) : Out :=
  match s.ev with
  | some (.corereset q) => execCorereset q s
  | _ => .next s

/-- `GFCLEAR` (R525): the event being delivered, when it is one. -/
def runGfclear (s : State) : Out :=
  match s.ev with
  | some (.gfclear q) => execGfclear q s
  | _ => .next s

/-- `RECBUSY_CLEAR` (R196): the event being delivered, when it is one. -/
def runRecbusyClear (s : State) : Out :=
  match s.ev with
  | some (.recbusyClear q) => execRecbusyClear q s
  | _ => .next s

/-- `MONITOR_FREE` (R230): the event being delivered, when it is one. -/
def runMonitorFree (s : State) : Out :=
  match s.ev with
  | some (.monitorFree q) => execMonitorFree q s
  | _ => .next s

/-- `LQUOTA_WRITE` (R263): the event being delivered, when it is one. -/
def runLquotaWrite (s : State) : Out :=
  match s.ev with
  | some (.lquotaWrite q) => execLquotaWrite q s
  | _ => .next s

/-- `CMASK_WRITE` (R331): the event being delivered, when it is one. -/
def runCmaskWrite (s : State) : Out :=
  match s.ev with
  | some (.cmaskWrite q) => execCmaskWrite q s
  | _ => .next s

/-- `SLOTST_EMPTY` (R309): the event being delivered, when it is one. -/
def runSlotstEmpty (s : State) : Out :=
  match s.ev with
  | some (.slotstEmpty q) => execSlotstEmpty q s
  | _ => .next s

/-- `SETTAG_FREE` (R334): the event being delivered, when it is one. -/
def runSettagFree (s : State) : Out :=
  match s.ev with
  | some (.settagFree q) => execSettagFree q s
  | _ => .next s

/-- `SVCLEAR` (R365): the event being delivered, when it is one. -/
def runSvclear (s : State) : Out :=
  match s.ev with
  | some (.svclear q) => execSvclear q s
  | _ => .next s

/-- `CENSEND` (R354): the event being delivered, when it is one. -/
def runCensend (s : State) : Out :=
  match s.ev with
  | some (.censend q) => execCensend q s
  | _ => .next s

/-- `BARFREE` (R363): the event being delivered, when it is one. -/
def runBarfree (s : State) : Out :=
  match s.ev with
  | some (.barfree q) => execBarfree q s
  | _ => .next s

/-- `CANCEL` (R393): the event being delivered, when it is one. -/
def runCancel (s : State) : Out :=
  match s.ev with
  | some (.cancel q) => execCancel q s
  | _ => .next s

/-- `RRCTL_WRITE` (R422): the event being delivered, when it is one. -/
def runRrctlWrite (s : State) : Out :=
  match s.ev with
  | some (.rrctlWrite q) => execRrctlWrite q s
  | _ => .next s

/-- `RRPUSH` (R420): the event being delivered, when it is one. -/
def runRrpush (s : State) : Out :=
  match s.ev with
  | some (.rrpush q) => execRrpush q s
  | _ => .next s

/-- `RRPOP` (R419): the event being delivered, when it is one. -/
def runRrpop (s : State) : Out :=
  match s.ev with
  | some (.rrpop q) => execRrpop q s
  | _ => .next s

/-- `SLOTEND` (R456): the event being delivered, when it is one. -/
def runSlotend (s : State) : Out :=
  match s.ev with
  | some (.slotend q) => execSlotend q s
  | _ => .next s

/-- `JOINCTR_FREE` (R460): the event being delivered, when it is one. -/
def runJoinctrFree (s : State) : Out :=
  match s.ev with
  | some (.joinctrFree q) => execJoinctrFree q s
  | _ => .next s

/-- `TSLOT_FREE` (R475): the event being delivered, when it is one. -/
def runTslotFree (s : State) : Out :=
  match s.ev with
  | some (.tslotFree q) => execTslotFree q s
  | _ => .next s

/-- `GCTL_FENCE` (R487): the event being delivered, when it is one. -/
def runGctlFence (s : State) : Out :=
  match s.ev with
  | some (.gctlFence q) => execGctlFence q s
  | _ => .next s

/-- `GCTL_RETRAIN` (R487): the event being delivered, when it is one. -/
def runGctlRetrain (s : State) : Out :=
  match s.ev with
  | some (.gctlRetrain q) => execGctlRetrain q s
  | _ => .next s

/-- `JOBCANCEL` (R493): the event being delivered, when it is one. -/
def runJobcancel (s : State) : Out :=
  match s.ev with
  | some (.jobcancel q) => execJobcancel q s
  | _ => .next s

/-- `PAGE_WALK_DONE` (R122): the event being delivered, when it is one. -/
def runPageWalkDone (s : State) : Out :=
  match s.ev with
  | some (.pageWalkDone ep asid va) => execPageWalkDone ep asid va s
  | _ => .next s

/-- `HANDLE_ENTRY_READ` (R185): the event being delivered, when it is one. -/
def runHandleEntryRead (s : State) : Out :=
  match s.ev with
  | some (.handleEntryRead ep win asid index) => execHandleEntryRead ep win asid index s
  | _ => .next s

/-- `SNOOP_APPLY` (R405): the event being delivered, when it is one. -/
def runSnoopApply (s : State) : Out :=
  match s.ev with
  | some (.snoopApply ep) => execSnoopApply ep s
  | _ => .next s

/-- `LINE_DROP` (R398): the event being delivered, when it is one. -/
def runLineDrop (s : State) : Out :=
  match s.ev with
  | some (.lineDrop ep line) => execLineDrop ep line s
  | _ => .next s

/-- `HOST_ACCESS_REQUEST` (R145): the event being delivered, when it is one. -/
def runHostAccessRequest (s : State) : Out :=
  match s.ev with
  | some (.hostAccessRequest a) => execHostAccessRequest a s
  | _ => .next s

/-- `NON_POSTED_READ_COMPLETION` (R145): the event being delivered, when it is one. -/
def runNonPostedReadCompletion (s : State) : Out :=
  match s.ev with
  | some (.nonPostedReadCompletion a bytes poison) => execNonPostedReadCompletion a bytes poison s
  | _ => .next s

end Sys2Proof.Machine
end

