-- ==== Sys2Proof/Machine/Dispatch.lean ====
section
/-! DEFINITION. The meaning of every instruction: one arm per constructor, one direct call each. -/

namespace Sys2Proof.Machine

def exec (i : Instr) (s : State) : Host.Outcome State Fault Refusal :=
  match i with
  | .add w rs2 rs1 rd => Sys2Proof.Machine.execAdd w rs2 rs1 rd s
  | .sub w rs2 rs1 rd => Sys2Proof.Machine.execSub w rs2 rs1 rd s
  | .and w rs2 rs1 rd => Sys2Proof.Machine.execAnd w rs2 rs1 rd s
  | .or w rs2 rs1 rd => Sys2Proof.Machine.execOr w rs2 rs1 rd s
  | .xor w rs2 rs1 rd => Sys2Proof.Machine.execXor w rs2 rs1 rd s
  | .andn w rs2 rs1 rd => Sys2Proof.Machine.execAndn w rs2 rs1 rd s
  | .sll w rs2 rs1 rd => Sys2Proof.Machine.execSll w rs2 rs1 rd s
  | .srl w rs2 rs1 rd => Sys2Proof.Machine.execSrl w rs2 rs1 rd s
  | .sra w rs2 rs1 rd => Sys2Proof.Machine.execSra w rs2 rs1 rd s
  | .slt w rs2 rs1 rd => Sys2Proof.Machine.execSlt w rs2 rs1 rd s
  | .sltn w rs2 rs1 rd => Sys2Proof.Machine.execSltn w rs2 rs1 rd s
  | .min w rs2 rs1 rd => Sys2Proof.Machine.execMin w rs2 rs1 rd s
  | .max w rs2 rs1 rd => Sys2Proof.Machine.execMax w rs2 rs1 rd s
  | .minn w rs2 rs1 rd => Sys2Proof.Machine.execMinn w rs2 rs1 rd s
  | .maxn w rs2 rs1 rd => Sys2Proof.Machine.execMaxn w rs2 rs1 rd s
  | .mul w rs2 rs1 rd => Sys2Proof.Machine.execMul w rs2 rs1 rd s
  | .mulh rs2 rs1 rd => Sys2Proof.Machine.execMulh rs2 rs1 rd s
  | .mulhn rs2 rs1 rd => Sys2Proof.Machine.execMulhn rs2 rs1 rd s
  | .div w rs2 rs1 rd => Sys2Proof.Machine.execDiv w rs2 rs1 rd s
  | .divn w rs2 rs1 rd => Sys2Proof.Machine.execDivn w rs2 rs1 rd s
  | .rem w rs2 rs1 rd => Sys2Proof.Machine.execRem w rs2 rs1 rd s
  | .remn w rs2 rs1 rd => Sys2Proof.Machine.execRemn w rs2 rs1 rd s
  | .clz w rs1 rd => Sys2Proof.Machine.execClz w rs1 rd s
  | .ctz w rs1 rd => Sys2Proof.Machine.execCtz w rs1 rd s
  | .popc w rs1 rd => Sys2Proof.Machine.execPopc w rs1 rd s
  | .bswap w rs1 rd => Sys2Proof.Machine.execBswap w rs1 rd s
  | .sextOp sz rs1 rd => Sys2Proof.Machine.execSext sz rs1 rd s
  | .zextOp sz rs1 rd => Sys2Proof.Machine.execZext sz rs1 rd s
  | .csel rs3 rs2 rs1 rd => Sys2Proof.Machine.execCsel rs3 rs2 rs1 rd s
  | .addi w imm rs1 rd => Sys2Proof.Machine.execAddi w imm rs1 rd s
  | .andi imm rs1 rd => Sys2Proof.Machine.execAndi imm rs1 rd s
  | .ori imm rs1 rd => Sys2Proof.Machine.execOri imm rs1 rd s
  | .xori imm rs1 rd => Sys2Proof.Machine.execXori imm rs1 rd s
  | .slli w imm rs1 rd => Sys2Proof.Machine.execSlli w imm rs1 rd s
  | .srli w imm rs1 rd => Sys2Proof.Machine.execSrli w imm rs1 rd s
  | .srai w imm rs1 rd => Sys2Proof.Machine.execSrai w imm rs1 rd s
  | .slti imm rs1 rd => Sys2Proof.Machine.execSlti imm rs1 rd s
  | .li imm rd => Sys2Proof.Machine.execLi imm rd s
  | .liH rd => Sys2Proof.Machine.execLiH rd s
  | .lpc imm rd => Sys2Proof.Machine.execLpc imm rd s
  | .jal imm rd => Sys2Proof.Machine.execJal imm rd s
  | .jalr imm rs1 rd => Sys2Proof.Machine.execJalr imm rs1 rd s
  | .beq imm rs2 rs1 => Sys2Proof.Machine.execBeq imm rs2 rs1 s
  | .bne imm rs2 rs1 => Sys2Proof.Machine.execBne imm rs2 rs1 s
  | .blt imm rs2 rs1 => Sys2Proof.Machine.execBlt imm rs2 rs1 s
  | .bge imm rs2 rs1 => Sys2Proof.Machine.execBge imm rs2 rs1 s
  | .bltn imm rs2 rs1 => Sys2Proof.Machine.execBltn imm rs2 rs1 s
  | .bgen imm rs2 rs1 => Sys2Proof.Machine.execBgen imm rs2 rs1 s
  | .lds imm h sz rs1 rd => Sys2Proof.Machine.execLds imm h sz rs1 rd s
  | .ldz imm h sz rs1 rd => Sys2Proof.Machine.execLdz imm h sz rs1 rd s
  | .st imm h sz rs1 rd => Sys2Proof.Machine.execSt imm h sz rs1 rd s
  | .ldp imm h sz rs1 rd => Sys2Proof.Machine.execLdp imm h sz rs1 rd s
  | .stp imm h sz rs1 rd => Sys2Proof.Machine.execStp imm h sz rs1 rd s
  | .pf imm h rs1 => Sys2Proof.Machine.execPf imm h rs1 s
  | .amo d op ord h rs2 rs1 rd => Sys2Proof.Machine.execAmo d op ord h rs2 rs1 rd s
  | .cas d ord h rs2 rs1 rd => Sys2Proof.Machine.execCas d ord h rs2 rs1 rd s
  | .amog d ord h rs2 rs1 rd => Sys2Proof.Machine.execAmog d ord h rs2 rs1 rd s
  | .fence scope kind => Sys2Proof.Machine.execFence scope kind s
  | .csrrw csr rs1 rd => Sys2Proof.Machine.execCsrrw csr rs1 rd s
  | .csrrs csr rs1 rd => Sys2Proof.Machine.execCsrrs csr rs1 rd s
  | .csrrc csr rs1 rd => Sys2Proof.Machine.execCsrrc csr rs1 rd s
  | .hld hd rs1 => Sys2Proof.Machine.execHld hd rs1 s
  | .hgive hs rs1 rd => Sys2Proof.Machine.execHgive hs rs1 rd s
  | .hqry hs rs1 rd => Sys2Proof.Machine.execHqry hs rs1 rd s
  | .fadd rm d rs2 rs1 rd => Sys2Proof.Machine.execFadd rm d rs2 rs1 rd s
  | .fsub rm d rs2 rs1 rd => Sys2Proof.Machine.execFsub rm d rs2 rs1 rd s
  | .fmul rm d rs2 rs1 rd => Sys2Proof.Machine.execFmul rm d rs2 rs1 rd s
  | .fdiv rm d rs2 rs1 rd => Sys2Proof.Machine.execFdiv rm d rs2 rs1 rd s
  | .fsqrt rm d rs1 rd => Sys2Proof.Machine.execFsqrt rm d rs1 rd s
  | .fmin d rs2 rs1 rd => Sys2Proof.Machine.execFmin d rs2 rs1 rd s
  | .fmax d rs2 rs1 rd => Sys2Proof.Machine.execFmax d rs2 rs1 rd s
  | .fsgnj form d rs2 rs1 rd => Sys2Proof.Machine.execFsgnj form d rs2 rs1 rd s
  | .feq d rs2 rs1 rd => Sys2Proof.Machine.execFeq d rs2 rs1 rd s
  | .flt d rs2 rs1 rd => Sys2Proof.Machine.execFlt d rs2 rs1 rd s
  | .fle d rs2 rs1 rd => Sys2Proof.Machine.execFle d rs2 rs1 rd s
  | .fclass d rs1 rd => Sys2Proof.Machine.execFclass d rs1 rd s
  | .fmvx d rs1 rd => Sys2Proof.Machine.execFmvx d rs1 rd s
  | .fmvf d rs1 rd => Sys2Proof.Machine.execFmvf d rs1 rd s
  | .fmadd d rs3 rs2 rs1 rd => Sys2Proof.Machine.execFmadd d rs3 rs2 rs1 rd s
  | .fmsub d rs3 rs2 rs1 rd => Sys2Proof.Machine.execFmsub d rs3 rs2 rs1 rd s
  | .fnmadd d rs3 rs2 rs1 rd => Sys2Proof.Machine.execFnmadd d rs3 rs2 rs1 rd s
  | .fnmsub d rs3 rs2 rs1 rd => Sys2Proof.Machine.execFnmsub d rs3 rs2 rs1 rd s
  | .fcvt form w rm rs1 rd => Sys2Proof.Machine.execFcvt form w rm rs1 rd s
  | .post rs2 rs1 => Sys2Proof.Machine.execPost rs2 rs1 s
  | .endTask => Sys2Proof.Machine.execEndTask s
  | .ends rs2 rs1 => Sys2Proof.Machine.execEnds rs2 rs1 s
  | .claim rs1 => Sys2Proof.Machine.execClaim rs1 s
  | .unclaim rs1 => Sys2Proof.Machine.execUnclaim rs1 s
  | .ecall => Sys2Proof.Machine.execEcall s
  | .ebreak => Sys2Proof.Machine.execEbreak s
  | .eret => Sys2Proof.Machine.execEret s
  | .fkill rs1 => Sys2Proof.Machine.execFkill rs1 s
  | .migr rs2 rs1 rd => Sys2Proof.Machine.execMigr rs2 rs1 rd s
  | .watch h cond d rs2 rs1 rd => Sys2Proof.Machine.execWatch h cond d rs2 rs1 rd s
  | .send rs2 rs1 rd => Sys2Proof.Machine.execSend rs2 rs1 rd s
  | .reply rs1 rd => Sys2Proof.Machine.execReply rs1 rd s
  | .bindH rs2 rs1 rd => Sys2Proof.Machine.execBind rs2 rs1 rd s
  | .unbind rs1 rd => Sys2Proof.Machine.execUnbind rs1 rd s
  | .swaph rs2 rs1 rd => Sys2Proof.Machine.execSwaph rs2 rs1 rd s
  | .vclaim b rs2 rs1 rd => Sys2Proof.Machine.execVclaim b rs2 rs1 rd s
  | .vfree => Sys2Proof.Machine.execVfree s
  | .vsbind rs1 rd => Sys2Proof.Machine.execVsbind rs1 rd s
  | .vsfree rd => Sys2Proof.Machine.execVsfree rd s
  | .vld h tag rs1 rd => Sys2Proof.Machine.execVld h tag rs1 rd s
  | .vst h rs1 rd => Sys2Proof.Machine.execVst h rs1 rd s
  | .vldx h tag rs2 rs1 rd => Sys2Proof.Machine.execVldx h tag rs2 rs1 rd s
  | .vstx h rs2 rs1 rd => Sys2Proof.Machine.execVstx h rs2 rs1 rd s
  | .vadd x sat rm rs2 rs1 rd => Sys2Proof.Machine.execVadd x sat rm rs2 rs1 rd s
  | .vsub x sat rm rs2 rs1 rd => Sys2Proof.Machine.execVsub x sat rm rs2 rs1 rd s
  | .vmul x sat rm rs2 rs1 rd => Sys2Proof.Machine.execVmul x sat rm rs2 rs1 rd s
  | .vmin x rm rs2 rs1 rd => Sys2Proof.Machine.execVmin x rm rs2 rs1 rd s
  | .vmax x rm rs2 rs1 rd => Sys2Proof.Machine.execVmax x rm rs2 rs1 rd s
  | .vand x rm rs2 rs1 rd => Sys2Proof.Machine.execVand x rm rs2 rs1 rd s
  | .vor x rm rs2 rs1 rd => Sys2Proof.Machine.execVor x rm rs2 rs1 rd s
  | .vxor x rm rs2 rs1 rd => Sys2Proof.Machine.execVxor x rm rs2 rs1 rd s
  | .vshl x rm rs2 rs1 rd => Sys2Proof.Machine.execVshl x rm rs2 rs1 rd s
  | .vshr x rm rs2 rs1 rd => Sys2Proof.Machine.execVshr x rm rs2 rs1 rd s
  | .vcmp x cond rs2 rs1 rd => Sys2Proof.Machine.execVcmp x cond rs2 rs1 rd s
  | .vabs sat rm rs1 rd => Sys2Proof.Machine.execVabs sat rm rs1 rd s
  | .vneg sat rm rs1 rd => Sys2Proof.Machine.execVneg sat rm rs1 rd s
  | .vmov x tag rs1 rd => Sys2Proof.Machine.execVmov x tag rs1 rd s
  | .vfma rs3 rs2 rs1 rd => Sys2Proof.Machine.execVfma rs3 rs2 rs1 rd s
  | .vfms rs3 rs2 rs1 rd => Sys2Proof.Machine.execVfms rs3 rs2 rs1 rd s
  | .vsel rs3 rs2 rs1 rd => Sys2Proof.Machine.execVsel rs3 rs2 rs1 rd s
  | .vdot rs3 rs2 rs1 rd => Sys2Proof.Machine.execVdot rs3 rs2 rs1 rd s
  | .vrsum sel sat rm rs1 rd => Sys2Proof.Machine.execVrsum sel sat rm rs1 rd s
  | .vrmax sel rs1 rd => Sys2Proof.Machine.execVrmax sel rs1 rd s
  | .vrmin sel rs1 rd => Sys2Proof.Machine.execVrmin sel rs1 rd s
  | .vscan sat rm rs1 rd => Sys2Proof.Machine.execVscan sat rm rs1 rd s
  | .vbmax sel rs1 rd => Sys2Proof.Machine.execVbmax sel rs1 rd s
  | .vexp2 rm rs1 rd => Sys2Proof.Machine.execVexp2 rm rs1 rd s
  | .vlog2 rm rs1 rd => Sys2Proof.Machine.execVlog2 rm rs1 rd s
  | .vrcp rm rs1 rd => Sys2Proof.Machine.execVrcp rm rs1 rd s
  | .vrsq rm rs1 rd => Sys2Proof.Machine.execVrsq rm rs1 rd s
  | .vcvt tag rm rs1 rd => Sys2Proof.Machine.execVcvt tag rm rs1 rd s
  | .vtag tag rs1 rd => Sys2Proof.Machine.execVtag tag rs1 rd s
  | .vqnt fmt fs rs2 rs1 rd => Sys2Proof.Machine.execVqnt fmt fs rs2 rs1 rd s
  | .vext rs2 rs1 rd => Sys2Proof.Machine.execVext rs2 rs1 rd s
  | .vperm rs2 rs1 rd => Sys2Proof.Machine.execVperm rs2 rs1 rd s
  | .mcfg rs1 => Sys2Proof.Machine.execMcfg rs1 s
  | .mbld rs2 rs1 rd => Sys2Proof.Machine.execMbld rs2 rs1 rd s
  | .mgang rs3 q rs2 rs1 rd => Sys2Proof.Machine.execMgang rs3 q rs2 rs1 rd s
  | .mdrain rs3 q rs2 rs1 rd => Sys2Proof.Machine.execMdrain rs3 q rs2 rs1 rd s
  | .mstat rs1 rd => Sys2Proof.Machine.execMstat rs1 rd s
  | .mcancel rs1 rd => Sys2Proof.Machine.execMcancel rs1 rd s
  | .mzero q rs1 rd => Sys2Proof.Machine.execMzero q rs1 rd s
  | .solicit rs2 rs1 rd => Sys2Proof.Machine.execSolicit rs2 rs1 rd s
  | .respond rs1 => Sys2Proof.Machine.execRespond rs1 s
  | .cbar rs1 rd => Sys2Proof.Machine.execCbar rs1 rd s
  | .tilereg rs1 rd => Sys2Proof.Machine.execTilereg rs1 rd s
  | .tiledel rs1 rd => Sys2Proof.Machine.execTiledel rs1 rd s
  | .tilemove rs2 rs1 rd => Sys2Proof.Machine.execTilemove rs2 rs1 rd s
  | .censq rs1 rd => Sys2Proof.Machine.execCensq rs1 rd s
  | .cpy n rs1 rd => Sys2Proof.Machine.execCpy n rs1 rd s
  | .cpyst rs1 rd => Sys2Proof.Machine.execCpyst rs1 rd s
  | .cpoll rs1 rd => Sys2Proof.Machine.execCpoll rs1 rd s
  | .bseal rs2 rs1 rd => Sys2Proof.Machine.execBseal rs2 rs1 rd s
  | .bopen rs2 rs1 rd => Sys2Proof.Machine.execBopen rs2 rs1 rd s
  | .llcfg rs1 rd => Sys2Proof.Machine.execLlcfg rs1 rd s
  | .cflush r h rs2 rs1 rd => Sys2Proof.Machine.execCflush r h rs2 rs1 rd s
  | .cclean r h rs2 rs1 rd => Sys2Proof.Machine.execCclean r h rs2 rs1 rd s
  | .cinv r h rs2 rs1 rd => Sys2Proof.Machine.execCinv r h rs2 rs1 rd s
  | .grrun rs1 rd => Sys2Proof.Machine.execGrrun rs1 rd s
  | .grsig rs1 rd => Sys2Proof.Machine.execGrsig rs1 rd s
  | .grcan rs1 rd => Sys2Proof.Machine.execGrcan rs1 rd s
  | .grqry rs1 rd => Sys2Proof.Machine.execGrqry rs1 rd s
  | .spawn y p rs2 rs1 rd => Sys2Proof.Machine.execSpawn y p rs2 rs1 rd s
  | .joini rs1 rd => Sys2Proof.Machine.execJoini rs1 rd s
  | .join rs2 rs1 rd => Sys2Proof.Machine.execJoin rs2 rs1 rd s
  | .termq rs1 rd => Sys2Proof.Machine.execTermq rs1 rd s
  | .xpost rs1 => Sys2Proof.Machine.execXpost rs1 s
  | .xqry rs1 rd => Sys2Proof.Machine.execXqry rs1 rd s
  | .fixedResultWriteback => Sys2Proof.Machine.runFixedResultWriteback s
  | .variableResultWriteback => Sys2Proof.Machine.runVariableResultWriteback s
  | .accessLeavesQueue => Sys2Proof.Machine.runAccessLeavesQueue s
  | .codeFill => Sys2Proof.Machine.runCodeFill s
  | .load => Sys2Proof.Machine.runLoad s
  | .store => Sys2Proof.Machine.runStore s
  | .atomic => Sys2Proof.Machine.runAtomic s
  | .arm => Sys2Proof.Machine.runArm s
  | .armack => Sys2Proof.Machine.runArmack s
  | .pull => Sys2Proof.Machine.runPull s
  | .record => Sys2Proof.Machine.runRecord s
  | .data => Sys2Proof.Machine.runData s
  | .release => Sys2Proof.Machine.runRelease s
  | .releaseArrival => Sys2Proof.Machine.runReleaseArrival s
  | .framePush => Sys2Proof.Machine.runFramePush s
  | .fifoRingMove => Sys2Proof.Machine.runFifoRingMove s
  | .framePop => Sys2Proof.Machine.runFramePop s
  | .refillComplete => Sys2Proof.Machine.runRefillComplete s
  | .trapEntry => Sys2Proof.Machine.runTrapEntry s
  | .frameLost => Sys2Proof.Machine.runFrameLost s
  | .migrationCommit => Sys2Proof.Machine.runMigrationCommit s
  | .forwardPacket => Sys2Proof.Machine.runForwardPacket s
  | .starvationReport => Sys2Proof.Machine.runStarvationReport s
  | .active => Sys2Proof.Machine.runActive s
  | .delivery => Sys2Proof.Machine.runDelivery s
  | .handlerCommit => Sys2Proof.Machine.runHandlerCommit s
  | .escapeMove => Sys2Proof.Machine.runEscapeMove s
  | .routerPacketDiscard => Sys2Proof.Machine.runRouterPacketDiscard s
  | .fjarlinkPacket => Sys2Proof.Machine.runFjarlinkPacket s
  | .streamFill => Sys2Proof.Machine.runStreamFill s
  | .streamWrite => Sys2Proof.Machine.runStreamWrite s
  | .slotLoadDone => Sys2Proof.Machine.runSlotLoadDone s
  | .slotWrite => Sys2Proof.Machine.runSlotWrite s
  | .gangFormation => Sys2Proof.Machine.runGangFormation s
  | .passStart => Sys2Proof.Machine.runPassStart s
  | .passStep => Sys2Proof.Machine.runPassStep s
  | .drainJobStart => Sys2Proof.Machine.runDrainJobStart s
  | .drainJobDone => Sys2Proof.Machine.runDrainJobDone s
  | .solicitRequest => Sys2Proof.Machine.runSolicitRequest s
  | .censusLive => Sys2Proof.Machine.runCensusLive s
  | .epochMarkApply => Sys2Proof.Machine.runEpochMarkApply s
  | .solicitScan => Sys2Proof.Machine.runSolicitScan s
  | .coreAnswer => Sys2Proof.Machine.runCoreAnswer s
  | .answerFold => Sys2Proof.Machine.runAnswerFold s
  | .remoteCensus => Sys2Proof.Machine.runRemoteCensus s
  | .censusResultWrite => Sys2Proof.Machine.runCensusResultWrite s
  | .censusComplete => Sys2Proof.Machine.runCensusComplete s
  | .tileReserve => Sys2Proof.Machine.runTileReserve s
  | .tileCommit => Sys2Proof.Machine.runTileCommit s
  | .tileCommitArrival => Sys2Proof.Machine.runTileCommitArrival s
  | .barrierContribution => Sys2Proof.Machine.runBarrierContribution s
  | .copyRequest => Sys2Proof.Machine.runCopyRequest s
  | .copyAcceptance => Sys2Proof.Machine.runCopyAcceptance s
  | .copyDeferral => Sys2Proof.Machine.runCopyDeferral s
  | .copyReady => Sys2Proof.Machine.runCopyReady s
  | .transferBegin => Sys2Proof.Machine.runTransferBegin s
  | .transferComplete => Sys2Proof.Machine.runTransferComplete s
  | .transferFault => Sys2Proof.Machine.runTransferFault s
  | .bedrockRequest => Sys2Proof.Machine.runBedrockRequest s
  | .bedrockAnswer => Sys2Proof.Machine.runBedrockAnswer s
  | .groupSealed => Sys2Proof.Machine.runGroupSealed s
  | .groupOpened => Sys2Proof.Machine.runGroupOpened s
  | .refreshWindow => Sys2Proof.Machine.runRefreshWindow s
  | .carveoutUpdate => Sys2Proof.Machine.runCarveoutUpdate s
  | .carveoutSample => Sys2Proof.Machine.runCarveoutSample s
  | .rds => Sys2Proof.Machine.runRds s
  | .rdo => Sys2Proof.Machine.runRdo s
  | .upg => Sys2Proof.Machine.runUpg s
  | .wb => Sys2Proof.Machine.runWb s
  | .rangeClaim => Sys2Proof.Machine.runRangeClaim s
  | .claimwrite => Sys2Proof.Machine.runClaimwrite s
  | .claimend => Sys2Proof.Machine.runClaimend s
  | .snoop => Sys2Proof.Machine.runSnoop s
  | .snpresp => Sys2Proof.Machine.runSnpresp s
  | .coherentData => Sys2Proof.Machine.runCoherentData s
  | .homeAck => Sys2Proof.Machine.runHomeAck s
  | .cmo => Sys2Proof.Machine.runCmo s
  | .transactionTaken => Sys2Proof.Machine.runTransactionTaken s
  | .homeRetry => Sys2Proof.Machine.runHomeRetry s
  | .replayTimeout => Sys2Proof.Machine.runReplayTimeout s
  | .graphStart => Sys2Proof.Machine.runGraphStart s
  | .graphGo => Sys2Proof.Machine.runGraphGo s
  | .nodeFire => Sys2Proof.Machine.runNodeFire s
  | .token => Sys2Proof.Machine.runToken s
  | .nodeDone => Sys2Proof.Machine.runNodeDone s
  | .firingCompletion => Sys2Proof.Machine.runFiringCompletion s
  | .cancelWalkStep => Sys2Proof.Machine.runCancelWalkStep s
  | .instanceEnd => Sys2Proof.Machine.runInstanceEnd s
  | .gangWatchdog => Sys2Proof.Machine.runGangWatchdog s
  | .eventResend => Sys2Proof.Machine.runEventResend s
  | .censusResubmit => Sys2Proof.Machine.runCensusResubmit s
  | .dequePush => Sys2Proof.Machine.runDequePush s
  | .joinMessage => Sys2Proof.Machine.runJoinMessage s
  | .stealAttempt => Sys2Proof.Machine.runStealAttempt s
  | .stealRequest => Sys2Proof.Machine.runStealRequest s
  | .stealGrant => Sys2Proof.Machine.runStealGrant s
  | .terminationWave => Sys2Proof.Machine.runTerminationWave s
  | .waveAnswer => Sys2Proof.Machine.runWaveAnswer s
  | .terminationReport => Sys2Proof.Machine.runTerminationReport s
  | .guestSubmission => Sys2Proof.Machine.runGuestSubmission s
  | .jobDelivery => Sys2Proof.Machine.runJobDelivery s
  | .preemptionAnswer => Sys2Proof.Machine.runPreemptionAnswer s
  | .guestCompletion => Sys2Proof.Machine.runGuestCompletion s
  | .translationRequest => Sys2Proof.Machine.runTranslationRequest s
  | .invalidationAnswer => Sys2Proof.Machine.runInvalidationAnswer s
  | .poisonReport => Sys2Proof.Machine.runPoisonReport s
  | .guestIdentity => Sys2Proof.Machine.runGuestIdentity s
  | .trainingTimeout => Sys2Proof.Machine.runTrainingTimeout s
  | .dutyTimeout => Sys2Proof.Machine.runDutyTimeout s
  | .powerReport => Sys2Proof.Machine.runPowerReport s
  | .tailDoorbell => Sys2Proof.Machine.runTailDoorbell s
  | .cheadDoorbell => Sys2Proof.Machine.runCheadDoorbell s
  | .queueEnable => Sys2Proof.Machine.runQueueEnable s
  | .queueDestroy => Sys2Proof.Machine.runQueueDestroy s
  | .doorbellEvent => Sys2Proof.Machine.runDoorbellEvent s
  | .queueControlEvent => Sys2Proof.Machine.runQueueControlEvent s
  | .queueRead => Sys2Proof.Machine.runQueueRead s
  | .completionWrite => Sys2Proof.Machine.runCompletionWrite s
  | .registerStateUpdate => Sys2Proof.Machine.runRegisterStateUpdate s
  | .launchRoot => Sys2Proof.Machine.runLaunchRoot s
  | .launchGraph => Sys2Proof.Machine.runLaunchGraph s
  | .queueCopy => Sys2Proof.Machine.runQueueCopy s
  | .signal => Sys2Proof.Machine.runSignal s
  | .waitQueue => Sys2Proof.Machine.runWaitQueue s
  | .bedrockOpen => Sys2Proof.Machine.runBedrockOpen s
  | .bedrockSeal => Sys2Proof.Machine.runBedrockSeal s
  | .swapAsid => Sys2Proof.Machine.runSwapAsid s
  | .quantumExpiry => Sys2Proof.Machine.runQuantumExpiry s
  | .packetPrefetch => Sys2Proof.Machine.runPacketPrefetch s
  | .bar2Read => Sys2Proof.Machine.runBar2Read s
  | .bar2Write => Sys2Proof.Machine.runBar2Write s
  | .moduleReset => Sys2Proof.Machine.runModuleReset s
  | .deviceIdAssign => Sys2Proof.Machine.runDeviceIdAssign s
  | .throttleEvaluation => Sys2Proof.Machine.runThrottleEvaluation s
  | .thermalTrip => Sys2Proof.Machine.runThermalTrip s
  | .lmScrub => Sys2Proof.Machine.runLmScrub s
  | .getVersion => Sys2Proof.Machine.runGetVersion s
  | .getCapabilities => Sys2Proof.Machine.runGetCapabilities s
  | .negotiateAlgorithms => Sys2Proof.Machine.runNegotiateAlgorithms s
  | .getDigests => Sys2Proof.Machine.runGetDigests s
  | .getCertificate => Sys2Proof.Machine.runGetCertificate s
  | .challenge => Sys2Proof.Machine.runChallenge s
  | .getMeasurements => Sys2Proof.Machine.runGetMeasurements s
  | .sawRead => Sys2Proof.Machine.runSawRead s
  | .sawDone => Sys2Proof.Machine.runSawDone s
  | .registerWrite => Sys2Proof.Machine.runRegisterWrite s
  | .clearOnRead => Sys2Proof.Machine.runClearOnRead s
  | .hcinv => Sys2Proof.Machine.runHcinv s
  | .tlbinv => Sys2Proof.Machine.runTlbinv s
  | .icinv => Sys2Proof.Machine.runIcinv s
  | .corereset => Sys2Proof.Machine.runCorereset s
  | .gfclear => Sys2Proof.Machine.runGfclear s
  | .recbusyClear => Sys2Proof.Machine.runRecbusyClear s
  | .monitorFree => Sys2Proof.Machine.runMonitorFree s
  | .lquotaWrite => Sys2Proof.Machine.runLquotaWrite s
  | .cmaskWrite => Sys2Proof.Machine.runCmaskWrite s
  | .slotstEmpty => Sys2Proof.Machine.runSlotstEmpty s
  | .settagFree => Sys2Proof.Machine.runSettagFree s
  | .svclear => Sys2Proof.Machine.runSvclear s
  | .censend => Sys2Proof.Machine.runCensend s
  | .barfree => Sys2Proof.Machine.runBarfree s
  | .cancel => Sys2Proof.Machine.runCancel s
  | .rrctlWrite => Sys2Proof.Machine.runRrctlWrite s
  | .rrpush => Sys2Proof.Machine.runRrpush s
  | .rrpop => Sys2Proof.Machine.runRrpop s
  | .slotend => Sys2Proof.Machine.runSlotend s
  | .joinctrFree => Sys2Proof.Machine.runJoinctrFree s
  | .tslotFree => Sys2Proof.Machine.runTslotFree s
  | .gctlFence => Sys2Proof.Machine.runGctlFence s
  | .gctlRetrain => Sys2Proof.Machine.runGctlRetrain s
  | .jobcancel => Sys2Proof.Machine.runJobcancel s
  | .pageWalkDone => Sys2Proof.Machine.runPageWalkDone s
  | .handleEntryRead => Sys2Proof.Machine.runHandleEntryRead s
  | .snoopApply => Sys2Proof.Machine.runSnoopApply s
  | .lineDrop => Sys2Proof.Machine.runLineDrop s
  | .hostAccessRequest => Sys2Proof.Machine.runHostAccessRequest s
  | .nonPostedReadCompletion => Sys2Proof.Machine.runNonPostedReadCompletion s

end Sys2Proof.Machine
end

