-- ==== Sys2Proof/Machine/Network.lean ====
section
/-! DEFINITION. The slab network from turn to turn (07_message_unit.md R228, R241-R243): how long a packet has been blocked, which router
still makes others follow one to escape, and which ejected packet an endpoint serves. -/

namespace Sys2Proof.Machine

/-- Whether a home's grant or acknowledgement of a line is on its way to one agent. -/
def State.granting (s : State) (ep line : Nat) : Bool :=
  s.net.any (fun m => match m.ev with
    | .coherentData q _ _ _ => q.src == ep && q.line == line
    | .homeAck q _ => q.src == ep && q.line == line
    | _ => false)
/-- Whether a request at the host port waits for one that it performs in order before it: of the host (R497), or of the same front-end core
or queue (R509). -/
def State.hostWaits (s : State) (m : Msg) : Bool :=
  match m.ev with
  | .queueRead _ => s.once.any (fun o => o.owner == m.src)
  | .completionWrite q _ _ _ => s.once.any (fun o => o.owner == m.src || (match o.use with | .completion k _ => k == q | _ => false))
  | _ => m.src == hostBus && s.once.any (fun o => o.owner == hostBus)
/-- Whether an endpoint's trace ring is full, so that it performs no request (R419). -/
def State.ringFull (s : State) (ep : Nat) : Bool :=
  (coreEp ep && (s.core ep).trace.full) || (epClass ep == 3 && (s.home ep).trace.full)
/-- Whether an ejected packet can be served now (R242, R243): it is next, the response of a core's port has room, and the endpoint's trace
ring is not full (R419). A snoop waits for the grant of its line that its home sent before it, since that grant is part of a row's action
that completes first (R401; log entry 72). -/
def State.servable (s : State) (k : Nat) (m : Msg) : Bool :=
  s.atHead k m && (m.cls != 0 || ((!coreEp m.dst || s.responseRoom m.dst) && !s.ringFull m.dst && !s.hostWaits m))
    && match m.ev with | .snoop _ _ line _ _ => !s.granting m.dst line | _ => true

/-- Whether packets for an endpoint are redirected (R228): the core is vacated and its forwarding entry set. -/
def State.redirects (s : State) (ep : Nat) : Bool := ep < 8192 && (s.core ep).code == 3 && bitOf (s.core ep).fwd 63

/-- A packet as a cycle finds it (R241): at the head of a dateline channel it counts the consecutive cycles in which its next hop does not
admit it, up to the 32 after which it must go on on escape. -/
def State.waited (s : State) (k : Nat) (m : Msg) : Msg :=
  match m.ch, m.hop false with
  | .link _ vc, .ring _ _ _ =>
    if vc == 2 || 3 ≤ m.cls || 32 ≤ m.wait then m
    else if s.atHead k m && !s.canHop k m false then { m with wait := m.wait + 1 } else { m with wait := 0 }
  | _, _ => m
/-- A router's triples whose packets must follow one to escape, as long as it holds any of them (R243). -/
def State.following (s : State) (g : Nat) (l : List (Nat × Nat × Nat)) : List (Nat × Nat × Nat) :=
  l.filter (fun t => s.net.any (fun m => m.rt == g && m.ch != .eject && m.triple == t))
/-- A cycle of the network passes. -/
def State.netTick (s : State) : State :=
  { s with
    net := s.net.zipIdx.map (fun p => s.waited p.2 p.1)
    geodes := s.geodes.map (fun (p : Nat × Geode) => (p.1, { p.2 with follow := s.following p.1 p.2.follow })) }

end Sys2Proof.Machine
end

