-- ==== Sys2Proof/Machine/Issue.lean ====
section
/-! DEFINITION. What one step does: the turn it takes, delivery of packets and inputs, and the issue of a bundle (02_bundles.md
R32-R48, 01_engines.md R11, 06_frame_unit.md R219; log entries 1, 2 and 5). -/

namespace Sys2Proof.Machine

/-! ## Issue -/

/-- The words of the bundle at a frame's pc, when the instruction cache holds its line (R32, R148, R194). -/
def Core.fetch (c : Core) (f : Frame) : Option (Half × Half) :=
  match c.iline f.codeAsid f.pc.toNat with
  | none => none
  | some l =>
    let b := l.words.getD (f.pc.toNat % ilineBytes / 8) 0
    some (b.setWidth 32, b.extractLsb' 32 32)

/-- Whether what a parked frame waits for has come by a cycle (R11, R41, R45). -/
def Core.holdDone (c : Core) (f : Frame) (now : Nat) : Bool :=
  match f.hold with
  | .none => true
  | .results => f.outs.all (fun r => match r.due with | some d => d ≤ now | none => false)
  | .queue => c.queueDepth < 32
  | .answer => f.answer.isSome
  | .refill => !f.spilled
  | .streamEmpty j => !(f.stream j).buf.isEmpty
  | .streamFull j => (f.stream j).buf.length < 4
  | .copyFifo => true

/-- Whether a core's top frame can go on: no push is ordered (R208), and it runs, or what it is parked for has come; a spilled frame
asks for its rows. -/
def State.canIssue (s : State) (ep : Nat) : Bool :=
  let c := s.core ep
  c.code == 0 && c.push.isEmpty && match c.top with
    | none => false
    | some w => let f := c.win w; (f.st == .running || f.st == .parked) && (f.spilled || c.holdDone f s.now)

/-- One slot's instruction: a poisoned source is cause 63 (R219). It comes before a cause 2 that only the state at issue shows, such as a
CSR of F-mode in T-mode or an FRM of 5 to 7; the spec gives no order within a slot (DESIGN CHOICE; log entry 78). -/
def State.runSlot (s : State) (i : Instr) : Out :=
  match s.cf.poisoned i with
  | some v => .next (s.raise 63 v)
  | none => exec i s
/-- The C-slot (R32, R40). -/
def State.slotC (s : State) : Out :=
  match decodeC s.iss.w0 s.iss.lone with
  | .error _ => .next s.illegalC
  | .ok i => ({ s with iss := { s.iss with order := 2 * s.now } } : State).runSlot i
/-- The A-slot (R32, R40); its writes come after the C-slot's (R36, R44). -/
def State.slotA (s : State) : Out :=
  match decodeA s.iss.w1 with
  | .error _ => .next s.illegalA
  | .ok i => ({ s with iss := { s.iss with order := 2 * s.now + 1 } } : State).runSlot i

/-- Whether an outcome goes on to the rest of the bundle. -/
def goesOn (o : Out) : Bool :=
  match o with
  | .next t => t.iss.stop == .go
  | _ => false
/-- The outcome of a second part on what a first has left. -/
def andThen (o : Out) (k : State → Out) : Out :=
  match o with
  | .next t => k t
  | o => o
/-- Whether the C-slot reads vector registers, whose streams it then consumes before the A-slot. -/
def readsVectors (w0 : Half) : Bool := fMaj w0 == 0x28

/-- The wait marker (R45): the frame issues nothing more until its results are written back. -/
def State.waitMark (s : State) : State :=
  let f := s.cf
  if s.iss.w0.getLsbD 1 && f.st == .running && !f.outs.isEmpty then s.setCf { f with st := .parked, hold := .results } else s

/-- A bundle's end: the wait marker, or what the slots together ran into, which leaves the bundle without effect (R38, R46). -/
def State.bundleEnd (s : State) (fid : Nat) (o : Out) : Out :=
  match o with
  | .next t => match t.iss.stop with
    | .go => .next (if t.cf.fid == fid then t.waitMark else t)
    | .held => .next (s.hold t.cf.hold)
    | .fault => match t.cf.pending with
      | some p => .next (s.raise p.cause.toNat p.value)
      | none => .next t
  | o => o

/-- Whether the C-slot is one that asks for an effect while the bundle is held: `BSEAL` or `BOPEN` (R385). -/
def asksEffect (w0 : Half) : Bool :=
  match decodeC w0 false with
  | .ok (.bseal _ _ _) => true
  | .ok (.bopen _ _ _) => true
  | _ => false
/-- Whether an outcome is a fault taken. -/
def faulted (o : Out) : Bool :=
  match o with
  | .next t => t.iss.stop == .fault
  | _ => false
/-- The two slots (R36, R38): a fault of the C-slot, then of the A-slot, leaves the bundle without effect; else both take effect. What a
`BSEAL` or `BOPEN` asks for goes out only when the A-slot has no fault. -/
def State.slots (s : State) : Out :=
  let c := s.slotC
  if !goesOn c then
    (if asksEffect s.iss.w0 && !s.iss.lone && !faulted c && faulted s.slotA then s.slotA else c)
  else if s.iss.lone then s.bundleEnd s.cf.fid c
  else
    let a := s.slotA
    if !goesOn a then a
    else s.bundleEnd s.cf.fid (if readsVectors s.iss.w0 then andThen c State.slotA else andThen a State.slotC)

/-- The registers of a window as the bundle that it holds has read them (R36). -/
def State.underLatch (s : State) (ep w : Nat) : State :=
  match (s.frame ep w).latch with
  | none => s
  | some l => l.v.zipIdx.foldl (fun t p => t.vwrite ep w (BitVec.ofNat 5 p.2) p.1) (s.modFrame ep w Frame.underLatch)
/-- The state `t` that a held bundle has left, tried on what it had read, with the registers of its window as they were in `s` but for
what it changed. -/
def State.overLatch (s : State) (ep w : Nat) (t : State) : State :=
  match (s.frame ep w).latch with
  | none => t
  | some l =>
    if (t.frame ep w).fid != (s.frame ep w).fid then t
    else (l.v.zipIdx.foldl (fun t p =>
      let r := BitVec.ofNat 5 p.2
      t.vwrite ep w r ((p.1.zip ((s.vread ep w r).zip (t.vread ep w r))).map (fun x => overRead x.1 x.2.1 x.2.2))) t).modFrame ep w
        (Frame.overLatch (s.frame ep w))
/-- A bundle issued from window `w` (R34, R37, R38): the pc moves on, and back when the bundle faults or is held. -/
def State.issueBundle (s : State) (ep w : Nat) (w0 w1 : Half) : Out :=
  let t := s.underLatch ep w
  let f := t.frame ep w
  let t := { t.setFrame ep w { f with st := .running, hold := .none, pc := f.pc + 8 } with
    iss := Issue.mk ep w f.pc w0 w1 (w0.getLsbD 0) 0 .go }
  andThen (if bundleFault w0 w1 then .next (t.raise 2 (evalB t)) else t.slots) (fun t => .next (s.overLatch ep w t))

/-- A core's turn: its top frame issues a bundle, asks for its rows (R269), or fetches (R194). -/
def State.issueTurn (s : State) (ep : Nat) : Out :=
  let c := s.core ep
  if !s.canIssue ep then .next s
  else match c.top with
    | none => .next s
    | some w =>
      let f := c.win w
      if f.spilled then
        .next ((s.setFrame ep w { f with st := .parked, hold := (if f.hold == .none then .refill else f.hold) }).laterOnce (.refillComplete ep))
      else match c.fetch f with
        | none =>
          exec .codeFill { s.setFrame ep w { f with st := .running, hold := .none } with ev := some (.codeFill ep f.codeAsid f.pc) }
        | some (w0, w1) => s.issueBundle ep w w0 w1

/-! ## Delivery and inputs -/

/-- An event run as the instruction that it is. -/
def State.runEvent (s : State) (ev : Event) : Out := exec (eventInstr ev) { s with ev := some ev }

/-- Entry `k` of the network goes on: an internal operation is performed; a packet makes its next hop, on escape where it must (R241), or,
ejected, is served when its turn has come, or redirected at a vacated core (R228). -/
def State.deliverTurn (s : State) (k : Nat) : Out :=
  match s.net[k]? with
  | none => .next s
  | some m =>
    let taken := { s with net := s.net.eraseIdx k }
    if 3 ≤ m.cls then taken.runEvent m.ev
    else if m.ch != .eject then (if s.escapes m then s.runEvent (.escapeMove k m.rt) else .next (s.hopPacket k))
    else if !s.servable k m then .next s
    else if s.redirects m.dst then s.runEvent (.forwardPacket k)
    else taken.runEvent m.ev

/-- Whether an input is a request of the host, which the port performs in the order received (R497). -/
def hostRequest : Event → Bool
  | .tailDoorbell _ _ => true
  | .cheadDoorbell _ _ => true
  | .queueEnable _ => true
  | .queueDestroy _ => true
  | .bar2Read _ _ => true
  | .bar2Write _ _ => true
  | .registerWrite (.bar0 _ _ _) => true
  | .clearOnRead (.bar0 _) => true
  | _ => false
/-- Whether an event can come from outside, from an error, or from time that passes (log entry 1). -/
def external : Event → Bool
  | .fixedResultWriteback _ _ _ => true
  | .frameLost _ _ => true
  | .starvationReport _ _ => true
  | .escapeMove _ _ => true
  | .routerPacketDiscard _ => true
  | .fjarlinkPacket _ _ => true
  | .refreshWindow => true
  | .carveoutSample _ => true
  | .rds q => q.agent == 256
  | .rdo q => q.agent == 256
  | .upg q => q.agent == 256
  | .wb q => q.agent == 256
  | .snpresp _ a _ _ _ _ _ _ _ => a == 256
  | .replayTimeout _ => true
  | .lineDrop _ _ => true
  | .nonPostedReadCompletion _ _ _ => true
  | .gangWatchdog _ => true
  | .eventResend _ => true
  | .stealAttempt _ => true
  | .terminationWave ep => ep == termRoot
  | .preemptionAnswer _ => true
  | .guestCompletion _ _ _ _ => true
  | .translationRequest _ _ _ _ => true
  | .invalidationAnswer _ => true
  | .poisonReport _ => true
  | .guestIdentity _ _ _ _ _ => true
  | .trainingTimeout _ => true
  | .dutyTimeout _ => true
  | .powerReport _ => true
  | .quantumExpiry => true
  | .packetPrefetch _ _ => true
  | .moduleReset => true
  | .deviceIdAssign _ => true
  | .throttleEvaluation _ _ _ => true
  | .thermalTrip => true
  | .lmScrub _ _ => true
  | .getVersion => true
  | .getCapabilities => true
  | .negotiateAlgorithms => true
  | .getDigests => true
  | .getCertificate _ _ => true
  | .challenge _ => true
  | .getMeasurements _ _ => true
  | _ => false
/-- An input of the agenda: a request of the host queues at its port; any other that can come from outside happens now. -/
def State.inputTurn (s : State) (ev : Event) : Out :=
  if hostRequest ev then .next (s.send 0 hostBus (agentEp 0 0x81) ev)
  else if external ev then s.runEvent ev
  else .next s

/-! ## Turns -/

/-- The next core, after the one that has just issued, whose top frame can go on; the same one when there is no other. -/
def State.nextCore (s : State) : Nat :=
  let ok := fun (p : Nat × Core) => p.1 != s.cur && s.canIssue p.1
  match s.cores.find? (fun p => s.cur < p.1 && ok p) with
  | some p => p.1
  | none => match s.cores.find? ok with
    | some p => p.1
    | none => s.cur
/-- The turn that a step takes when the agenda names none (log entry 2): deliveries and cores in alternation. -/
def State.defaultTurn (s : State) : Turn :=
  if !s.net.isEmpty && (s.turn % 2 == 1 || !s.canIssue s.cur) then .deliver (s.turn / 2 % s.net.length)
  else if s.canIssue s.cur then .issue s.cur
  else .tick

/-- An uncorrectable error in a register or vector row of a window (R219, R225, R522): of the top frame, the register is marked; any other
frame is LOST. -/
def State.strikeReg (s : State) (ep w : Nat) (mark : Frame → Frame) : Out :=
  let c := s.core ep
  if 8 ≤ w || (c.win w).st == .free then .next s
  else if c.top == some w && c.code != 2 then .next (s.modFrame ep w mark)
  else s.runEvent (.frameLost ep w)
/-- An error strikes (R522); where it is found decides what comes of it. A line of an LLC slice or data cache, or that of a snoop-filter
entry, is poisoned with a machine check (R407); a correctable error is counted in CECNT. -/
def State.strike (s : State) (u : Upset) : Out :=
  match u with
  | .xreg ep w r => s.strikeReg ep w (fun f => { f with poisonX := markBit f.poisonX r (0 < r) })
  | .freg ep w r => s.strikeReg ep w (fun f => { f with poisonF := markBit f.poisonF r true })
  | .hreg ep w r => s.strikeReg ep w (fun f => { f with poisonH := markBit f.poisonH r true })
  | .vreg ep w r =>
    let f := s.frame ep w
    if f.nLanes == 0 || f.spilled then .next s else s.strikeReg ep w (fun f => { f with poisonV := markBit f.poisonV r true })
  | .word key =>
    let t := { s with bad := if s.bad.contains (key / 8) then s.bad else s.bad ++ [key / 8] }
    match t.reserveAt key with
    | some (ep, w) => t.strikeReg ep w id
    | none => .next t
  | .llc line => .next (match (s.home (homeOf line)).llc.find line with
      | none => s
      | some l => (s.modHome (homeOf line) (fun h => { h with llc := h.llc.put line { l with poison := true } })).machineCheck (homeOf line) 7)
  | .cached ep line => .next (match (s.core ep).dcache.lines.find line with
      | none => s
      | some l => (s.modCore ep (fun c => { c with dcache := { c.dcache with lines := c.dcache.lines.put line { l with poison := true } } })).machineCheck ep 7)
  | .filter line =>
    let h := homeOf line
    .next (if ((s.home h).sfOf line).isNone then s else (s.homePut h line (s.homeLine line) true false false).machineCheck h 7)
  | .corrected => .next (s.modPkg (fun p => { p with cecnt := (p.cecnt + 1) % 2 ^ 64 }))
  | .element g k => .next (s.modArr g (fun a => { a with accBad := if a.accBad.contains k then a.accBad else a.accBad ++ [k] }))
/-- One turn: fixed-latency results due by now have been written back before it (R41), and the network has counted its cycle (R241). -/
def State.takeTurn (s : State) (t : Turn) : Out :=
  let s := s.settleAll.netTick
  match t with
  | .deliver k => s.deliverTurn k
  | .input ev => s.inputTurn ev
  | .issue ep => s.issueTurn ep
  | .upset u => s.strike u
  | .firmware w => .next (s.firmwareWrite w)
  | .tick => .next s
/-- A turn of a module that has tripped: only a reset acts (R519). -/
def State.trippedTurn (s : State) (t : Turn) : Out :=
  match t with
  | .input .moduleReset => s.runEvent .moduleReset
  | _ => .next s

/-- The turn of this step and the state it starts from: the agenda's next turn, else the default; time has moved on by one. -/
def State.turnOf (s : State) : Turn × State :=
  match s.agenda with
  | t :: l => (t, { s with now := s.now + 1, agenda := l })
  | [] => (s.defaultTurn, { s with now := s.now + 1, turn := s.turn + 1, cur := s.nextCore })

/-! ## Placing an instruction to be fetched (log entry 5) -/

/-- The bundle that holds one instruction word: its other slot holds the no-op, and a lone bundle's literal is zero. -/
def bundleOf (w : Half) : Word :=
  match tableSlot w with
  | some (true, _) => w ++ nopWord
  | _ => (if w.getLsbD 0 then (0 : Half) else nopWord) ++ w
/-- The instruction-cache line of a core with one bundle put at a code address. -/
def Core.putCode (c : Core) (asid : BitVec 16) (va : Nat) (b : Word) : Core :=
  let base := va / ilineBytes * ilineBytes
  let old := match c.iline asid va with | some l => l.words | none => []
  let words := (List.range (ilineBytes / 8)).map (fun k => if k == va % ilineBytes / 8 then b else old.getD k 0)
  { c with icache := c.icache.filter (fun l => !(l.asid == asid && l.va == base)) ++ [ILine.mk asid base words] }
/-- The state in which the next step issues a given word on core 0, from the top frame there, or from window 0 when none lives. -/
def State.placeWord (s : State) (w : Half) : State :=
  let c := s.core 0
  let k := c.top.getD 0
  let f := { c.win k with st := .running, hold := .none, spilled := false }
  let c := ({ c with code := 0, push := [] } : Core).setWin k f
  { s.setCore 0 (c.putCode f.codeAsid f.pc.toNat (bundleOf w)) with
    agenda := [], net := [], cur := 0, turn := 0, pkg := { s.pkg with tripped := false } }

end Sys2Proof.Machine
end

