-- ==== Sys2Proof/Machine/Step.lean ====
section
/-! DEFINITION. One step of the module, and the placing of an instruction for it. -/

namespace Sys2Proof.Machine

/-- One step: the agenda's turn, or the default one. -/
def step (s : State) : Host.Outcome State Fault Refusal :=
  let p := s.turnOf
  if s.pkg.tripped then p.2.trippedTurn p.1 else p.2.takeTurn p.1

/-- The state with an instruction stored where the next step fetches (log entry 5). -/
def State.withFetchWord (s : State) (_nbits w : Nat) : State := s.placeWord (BitVec.ofNat 32 w)

end Sys2Proof.Machine
end

