-- ==== Sys2Proof/Safety.lean ====
section
/-! DEFINITION. What counts as a safe run: a step that answers a next state, the invariants that claims about every state use, and
the conditions under which an instruction completes. -/

namespace Sys2Proof.Safety
open Sys2Proof.Machine

/-- A step that answers a next state: no fault, no refusal. -/
def goes (s : State) : Prop := ∃ t, step s = .next t

/-- The byte memory keeps its canonical form, LM, mica, DRAM and bedrock alike. -/
def memOk (s : State) : Prop := Memory.wf s.mem = true

/-- An access of the issuing frame passes the checks of R120 and goes to a target. -/
abbrev passes (s : State) (h : HReg) (off : Word) (n e : Nat) (k : AccKind) (fadd : Bool) (t : Target) : Prop :=
  s.check s.det h off n e k false fadd [0, 1, 2, 4] = .ok t

/-- The issuing frame has room for more variable-latency results and its core for more queue entries (R46, R172). -/
abbrev hasRoom (s : State) (results entries : Nat) : Prop := s.room results entries = none

/-- The issuing frame's outstanding result for a destination, of variable latency; its name is the state's next one. -/
def owes (s : State) (d : Dst) : State := (s.addResult d none (.word 0) 0 1).2

/-- The bundle goes on, the frame has lanes (an even number where pairs are used), and its streams neither fault nor hold a vector instruction of these
sources, destination and result tag (R276, R277, R284). -/
abbrev vReady (s : State) (srcs : List Reg) (dst : Option Reg) (pairs : Bool) (rtag : Tag) : Prop :=
  s.cf.nLanes ≠ 0 ∧ (pairs = true → s.cf.nLanes % 2 = 0) ∧ s.cf.streamFault srcs dst = none ∧
    s.cf.streamTagBad dst rtag = false ∧ s.cf.streamHold srcs dst = none ∧ s.iss.stop = .go

/-- A vector result of fixed latency from element results with their flags, after which the streams read move on. -/
def vResult (s : State) (srcs : List Reg) (d : Reg) (t : Tag) (w : Nat) (l : List (Nat × FlagSet)) (lat : Nat) : State :=
  (s.vOut d t (packElems w (l.map Prod.fst)) (l.foldl (fun f p => f ||| p.2) 0) lat).consume srcs

/-- A code answered to the destination of an instruction that completes at once; with x0 there is no result. -/
def answering (s : State) (d : Reg) (n : Nat) : State := (s.newResult d).2.answerCf (s.newResult d).1 (BitVec.ofNat 64 n)

/-- A successor that passed its checks: none, or the release it names (R306). -/
def legalSucc (sw : SuccWord) : Prop := sw = .none ∨ ∃ r, sw = .ok r

/-- How many results an instruction with this destination leaves outstanding. -/
def resultsOf (d : Reg) : Nat := if d = 0 then 0 else 1

/-- The forms that name registers only: integer, immediate and bit operations, conditional select, scalar FP, `LI`, `LPC`, jumps and
branches (R150 to R159, R173 to R180). -/
def registerForm : Instr → Bool
  | .add _ _ _ _ | .sub _ _ _ _ | .and _ _ _ _ | .or _ _ _ _ | .xor _ _ _ _ | .andn _ _ _ _ | .sll _ _ _ _ | .srl _ _ _ _ => true
  | .sra _ _ _ _ | .slt _ _ _ _ | .sltn _ _ _ _ | .min _ _ _ _ | .max _ _ _ _ | .minn _ _ _ _ | .maxn _ _ _ _ => true
  | .mul _ _ _ _ | .mulh _ _ _ | .mulhn _ _ _ | .div _ _ _ _ | .divn _ _ _ _ | .rem _ _ _ _ | .remn _ _ _ _ => true
  | .clz _ _ _ | .ctz _ _ _ | .popc _ _ _ | .bswap _ _ _ | .sextOp _ _ _ | .zextOp _ _ _ | .csel _ _ _ _ => true
  | .addi _ _ _ _ | .andi _ _ _ | .ori _ _ _ | .xori _ _ _ | .slli _ _ _ _ | .srli _ _ _ _ | .srai _ _ _ _ | .slti _ _ _ => true
  | .li _ _ | .liH _ | .lpc _ _ | .jal _ _ | .jalr _ _ _ => true
  | .beq _ _ _ | .bne _ _ _ | .blt _ _ _ | .bge _ _ _ | .bltn _ _ _ | .bgen _ _ _ => true
  | .fadd _ _ _ _ _ | .fsub _ _ _ _ _ | .fmul _ _ _ _ _ | .fdiv _ _ _ _ _ | .fsqrt _ _ _ _ | .fmin _ _ _ _ | .fmax _ _ _ _ => true
  | .fsgnj _ _ _ _ _ | .feq _ _ _ _ | .flt _ _ _ _ | .fle _ _ _ _ | .fclass _ _ _ | .fmvx _ _ _ | .fmvf _ _ _ => true
  | .fmadd _ _ _ _ _ | .fmsub _ _ _ _ _ | .fnmadd _ _ _ _ _ | .fnmsub _ _ _ _ _ | .fcvt _ _ _ _ _ => true
  | _ => false

/-- The instructions of the A-space (R54 to R56). -/
def aForm : Instr → Bool
  | .add _ _ _ _ | .sub _ _ _ _ | .and _ _ _ _ | .or _ _ _ _ | .xor _ _ _ _ | .andn _ _ _ _ | .sll _ _ _ _ | .srl _ _ _ _ => true
  | .sra _ _ _ _ | .slt _ _ _ _ | .sltn _ _ _ _ | .min _ _ _ _ | .max _ _ _ _ | .minn _ _ _ _ | .maxn _ _ _ _ | .mul _ _ _ _ => true
  | .mulh _ _ _ | .mulhn _ _ _ | .div _ _ _ _ | .divn _ _ _ _ | .rem _ _ _ _ | .remn _ _ _ _ | .clz _ _ _ | .ctz _ _ _ => true
  | .popc _ _ _ | .bswap _ _ _ | .sextOp _ _ _ | .zextOp _ _ _ | .csel _ _ _ _ | .fadd _ _ _ _ _ | .fsub _ _ _ _ _ => true
  | .fmul _ _ _ _ _ | .fdiv _ _ _ _ _ | .fsqrt _ _ _ _ | .fmin _ _ _ _ | .fmax _ _ _ _ | .feq _ _ _ _ | .flt _ _ _ _ => true
  | .fle _ _ _ _ | .fsgnj _ _ _ _ _ | .fclass _ _ _ | .fmvx _ _ _ | .fmvf _ _ _ | .fmadd _ _ _ _ _ | .fmsub _ _ _ _ _ => true
  | .fnmadd _ _ _ _ _ | .fnmsub _ _ _ _ _ | .fcvt _ _ _ _ _ | .vadd _ _ _ _ _ _ | .vsub _ _ _ _ _ _ | .vmul _ _ _ _ _ _ => true
  | .vmin _ _ _ _ _ | .vmax _ _ _ _ _ | .vand _ _ _ _ _ | .vor _ _ _ _ _ | .vxor _ _ _ _ _ | .vshl _ _ _ _ _ | .vshr _ _ _ _ _ => true
  | .vcmp _ _ _ _ _ | .vabs _ _ _ _ | .vneg _ _ _ _ | .vmov _ _ _ _ | .vfma _ _ _ _ | .vfms _ _ _ _ | .vsel _ _ _ _ => true
  | .vdot _ _ _ _ | .vrsum _ _ _ _ _ | .vrmax _ _ _ | .vrmin _ _ _ | .vscan _ _ _ _ | .vbmax _ _ _ | .vexp2 _ _ _ => true
  | .vlog2 _ _ _ | .vrcp _ _ _ | .vrsq _ _ _ | .vcvt _ _ _ _ | .vtag _ _ _ | .vqnt _ _ _ _ _ | .vext _ _ _ | .vperm _ _ _ => true
  | _ => false

/-- The instructions of the C-space (R51 to R53, R57). -/
def cForm : Instr → Bool
  | .addi _ _ _ _ | .andi _ _ _ | .ori _ _ _ | .xori _ _ _ | .slli _ _ _ _ | .srli _ _ _ _ | .srai _ _ _ _ | .slti _ _ _ => true
  | .li _ _ | .liH _ | .lpc _ _ | .jal _ _ | .jalr _ _ _ | .beq _ _ _ | .bne _ _ _ | .blt _ _ _ | .bge _ _ _ | .bltn _ _ _ => true
  | .bgen _ _ _ | .lds _ _ _ _ _ | .ldz _ _ _ _ _ | .st _ _ _ _ _ | .ldp _ _ _ _ _ | .stp _ _ _ _ _ | .pf _ _ _ => true
  | .amo _ _ _ _ _ _ _ | .cas _ _ _ _ _ _ | .amog _ _ _ _ _ _ | .fence _ _ | .csrrw _ _ _ | .csrrs _ _ _ | .csrrc _ _ _ => true
  | .hld _ _ | .hgive _ _ _ | .hqry _ _ _ | .post _ _ | .endTask | .ends _ _ | .claim _ | .unclaim _ | .ecall | .ebreak => true
  | .eret | .fkill _ | .migr _ _ _ | .send _ _ _ | .reply _ _ | .bindH _ _ _ | .unbind _ _ | .swaph _ _ _ | .vclaim _ _ _ _ => true
  | .vfree | .vsbind _ _ | .vsfree _ | .solicit _ _ _ | .respond _ | .cbar _ _ | .tilereg _ _ | .tiledel _ _ | .tilemove _ _ _ => true
  | .censq _ _ | .cpy _ _ _ | .cpyst _ _ | .cpoll _ _ | .bseal _ _ _ | .bopen _ _ _ | .llcfg _ _ | .cflush _ _ _ _ _ => true
  | .cclean _ _ _ _ _ | .cinv _ _ _ _ _ | .grrun _ _ | .grsig _ _ | .grcan _ _ | .grqry _ _ | .spawn _ _ _ _ _ | .joini _ _ => true
  | .join _ _ _ | .termq _ _ | .xpost _ | .xqry _ _ | .watch _ _ _ _ _ _ | .vld _ _ _ _ | .vst _ _ _ | .vldx _ _ _ _ _ => true
  | .vstx _ _ _ _ | .mcfg _ | .mbld _ _ _ | .mgang _ _ _ _ _ | .mdrain _ _ _ _ _ | .mstat _ _ | .mcancel _ _ | .mzero _ _ _ => true
  | _ => false

/-- Two frames with the same registers: general, floating-point and handle registers, tags and streams, and the CSRs that a frame has. -/
def sameRegisters (f g : Frame) : Prop :=
  f.x = g.x ∧ f.f = g.f ∧ f.h = g.h ∧ f.tags = g.tags ∧ f.streams = g.streams ∧ f.fcsr = g.fcsr ∧ f.level = g.level ∧ f.asid = g.asid ∧
    f.vlen = g.vlen ∧ f.ecause = g.ecause ∧ f.eval = g.eval ∧ f.epc = g.epc ∧ f.sawctl = g.sawctl ∧ f.sawaddr = g.sawaddr ∧ f.sawdata = g.sawdata

/-- An invariant of a module that has tripped and whose agenda holds no reset (R519). -/
def trippedForGood (s : State) : Prop := s.pkg.tripped = true ∧ Turn.input .moduleReset ∉ s.agenda

end Sys2Proof.Safety
end

