-- ==== Sys2Proof/Certificates/Slice0/Obligations.lean ====
section
/-! DEFINITION. The statements about the machine, for the provers. Each follows the rules of spec/ that its docstring names. -/

open Sys2Proof Sys2Proof.Machine Sys2Proof.Safety

/-- For every state, width and registers, ADD, SUB, AND, OR, XOR, ANDN, SLL, SRL, SRA, SLT, SLTN, MIN, MAX, MINN and MAXN,
in the 64-bit form and in the .w form, answer a next state that differs from the old one only by one result for x[rd]
of latency 1 (nothing for x0): the value of the table of R150 over x[rs1] and x[rs2], sign-extended from 32 bits in
the .w form. -/
def Obligations.IntegerFormsWriteTheirResult : Prop :=
  ∀ (s : State) (w : Bool) (b a d : Reg),
    exec (.add w b a d) s = .next (s.fixedX d (wRes w (s.xr a + s.xr b)) 1) ∧
    exec (.sub w b a d) s = .next (s.fixedX d (wRes w (s.xr a - s.xr b)) 1) ∧
    exec (.and w b a d) s = .next (s.fixedX d (wRes w (s.xr a &&& s.xr b)) 1) ∧
    exec (.or w b a d) s = .next (s.fixedX d (wRes w (s.xr a ||| s.xr b)) 1) ∧
    exec (.xor w b a d) s = .next (s.fixedX d (wRes w (s.xr a ^^^ s.xr b)) 1) ∧
    exec (.andn w b a d) s = .next (s.fixedX d (wRes w (s.xr a &&& ~~~(s.xr b))) 1) ∧
    exec (.sll w b a d) s = .next (s.fixedX d (wRes w (s.xr a <<< ((s.xr b).toNat % width w))) 1) ∧
    exec (.srl w b a d) s = .next (s.fixedX d (wRes w (zOpd w (s.xr a) >>> ((s.xr b).toNat % width w))) 1) ∧
    exec (.sra w b a d) s = .next (s.fixedX d (wRes w ((sOpd w (s.xr a)).sshiftRight ((s.xr b).toNat % width w))) 1) ∧
    exec (.slt w b a d) s = .next (s.fixedX d (if (sOpd w (s.xr a)).toInt < (sOpd w (s.xr b)).toInt then 1 else 0) 1) ∧
    exec (.sltn w b a d) s = .next (s.fixedX d (if (zOpd w (s.xr a)).toNat < (zOpd w (s.xr b)).toNat then 1 else 0) 1) ∧
    exec (.min w b a d) s
      = .next (s.fixedX d (wRes w (if (sOpd w (s.xr b)).toInt < (sOpd w (s.xr a)).toInt then s.xr b else s.xr a)) 1) ∧
    exec (.max w b a d) s
      = .next (s.fixedX d (wRes w (if (sOpd w (s.xr a)).toInt < (sOpd w (s.xr b)).toInt then s.xr b else s.xr a)) 1) ∧
    exec (.minn w b a d) s
      = .next (s.fixedX d (wRes w (if (zOpd w (s.xr b)).toNat < (zOpd w (s.xr a)).toNat then s.xr b else s.xr a)) 1) ∧
    exec (.maxn w b a d) s
      = .next (s.fixedX d (wRes w (if (zOpd w (s.xr a)).toNat < (zOpd w (s.xr b)).toNat then s.xr b else s.xr a)) 1)

/-- For every state and registers, MUL, MULH, MULHN (latency 3), DIV, DIVN, REM and REMN (latency 14 in the .w form, else
22) answer a next state with one result for x[rd]: the low half of the product; bits 127 to 64 of the signed and of
the natural product; for a zero divisor the quotients -1 and all ones and the dividend as remainder; for any other
divisor the quotient rounded toward zero and the remainder with the sign of the dividend, narrowed to the width (so
that the most negative number divided by -1 gives itself, remainder 0). -/
def Obligations.MultiplyAndDivideResults : Prop :=
  ∀ (s : State) (w : Bool) (b a d : Reg),
    let lat : Nat := if w then 14 else 22
    exec (.mul w b a d) s = .next (s.fixedX d (wRes w (s.xr a * s.xr b)) 3) ∧
    exec (.mulh b a d) s = .next (s.fixedX d (BitVec.ofInt 64 ((s.xr a).toInt * (s.xr b).toInt / 2 ^ 64)) 3) ∧
    exec (.mulhn b a d) s = .next (s.fixedX d (BitVec.ofNat 64 ((s.xr a).toNat * (s.xr b).toNat / 2 ^ 64)) 3) ∧
    exec (.div w b a d) s = .next (s.fixedX d (if (sOpd w (s.xr b)).toInt = 0 then BitVec.allOnes 64
      else wRes w (BitVec.ofInt 64 ((sOpd w (s.xr a)).toInt.tdiv (sOpd w (s.xr b)).toInt))) lat) ∧
    exec (.divn w b a d) s = .next (s.fixedX d (if (zOpd w (s.xr b)).toNat = 0 then BitVec.allOnes 64
      else wRes w (BitVec.ofNat 64 ((zOpd w (s.xr a)).toNat / (zOpd w (s.xr b)).toNat))) lat) ∧
    exec (.rem w b a d) s = .next (s.fixedX d (wRes w (if (sOpd w (s.xr b)).toInt = 0 then s.xr a
      else BitVec.ofInt 64 ((sOpd w (s.xr a)).toInt.tmod (sOpd w (s.xr b)).toInt))) lat) ∧
    exec (.remn w b a d) s = .next (s.fixedX d (wRes w (if (zOpd w (s.xr b)).toNat = 0 then s.xr a
      else BitVec.ofNat 64 ((zOpd w (s.xr a)).toNat % (zOpd w (s.xr b)).toNat))) lat)

/-- For every state and registers, CLZ, CTZ and POPC answer the number n of leading zeros, of trailing zeros (all of the
width for 0) and of one bits of x[rs1] at the width; BSWAP the bytes in reverse order; SEXT and ZEXT the extension
from 8, 16 or 32 bits; CSEL x[rs1] when x[rs3] is not zero and x[rs2] otherwise; each as one result for x[rd] of
latency 1 and nothing else. -/
def Obligations.BitOperationsAndSelect : Prop :=
  ∀ (s : State) (w : Bool) (c b a d : Reg),
    (∃ n, exec (.clz w a d) s = .next (s.fixedX d (BitVec.ofNat 64 n) 1) ∧ n ≤ width w ∧
      (s.xr a).toNat % 2 ^ width w < 2 ^ (width w - n) ∧ (n < width w → 2 ^ (width w - n - 1) ≤ (s.xr a).toNat % 2 ^ width w)) ∧
    (∃ n, exec (.ctz w a d) s = .next (s.fixedX d (BitVec.ofNat 64 n) 1) ∧ n ≤ width w ∧
      (∀ k < n, (s.xr a).getLsbD k = false) ∧ (n < width w → (s.xr a).getLsbD n = true)) ∧
    exec (.popc w a d) s
      = .next (s.fixedX d (BitVec.ofNat 64 ((List.range (width w)).countP (fun k => (s.xr a).getLsbD k))) 1) ∧
    exec (.bswap w a d) s
      = .next (s.fixedX d (wRes w (BitVec.ofNat 64 (ofBytes (toBytes (width w / 8) (s.xr a).toNat).reverse))) 1) ∧
    (∀ sz : BitVec 2, exec (.sextOp sz a d) s = .next (s.fixedX d (sext (8 * 2 ^ sz.toNat) (s.xr a)) 1)) ∧
    (∀ sz : BitVec 2, exec (.zextOp sz a d) s = .next (s.fixedX d (zext (8 * 2 ^ sz.toNat) (s.xr a)) 1)) ∧
    exec (.csel c b a d) s = .next (s.fixedX d (if s.xr c ≠ 0 then s.xr a else s.xr b) 1)

/-- For every state and operands, ADDI, ANDI, ORI, XORI and SLTI take the sign-extended imm9, or the sign-extended literal
of a lone bundle; SLLI, SRLI and SRAI shift by imm9 modulo the width, which is imm9 itself for every well-formed one;
LI loads imm18 or the literal; LI.h puts the literal above the old low half of x[rd]; LPC adds the offset in bytes to
the address of its bundle. Each answers one result for x[rd] of latency 1 and changes nothing else. -/
def Obligations.ImmediateFormsResults : Prop :=
  ∀ (s : State) (w : Bool) (imm : BitVec 9) (a d : Reg) (i18 : BitVec 18) (i19 : BitVec 19),
    let lit : Word := s.iss.w1.signExtend 64
    let v : Word := if s.iss.lone then lit else imm.signExtend 64
    exec (.addi w imm a d) s = .next (s.fixedX d (wRes w (s.xr a + v)) 1) ∧
    exec (.andi imm a d) s = .next (s.fixedX d (s.xr a &&& v) 1) ∧
    exec (.ori imm a d) s = .next (s.fixedX d (s.xr a ||| v) 1) ∧
    exec (.xori imm a d) s = .next (s.fixedX d (s.xr a ^^^ v) 1) ∧
    exec (.slti imm a d) s = .next (s.fixedX d (if (s.xr a).toInt < v.toInt then 1 else 0) 1) ∧
    ((Instr.slli w imm a d).wellFormed = true → exec (.slli w imm a d) s = .next (s.fixedX d (wRes w (s.xr a <<< imm.toNat)) 1)) ∧
    ((Instr.srli w imm a d).wellFormed = true →
      exec (.srli w imm a d) s = .next (s.fixedX d (wRes w (zOpd w (s.xr a) >>> imm.toNat)) 1)) ∧
    ((Instr.srai w imm a d).wellFormed = true →
      exec (.srai w imm a d) s = .next (s.fixedX d (wRes w ((sOpd w (s.xr a)).sshiftRight imm.toNat)) 1)) ∧
    exec (.li i18 d) s = .next (s.fixedX d (if s.iss.lone then lit else i18.signExtend 64) 1) ∧
    exec (.liH d) s = .next (s.fixedX d (BitVec.ofNat 64 (s.iss.w1.toNat * 2 ^ 32 + (s.xr d).toNat % 2 ^ 32)) 1) ∧
    exec (.lpc i19 d) s = .next (s.fixedX d (s.iss.pc + (if s.iss.lone then lit else i19.signExtend 64)) 1)

/-- For every state and operands, BEQ, BNE, BLT, BGE, BLTN and BGEN set the pc of the issuing frame to the address of the
bundle plus 8 times the offset (imm14, or the literal of a lone bundle) when the condition on x[rs1] and x[rs2] holds
and change nothing otherwise; JAL sets it likewise and writes pc + 8 to x[rd]; JALR, when x[rs1] + 8 imm9 is a
multiple of 8, goes there and writes pc + 8, and when it is not raises cause 0 with that address and writes nothing. -/
def Obligations.BranchesAndJumps : Prop :=
  ∀ (s : State) (imm : BitVec 14) (j : BitVec 19) (k : BitVec 9) (b a d : Reg),
    let lit : Word := s.iss.w1.signExtend 64
    let goTo : Word → State → State := fun t u => u.modCf (fun f => { f with pc := t })
    let bt : State := goTo (s.iss.pc + 8 * (if s.iss.lone then lit else imm.signExtend 64)) s
    let t : Word := s.xr a + 8 * k.signExtend 64
    exec (.beq imm b a) s = .next (if s.xr a = s.xr b then bt else s) ∧
    exec (.bne imm b a) s = .next (if s.xr a ≠ s.xr b then bt else s) ∧
    exec (.blt imm b a) s = .next (if (s.xr a).toInt < (s.xr b).toInt then bt else s) ∧
    exec (.bge imm b a) s = .next (if (s.xr b).toInt ≤ (s.xr a).toInt then bt else s) ∧
    exec (.bltn imm b a) s = .next (if (s.xr a).toNat < (s.xr b).toNat then bt else s) ∧
    exec (.bgen imm b a) s = .next (if (s.xr b).toNat ≤ (s.xr a).toNat then bt else s) ∧
    exec (.jal j d) s
      = .next (goTo (s.iss.pc + 8 * (if s.iss.lone then lit else j.signExtend 64)) (s.fixedX d (s.iss.pc + 8) 1)) ∧
    (t.toNat % 8 = 0 → exec (.jalr k a d) s = .next (goTo t (s.fixedX d (s.iss.pc + 8) 1))) ∧
    (t.toNat % 8 ≠ 0 → exec (.jalr k a d) s = .next (s.raise 0 t))

/-- For every state and operands, with room for its results and queue entries: LDS and LDZ whose access passes the checks
owe one result for x[rd] (none for x0), extended from the element size, and issue a load to the target found; ST
issues a store of the low bytes of x[rd]; LDP and STP, whose checks cover both elements, owe two results or store the
low bytes of x[rd] and x[rd + 1] (zeros for rd = x0, as R161 has it of STP), as accesses of one queue entry of which
the second leaves after the first (through a GLOBAL handle each element is checked by itself), a REMOTE STP as one
STORE packet of both elements. Nothing else changes but the translation cache. That a load for x0 counts as a result
without a destination (log entry 51), that the accesses of one instruction share one entry (log entry 45) and the
zeros of STP with rd = x0 (log entry 60) are the model's readings. -/
def Obligations.LoadsAndStoresIssue : Prop :=
  ∀ (s : State) (imm : BitVec 9) (h : HReg) (sz : BitVec 2) (a d : Reg) (t t2 : Target),
    let off : Word := s.xr a + (if s.iss.lone then s.iss.w1.signExtend 64 else imm.signExtend 64)
    let e : Nat := 2 ^ sz.toNat
    let u : State := s.noteCheck t.walk
    let one : Bool → State := fun sg => (owes u (if d = 0 then .none else .x d sg e)).access t 0 (some u.uid) 0 (.load e) .rlx
    let two : State → Target → State := fun v t' =>
      let w := owes (owes v (if d = 0 then .none else .x d false e)) (.x (d + 1) false e)
      (w.accessG t 0 (some v.uid) 0 (.load e) .rlx w.uid true).accessG t' 0 (some (v.uid + 1)) e (.load e) .rlx w.uid false
    let second : Nat := if d = 0 then 0 else (s.xr (d + 1)).toNat
    let both : State := u.access t 0 none e (.store (toBytes e (s.xr d).toNat ++ toBytes e second)) .rlx
    let put : State → Target → State := fun v t' =>
      (v.accessG t 0 none 0 (.store (toBytes e (s.xr d).toNat)) .rlx v.uid true).accessG t' 0 none e (.store (toBytes e second)) .rlx v.uid false
    (hasRoom s 1 1 → passes s h off e e .load false t →
      exec (.lds imm h sz a d) s = .next (one true) ∧ exec (.ldz imm h sz a d) s = .next (one false)) ∧
    (hasRoom s 0 1 → passes s h off e e .store false t →
      exec (.st imm h sz a d) s = .next (u.access t 0 none 0 (.store (toBytes e (s.xr d).toNat)) .rlx)) ∧
    (hasRoom s 2 1 → passes s h off (2 * e) e .load false t → t.space ≠ 2 →
      exec (.ldp imm h sz a d) s = .next (two u { t with addr := t.addr + e })) ∧
    (hasRoom s 2 1 → passes s h off (2 * e) e .load false t → t.space = 2 →
      passes u h (off + BitVec.ofNat 64 e) e e .load false t2 →
      exec (.ldp imm h sz a d) s = .next (two (u.noteCheck t2.walk) t2)) ∧
    (hasRoom s 0 1 → passes s h off (2 * e) e .store false t → t.space ≠ 2 →
      exec (.stp imm h sz a d) s = .next (if t.space = 1 then both else put u { t with addr := t.addr + e })) ∧
    (hasRoom s 0 1 → passes s h off (2 * e) e .store false t → t.space = 2 →
      passes u h (off + BitVec.ofNat 64 e) e e .store false t2 →
      exec (.stp imm h sz a d) s = .next (put (u.noteCheck t2.walk) t2))

/-- For every state and operands: PF whose access fails a check of R120, or goes through another space than GLOBAL,
changes nothing; PF through a GLOBAL handle that passes, with room in the queue, keeps the translation and enters one
access of the prefetch kind, which owes no result. When that access reaches the data cache of its core, a line that
the cache does not hold and does not wait for is asked of its home with an RdS. -/
def Obligations.PrefetchCompletes : Prop :=
  ∀ (s : State) (imm : BitVec 9) (h : HReg) (a : Reg),
    let off : Word := s.xr a + (if s.iss.lone then s.iss.w1.signExtend 64 else imm.signExtend 64)
    let chk := s.check s.det h off 1 1 .load false false [2]
    ((∃ c v, chk = .fault c v) → exec (.pf imm h a) s = .next s) ∧
    (∀ t, chk = .ok t → hasRoom s 0 1 → exec (.pf imm h a) s = .next ((s.noteCheck t.walk).access t 0 none 0 .pf .rlx)) ∧
    (∀ (p : Access) (na pin : Bool),
      let line := p.addr / 128 * 128
      let d := (s.core p.core).dcache
      p.op = .pf → d.lines.find line = none → d.pend.any (fun q => q.1.addr / 128 * 128 == line) = false → d.wbuf.find line = none →
      s.cacheAccess p na pin = (s.modCore p.core (fun c => { c with dcache := { c.dcache with
        pend := c.dcache.pend ++ [(p, line, na, pin)] } })).askHome (frameReq .rds p.core p.prio line p.asid na pin))

/-- For every state and operands, AMO, CAS and AMOG with room and past the checks of R120 (as atomics of the word size n
at x[rs1]) owe one result for x[rd] and issue one atomic access. At the port, on a word w of n bytes: AMO.add leaves
(w + b) mod 2^8n, swap leaves b, and, or, xor their bitwise results, minn and maxn the smaller and the larger natural,
min and max likewise as signed, and each answers w; CAS stores the new value only when w equals the expected one and
answers w; AMOG answers the count and the start of the chunk, and adds the count to the index (and one to the claim
serial of an 8-byte word) only when the count is not zero. That an atomic for x0 counts as a result without a
destination is the model's reading (log entry 51). -/
def Obligations.AtomicsIssueAndActInOneStep : Prop :=
  (∀ (s : State) (dd : Bool) (op : AmoOp) (ord : MemOrd) (h : HReg) (b a d : Reg) (t : Target),
    let n : Nat := if dd then 8 else 4
    let u : State := s.noteCheck t.walk
    let go : Nat → AccOp → State := fun k o => (owes u (if d = 0 then .none else .x d true k)).access t 0 (some u.uid) 0 o ord
    (hasRoom s 1 1 → passes s h (s.xr a) n n .atomic (op == .fadd) t →
      exec (.amo dd op ord h b a d) s = .next (go n (.amo op n (s.xr b)))) ∧
    (hasRoom s 1 1 → passes s h (s.xr a) n n .atomic false t →
      exec (.cas dd ord h b a d) s = .next (go n (.cas n (s.xr d) (s.xr b))) ∧
      exec (.amog dd ord h b a d) s = .next (go 8 (.amog n (s.xr b))))) ∧
  (∀ (n : Nat) (cur : List Byte) (b e v : Word),
    let w := ofBytes cur
    let y := b.toNat % 2 ^ (8 * n)
    let sg : Nat → Int := fun k => (BitVec.ofNat (8 * n) k).toInt
    (AccOp.amo .add n b).apply cur = (some (toBytes n ((w + y) % 2 ^ (8 * n))), cur) ∧
    (AccOp.amo .andOp n b).apply cur = (some (toBytes n (w &&& y)), cur) ∧
    (AccOp.amo .orOp n b).apply cur = (some (toBytes n (w ||| y)), cur) ∧
    (AccOp.amo .xorOp n b).apply cur = (some (toBytes n (w ^^^ y)), cur) ∧
    (AccOp.amo .swap n b).apply cur = (some (toBytes n y), cur) ∧
    (AccOp.amo .minn n b).apply cur = (some (toBytes n (min w y)), cur) ∧
    (AccOp.amo .maxn n b).apply cur = (some (toBytes n (max w y)), cur) ∧
    (AccOp.amo .min n b).apply cur = (some (toBytes n (if sg y < sg w then y else w)), cur) ∧
    (AccOp.amo .max n b).apply cur = (some (toBytes n (if sg w < sg y then y else w)), cur) ∧
    (AccOp.cas n e v).apply cur
      = (if w = e.toNat % 2 ^ (8 * n) then some (toBytes n v.toNat) else none, cur)) ∧
  (∀ (n : Nat) (cur : List Byte) (b : Word),
    let w := ofBytes cur
    let lim := b.toNat / 2 ^ 32
    let dv := max 1 (b.toNat / 2 ^ 16 % 2 ^ 16)
    let mn := max 1 (b.toNat % 2 ^ 16)
    let i := w % 2 ^ 32
    let c := if lim ≤ i then 0 else min (lim - i) (max mn ((lim - i + dv - 1) / dv))
    let lo := (i + c) % 2 ^ 32
    let new := if n = 8 then lo + (w / 2 ^ 32 + 1) % 2 ^ 32 * 2 ^ 32 else lo
    (AccOp.amog n b).apply cur = (if c = 0 then none else some (toBytes n new), toBytes 8 (c * 2 ^ 32 + i)))

/-- For every state: FENCE enters the queue of the core with its kind and scope and writes no register. For every CSR
number listed for the mode of the frame (and outside a deterministic launch, where the probes of R378 fault), CSRRW
answers the old value for x[rd] and writes x[rs1]; CSRRS and CSRRC write the old value with the bits of x[rs1] set or
cleared, and with rs1 = x0 write nothing; a CSR with no writable field takes no write; results have latency 2. A
number not listed raises cause 2 with the C-slot word. (GFLAGS of a memory core, whose value the spec does not give,
is apart: log entry 6.) -/
def Obligations.FencesAndCsrAccesses : Prop :=
  (∀ (s : State) (scope : Scope) (kind : FenceKind),
    exec (.fence scope kind) s
      = .next ({ s with uid := s.uid + 1 }.enqueue s.iss.ep (QEnt.mk s.uid s.cf.fid s.iss.win (.fence kind scope) false s.uid false))) ∧
  (∀ (s : State) (n : BitVec 12) (a d : Reg),
    let old := s.csrRead n.toNat
    let put : Word → State → State := fun v t => if csrRw n.toNat then t.fixed (.csr n) (.word v) 0 2 else t
    (csrOk s.cf.fm n.toNat = true → s.det = false → ¬(n = 0x103 ∧ isMemCore s.iss.ep = true) →
      exec (.csrrw n a d) s = .next (put (s.xr a) (s.fixedX d old 2)) ∧
      exec (.csrrs n a d) s = .next (if a = 0 then s.fixedX d old 2 else put (old ||| s.xr a) (s.fixedX d old 2)) ∧
      exec (.csrrc n a d) s = .next (if a = 0 then s.fixedX d old 2 else put (old &&& ~~~(s.xr a)) (s.fixedX d old 2))) ∧
    (csrOk s.cf.fm n.toNat = false →
      exec (.csrrw n a d) s = .next (s.raise 2 (s.iss.w0.setWidth 64)) ∧
      exec (.csrrs n a d) s = .next (s.raise 2 (s.iss.w0.setWidth 64)) ∧
      exec (.csrrc n a d) s = .next (s.raise 2 (s.iss.w0.setWidth 64))))

/-- For every state and operands. HLD of an index below HTCOUNT whose entry has been read (the answer the frame held for)
and keeps R112 and R113, with room for a result and outside the deterministic case of cause 27, owes one result for
the handle register, which the entry with its CAP fills. HQRY with room answers BASE, BOUND or one of the two other
words of the register, by x[rs1][1:0]. HGIVE of a valid SW handle that holds the capability, to an enabled core with
room, drops the capability in every copy on the core, registers and results of HLD on their way alike, and sends the
request that gives the entry its new holder (bits 29 to 17 of word 2) to the home of its line after a release of the
earlier accesses at module scope. That an HQRY for x0 counts as a result without a destination (log entry 51), and how
a handle is given (log entry 18), are the model's readings. -/
def Obligations.HandleInstructionsComplete : Prop :=
  ∀ (s : State) (h : HReg) (a d : Reg) (ws : List Word),
    (let i := (s.xr a).toNat;
      i < s.htCount s.cf.asid → handleAnswer s.cf.answer i = some ws → handleOk ws = true → s.det = false → hasRoom s 1 0 →
      let u := s.modCf (fun f => { f with answer := none })
      exec (.hld h a) s = .next ((owes u (.h h)).later (.variableResultWriteback (owes u (.h h)).iss.ep (owes u (.h h)).iss.win s.cf.fid u.uid
        (.handle (handleFrom ws s.cf.asid i (coreIdOf (owes u (.h h)).iss.ep))) 0 false))) ∧
    (hasRoom s 1 0 →
      let g := s.cf.getH h
      let k := (s.xr a).toNat % 4
      let v := if k = 0 then g.base else if k = 1 then g.bound else if k = 2 then g.w2 else g.w3
      let t := owes s (if d = 0 then .none else .x d true 8);
      exec (.hqry h a d) s = .next (t.later (.variableResultWriteback t.iss.ep t.iss.win t.cf.fid s.uid (.word v) 0 false))) ∧
    (let g := s.cf.getH h;
      g.valid = true → bitOf g.w3 4 = true → g.cap = true → (s.xr a).toNat < 4096 → s.disabled (s.xr a).toNat = false → hasRoom s 1 1 →
      let w := owes (s.dropCaps s.iss.ep g.asid g.index) (if d = 0 then .none else .x d true 8)
      let pa := w.entryAddr g.asid g.index + 16
      let q : HomeReq := { frameReq .wb w.iss.ep w.iss.win (pa / 128 * 128) g.asid false false with
        once := true
        mask := BitVec.ofNat 128 (0xC <<< (pa % 128))
        limit := (s.xr a).toNat
        tid := g.index * 8 + h.toNat
        tag := s.uid + 1 }
      exec (.hgive h a d) s = .next (w.releaseThen .module [(0, w.iss.ep, q.home, .wb q)]))

/-- For every state and operands, under the rounding mode that the code or, for DYN and the fused forms, the FRM field of
FCSR gives: FADD, FSUB and FMUL (latency 4), FDIV (12 or 20) and FSQRT (14 or 24) and FMADD, FMSUB, FNMADD, FNMSUB (5)
answer one result for f[rd] with the flags of its rounding, where an FP32 operand is bits 31 to 0 of its register and
an FP32 result has its upper half zero. When the mode is taken from FRM and FRM is not 0 to 4, each raises cause 2
with the A-slot word. -/
def Obligations.FloatArithmeticRoundsOnce : Prop :=
  ∀ (s : State) (rm : Rnd) (dd : Bool) (c b a d : Reg) (m : BitVec 3),
    let x : Reg → Nat := fun r => if dd then (s.fr r).toNat else (s.fr r).toNat % 2 ^ 32
    let w : Nat → Word := fun v => if dd then BitVec.ofNat 64 v else BitVec.ofNat 64 (v % 2 ^ 32)
    let f : Fmt := if dd then .f64 else .f32
    let put : Nat × FlagSet → Nat → Out := fun v lat => .next (s.fixedF d (w v.1) v.2 lat)
    let ill : Out := .next (s.raise 2 (0x100000000 ||| s.iss.w1.setWidth 64))
    (s.mode (rndCode rm) = some m →
      exec (.fadd rm dd b a d) s = put (fAdd f m (x a) (x b)) 4 ∧
      exec (.fsub rm dd b a d) s = put (fSub f m (x a) (x b)) 4 ∧
      exec (.fmul rm dd b a d) s = put (fMul f m (x a) (x b)) 4 ∧
      exec (.fdiv rm dd b a d) s = put (fDiv f m (x a) (x b)) (if dd then 20 else 12) ∧
      exec (.fsqrt rm dd a d) s = put (fSqrt f m (x a)) (if dd then 24 else 14)) ∧
    (s.mode 7 = some m →
      exec (.fmadd dd c b a d) s = put (fMulAdd f m false false (x a) (x b) (x c)) 5 ∧
      exec (.fmsub dd c b a d) s = put (fMulAdd f m false true (x a) (x b) (x c)) 5 ∧
      exec (.fnmadd dd c b a d) s = put (fMulAdd f m true true (x a) (x b) (x c)) 5 ∧
      exec (.fnmsub dd c b a d) s = put (fMulAdd f m true false (x a) (x b) (x c)) 5) ∧
    (rm ≠ .dyn → s.mode (rndCode rm) = some (rndCode rm)) ∧
    (s.cf.fcsr.toNat / 32 % 8 ≤ 4 → s.mode 7 = some (BitVec.ofNat 3 (s.cf.fcsr.toNat / 32 % 8))) ∧
    (5 ≤ s.cf.fcsr.toNat / 32 % 8 →
      exec (.fadd .dyn dd b a d) s = ill ∧ exec (.fsub .dyn dd b a d) s = ill ∧ exec (.fmul .dyn dd b a d) s = ill ∧
      exec (.fdiv .dyn dd b a d) s = ill ∧ exec (.fsqrt .dyn dd a d) s = ill ∧ exec (.fmadd dd c b a d) s = ill ∧
      exec (.fmsub dd c b a d) s = ill ∧ exec (.fnmadd dd c b a d) s = ill ∧ exec (.fnmsub dd c b a d) s = ill)

/-- For every state and operands: FMIN, FMAX and FEQ, FLT, FLE (latency 2) answer the value and the flags of the operand
comparison, and with a NaN among the operands the other operand, or 0, with NV as R176 has it; FSGNJ the magnitude of
f[rs1] with the sign of f[rs2], its inverse, or the exclusive or of both; FCLASS the one bit that R177 gives the class
of f[rs1]; FMVX and FMVF copy bits; FCVT, under a legal mode, one rounding between the formats, an integer (whole, or
the low half extended by its signedness) rounded to the format, or the format rounded into the integer range of the
width; each as one result and nothing else. -/
def Obligations.FloatMovesComparesAndConversions : Prop :=
  ∀ (s : State) (dd w : Bool) (rm : Rnd) (b a d : Reg) (m : BitVec 3),
    let x : Bool → Reg → Nat := fun l r => if l then (s.fr r).toNat else (s.fr r).toNat % 2 ^ 32
    let f : Fmt := if dd then .f64 else .f32
    let wd : Bool → Nat → Word := fun l v => if l then BitVec.ofNat 64 v else BitVec.ofNat 64 (v % 2 ^ 32)
    let top : Nat := if dd then 63 else 31
    let mag : Word := if dd then s.fr a else (s.fr a).setWidth 32 |>.setWidth 64
    let sign : Bool → Word := fun g => if g then mag &&& ~~~(BitVec.twoPow 64 top) ||| BitVec.twoPow 64 top else mag &&& ~~~(BitVec.twoPow 64 top)
    let sa := (s.fr a).getLsbD top
    let sb := (s.fr b).getLsbD top
    let int : Bool → Int := fun sg => if sg then (sOpd w (s.xr a)).toInt else (zOpd w (s.xr a)).toNat
    let bits : Nat := if w then 32 else 64
    let mb : Nat := if dd then 52 else 23
    let eb : Nat := if dd then 11 else 8
    let fr : Reg → Nat := fun r => x dd r % 2 ^ mb
    let ex : Reg → Nat := fun r => x dd r / 2 ^ mb % 2 ^ eb
    let nan : Reg → Prop := fun r => ex r = 2 ^ eb - 1 ∧ fr r ≠ 0
    let sig : Reg → Prop := fun r => nan r ∧ fr r < 2 ^ (mb - 1)
    exec (.fmin dd b a d) s = .next (s.fixedF d (wd dd (fMinMax f false (x dd a) (x dd b)).1) (fMinMax f false (x dd a) (x dd b)).2 2) ∧
    exec (.fmax dd b a d) s = .next (s.fixedF d (wd dd (fMinMax f true (x dd a) (x dd b)).1) (fMinMax f true (x dd a) (x dd b)).2 2) ∧
    exec (.feq dd b a d) s = .next (s.fixedXF d (if (fEq f (x dd a) (x dd b)).1 then 1 else 0) (fEq f (x dd a) (x dd b)).2 2) ∧
    exec (.flt dd b a d) s = .next (s.fixedXF d (if (fLt f (x dd a) (x dd b)).1 then 1 else 0) (fLt f (x dd a) (x dd b)).2 2) ∧
    exec (.fle dd b a d) s = .next (s.fixedXF d (if (fLe f (x dd a) (x dd b)).1 then 1 else 0) (fLe f (x dd a) (x dd b)).2 2) ∧
    exec (.fsgnj .plain dd b a d) s = .next (s.fixedF d (sign sb) 0 1) ∧
    exec (.fsgnj .n dd b a d) s = .next (s.fixedF d (sign (!sb)) 0 1) ∧
    exec (.fsgnj .x dd b a d) s = .next (s.fixedF d (sign (sa != sb)) 0 1) ∧
    exec (.fclass dd a d) s = .next (s.fixedX d (BitVec.ofNat 64 (2 ^ (if ex a = 2 ^ eb - 1 then
        (if fr a ≠ 0 then (if fr a < 2 ^ (mb - 1) then 8 else 9) else if sa then 0 else 7)
      else if ex a = 0 then (if fr a = 0 then (if sa then 3 else 4) else if sa then 2 else 5)
      else if sa then 1 else 6))) 1) ∧
    (nan a ∨ nan b →
      exec (.feq dd b a d) s = .next (s.fixedXF d 0 (if sig a ∨ sig b then 16 else 0) 2) ∧
      exec (.flt dd b a d) s = .next (s.fixedXF d 0 16 2) ∧ exec (.fle dd b a d) s = .next (s.fixedXF d 0 16 2)) ∧
    (nan a → ¬nan b → ∀ hi : Bool,
      exec (if hi then .fmax dd b a d else .fmin dd b a d) s = .next (s.fixedF d (wd dd (x dd b)) (if sig a then 16 else 0) 2)) ∧
    (¬nan a → nan b → ∀ hi : Bool,
      exec (if hi then .fmax dd b a d else .fmin dd b a d) s = .next (s.fixedF d (wd dd (x dd a)) (if sig b then 16 else 0) 2)) ∧
    exec (.fmvx dd a d) s = .next (s.fixedX d (if dd then s.fr a else (s.fr a).setWidth 32 |>.signExtend 64) 1) ∧
    exec (.fmvf dd a d) s = .next (s.fixedF d (if dd then s.xr a else (s.xr a).setWidth 32 |>.setWidth 64) 0 1) ∧
    (s.mode (rndCode rm) = some m →
      exec (.fcvt .s_d w rm a d) s = .next (s.fixedF d (wd false (fConvert .f64 .f32 m (x true a)).1) (fConvert .f64 .f32 m (x true a)).2 4) ∧
      exec (.fcvt .d_s w rm a d) s = .next (s.fixedF d (wd true (fConvert .f32 .f64 m (x false a)).1) (fConvert .f32 .f64 m (x false a)).2 4) ∧
      (∀ t : CvtForm, t = .s_i ∨ t = .s_n ∨ t = .d_i ∨ t = .d_n →
        let l := t == .d_i || t == .d_n
        let r := intToF (if l then .f64 else .f32) m (int (t == .s_i || t == .d_i))
        exec (.fcvt t w rm a d) s = .next (s.fixedF d (wd l r.1) r.2 4)) ∧
      (∀ t : CvtForm, t = .i_s ∨ t = .n_s ∨ t = .i_d ∨ t = .n_d →
        let l := t == .i_d || t == .n_d
        let sg := t == .i_s || t == .i_d
        let r := valToInt m sg bits ((if l then Fmt.f64 else .f32).decode (x l a))
        exec (.fcvt t w rm a d) s = .next (s.fixedXF d (intWord sg bits r.1) r.2 4)))

/-- For every state: POST whose checks on record and target pass (with room in the access queue) makes the record busy and
queues its release behind the accesses its scope covers; END and ENDS of a frame that holds no claim make the frame
ENDING after the same and, for ENDS, after the checks of POST; CLAIM of a free slot of the core that is valid, of the
ASID of the frame, declared by its kind and of a ceiling not below its level, marks it held by the level and puts it
on top of the claim stack; UNCLAIM of the top of the stack takes it off and selection follows; WATCH makes the record
busy and sends the arm request for the word to its owning port. -/
def Obligations.ReleaseInstructionsComplete : Prop :=
  ∀ (s : State) (b a d : Reg) (r : Release) (h : HReg) (c : WatchCond) (dd : Bool) (t : Target),
    let sl := (s.xr a).toNat % 64
    let e := vget 0 s.cc.ceiling sl
    let mine := s.cc.claims.filter (fun k => fld (vget 0 s.cc.ceiling k) 8 3 == s.iss.win)
    (s.postChecks (s.xr a) (s.xr b) = .ok r → hasRoom s 0 1 →
      exec (.post b a) s = .next ((s.accept r).releaseThen (relScope r s.iss.ep) [relEvent r])) ∧
    (mine = [] → exec .endTask s = .next ((s.releaseThen ((s.cf.endScope s.iss.ep).getD .module) []).ending)) ∧
    (mine = [] → s.postChecks (s.xr a) (s.xr b) = .ok r → hasRoom s 0 1 →
      exec (.ends b a) s = .next (((s.accept r).releaseThen
        (widerScope (relScope r s.iss.ep) ((s.cf.endScope s.iss.ep).getD .core)) [relEvent r]).ending)) ∧
    (s.xr a = resourceId s.iss.ep sl → s.iss.ep < 8192 → bitOf e 3 = true → fld e 16 16 = s.cf.asid.toNat → bitOf e 11 = false →
      s.cf.level.toNat ≤ fld e 0 3 → bitOf (s.cf.desc.getD 2 0) sl = true →
      exec (.claim a) s = .next (s.modCore s.iss.ep (fun k => { k with
        ceiling := vset k.ceiling sl (setFld (setFld e 8 3 s.cf.level.toNat) 11 1 1), claims := k.claims ++ [sl] }))) ∧
    (s.xr a = resourceId s.iss.ep sl → s.iss.ep < 8192 → s.cc.claims.getLast? = some sl → fld e 8 3 = s.iss.win →
      exec (.unclaim a) s = .next ((s.modCore s.iss.ep (fun k => { k with
        ceiling := vset k.ceiling sl (setFld e 11 1 0), claims := k.claims.dropLast })).select s.iss.ep)) ∧
    ((s.xr d).toNat < 256 → s.check s.det h (s.xr a) (if dd then 8 else 4) (if dd then 8 else 4) .load true false [0, 1, 2] = .ok t →
      s.cc.recbusy.getLsbD (s.xr d).toNat = false → (s.cf.fm = true ∨ fld (s.recWord (s.xr d).toNat 0) 0 3 < 6) → hasRoom s 0 1 →
      let rel := s.mkRelease (s.xr d).toNat s.iss.ep none
      exec (.watch h c dd b a d) s = .next (((s.noteCheck t.walk).accept rel).releaseThen .core
        [(0, s.iss.ep, t.owner, .arm (ArmReq.mk t.owner t.space t.addr dd c (s.xr b) rel))]))

/-- For every state: ECALL makes the issuing frame FAULTING with cause 11 when its level is 6 or 7 and cause 8 otherwise,
EVAL 0 and EPC the address of the bundle; EBREAK likewise with cause 3 and EVAL the address of the bundle. Nothing
else changes: the bundle stops, and the trap is on its way. -/
def Obligations.CallsRaiseTheirCause : Prop :=
  ∀ s : State,
    let raised : BitVec 6 → Word → State := fun c v =>
      let t := s.setCf { s.cf with st := .faulting, pc := s.iss.pc, answer := none, pending := some ⟨c, v, s.iss.pc, false⟩ }
      { t with iss := { t.iss with stop := .fault }, net := t.net ++ [Msg.op (.trapEntry t.iss.ep)] }
    exec .ecall s = .next (raised (if 6 ≤ s.cf.level.toNat then 11 else 8) 0) ∧
    exec .ebreak s = .next (raised 3 s.iss.pc)

/-- For every state: ERET in a trap frame is the return of R221, and outside one cause 2; FKILL in a trap frame ends the
trapped frame with the code x[rs1][15:0] and pops the trap frame, and outside one is cause 2; MIGR of a level-7 frame
to a core that is FREE-RESERVED, with a free record and a legal target, makes the core MIGRATING with the destination
and the completion release it names, and the commit is on its way; MIGR outside F-mode is cause 2, at level 6 cause
52. -/
def Obligations.TrapReturnsAndMigrationComplete : Prop :=
  ∀ (s : State) (b a d : Reg) (c : Nat) (dv : Option (BitVec 22)),
    (s.cf.trapFrame = true → exec .eret s = .next (s.eret s.iss.ep)) ∧
    (s.cf.trapFrame = false → exec .eret s = .next (s.raise 2 (s.iss.w0.setWidth 64)) ∧
      exec (.fkill a) s = .next (s.raise 2 (s.iss.w0.setWidth 64))) ∧
    (∀ w, s.cf.trapFrame = true → s.cc.trappedWin = some w →
      exec (.fkill a) s = .next ((s.frameFree s.iss.ep w (.kill ((s.xr a).setWidth 16))).popFrame s.iss.ep 7)) ∧
    (s.cf.level = 7 → (s.xr a).toNat < 4096 → (s.core (s.xr a).toNat).reserved = true → (s.xr d).toNat < 256 →
      s.cc.recbusy.getLsbD (s.xr d).toNat = false → s.targetOk (s.xr b) true = some (c, dv) →
      ∃ t, exec (.migr b a d) s = .next t ∧ (t.core s.iss.ep).code = 2 ∧
        (t.core s.iss.ep).mig
          = some ⟨(s.xr a).toNat, ⟨s.srcDev, (s.xr a).toNat, BitVec.ofNat 8 (s.xr d).toNat, c, dv, 0, 0, 0, 0, 0, true⟩, false⟩ ∧
        Msg.op (.migrationCommit s.iss.ep) ∈ t.net) ∧
    (s.cf.level.toNat < 6 → exec (.migr b a d) s = .next (s.raise 2 (s.iss.w0.setWidth 64))) ∧
    (s.cf.level = 6 → exec (.migr b a d) s = .next (s.raise 52 6))

/-- For every state and operands with lanes granted, streams ready, tags that the instruction takes (v[rs2] of the tag of
v[rs1] in the arithmetic forms and shifts; any tag in the bitwise ones) and, for FP tags, a legal mode: VADD, VSUB,
VMUL, VMIN, VMAX, VAND, VOR, VXOR, VSHL, VSHR, VCMP answer v[rd] with the tag of v[rs1] (RAW for VCMP) and, for each
element, the result of the operation on the elements of v[rs1] and of v[rs2], or of the scalar of the X form (f[rs2]
for FP tags, else x[rs2]); VABS and VNEG of v[rs1] alone; integer results are exact, then wrapped or with SAT clamped;
flags are ORed; each read stream among the sources moves on once. The place of cause 2 for FRM (log entry 25), an FP64
source with an odd number of lanes (log entry 23) and the scalar of a bitwise form on a BX tag (log entry 57) are the
model's readings. -/
def Obligations.VectorElementwiseResults : Prop :=
  ∀ (s : State) (x sat : Bool) (rm : BitVec 3) (b a d : Reg) (c : VCond),
    let t := s.vt a
    let w := Machine.tagBits t
    let fp := (tagFmt t).isSome
    let n := (s.ve a w).length
    let m := (s.mode rm).getD 0
    let srcs := if x then [a] else [a, b]
    let snd := if x then List.replicate n ((if fp then s.fr b else s.xr b).toNat % 2 ^ w) else s.ve b w
    let cnt := if x then List.replicate n (s.xr b).toNat else s.ve b w
    let two : (Nat → Nat → Nat × FlagSet) → Nat → State := fun op lat =>
      vResult s srcs d t w (List.zipWith op (s.ve a w) snd) lat
    let sh : (Nat → Nat → Nat) → State := fun op =>
      vResult s srcs d t w (List.zipWith (fun p q => (op p q, 0)) (s.ve a w) cnt) 4
    let int : (Int → Int → Int) → Nat → Nat → Nat × FlagSet := fun op p q =>
      narrow (tagSigned t) sat w (op (elemInt t p) (elemInt t q))
    let rounded := fp = true → (s.mode rm).isSome = true
    let scalar := x = true → fp = true → b.toNat < 16
    (vReady s srcs (some d) (t == .fp64) t → isArith t = true → (x = false → s.vt b = t) → rounded → scalar →
      (∀ f, tagFmt t = some f →
        exec (.vadd x sat rm b a d) s = .next (two (fAdd f m) 4) ∧ exec (.vsub x sat rm b a d) s = .next (two (fSub f m) 4) ∧
        exec (.vmul x sat rm b a d) s = .next (two (fMul f m) 6) ∧ exec (.vmin x rm b a d) s = .next (two (fMinMax f false) 4) ∧
        exec (.vmax x rm b a d) s = .next (two (fMinMax f true) 4)) ∧
      (fp = false →
        exec (.vadd x sat rm b a d) s = .next (two (int (· + ·)) 4) ∧ exec (.vsub x sat rm b a d) s = .next (two (int (· - ·)) 4) ∧
        exec (.vmul x sat rm b a d) s = .next (two (int (· * ·)) 6))) ∧
    (vReady s srcs (some d) (t == .fp64) t → isIntTag t = true → (x = false → s.vt b = t) →
      let wrap : (Int → Int → Int) → Nat → Nat → Nat × FlagSet := fun op p q => narrow (tagSigned t) false w (op (elemInt t p) (elemInt t q))
      exec (.vmin x rm b a d) s = .next (two (wrap min) 4) ∧ exec (.vmax x rm b a d) s = .next (two (wrap max) 4)) ∧
    (vReady s srcs (some d) (t == .fp64) t → rounded → scalar →
      exec (.vand x rm b a d) s = .next (two (fun p q => (p &&& q, 0)) 4) ∧ exec (.vor x rm b a d) s = .next (two (fun p q => (p ||| q, 0)) 4) ∧
      exec (.vxor x rm b a d) s = .next (two (fun p q => (p ^^^ q, 0)) 4)) ∧
    (vReady s srcs (some d) (t == .fp64) t → isIntTag t = true ∨ t = .raw → (x = false → s.vt b = t) →
      exec (.vshl x rm b a d) s = .next (sh (fun p q => if w ≤ q then 0 else p * 2 ^ q % 2 ^ w)) ∧
      exec (.vshr x rm b a d) s = .next (sh (fun p q => if tagSigned t then ((elemInt t p).shiftRight (min q (w - 1)) % 2 ^ w).toNat
        else if w ≤ q then 0 else p / 2 ^ q))) ∧
    (vReady s srcs (some d) (t == .fp64) .raw → isArith t = true → (x = false → s.vt b = t) → scalar →
      let cmp : Nat → Nat → Nat × FlagSet := fun p q =>
        let r := match tagFmt t with
          | some f => vcmpFp f c p q
          | none => (vcmpInt c (elemInt t p) (elemInt t q), 0)
        (if r.1 then 2 ^ w - 1 else 0, r.2)
      exec (.vcmp x c b a d) s = .next (vResult s srcs d .raw w (List.zipWith cmp (s.ve a w) snd) 4)) ∧
    (vReady s [a] (some d) (t == .fp64) t → isArith t = true → rounded →
      let one : (Nat → Nat × FlagSet) → State := fun op => vResult s [a] d t w ((s.ve a w).map op) 4
      (∀ f, tagFmt t = some f → exec (.vabs sat rm a d) s = .next (one (fun p => (p % 2 ^ (f.width - 1), 0))) ∧
        exec (.vneg sat rm a d) s = .next (one (fun p => (fNegBits f p, 0)))) ∧
      (fp = false → exec (.vabs sat rm a d) s = .next (one (fun p => narrow (tagSigned t) sat w (elemInt t p).natAbs)) ∧
        exec (.vneg sat rm a d) s = .next (one (fun p => narrow (tagSigned t) sat w (-(elemInt t p))))))

/-- For every state and operands whose guards pass: VMOV copies v[rs1] with its tag, or fills v[rd] with the scalar under
the tag named; VFMA and VFMS answer the fused product and sum, rounded once under FRM, or for integers exact and then
wrapped; VSEL takes each bit of v[rs1] where v[rs3] has a one and of v[rs2] elsewhere; VDOT one fused dot product a
lane; VRSUM, VRMAX and VRMIN the pairwise tree of R98 over all elements, in every element of v[rd] or in a scalar
register with S; VSCAN the prefix sums of R98 (its fx[3], to which R292 gives no meaning, must be 0, or cause 2
results); VBMAX the block maximum of each 32 lanes, or of all in f[rd]. The place of cause 2 for FRM (log entry 25),
VSCAN with fx[3] (log entry 10) and which of these forms take cause 56 on an FP64 source with an odd number of lanes
(log entry 23) are the model's readings. -/
def Obligations.VectorMovesFusedAndReductions : Prop :=
  ∀ (s : State) (sat : Bool) (tg : BitVec 4) (rm : BitVec 3) (c b a d : Reg),
    let t := s.vt a
    let w := Machine.tagBits t
    let fp := (tagFmt t).isSome
    let m := (s.mode rm).getD 0
    let frm := (s.mode 7).getD 0
    let out : List Reg → Tag → List Half → FlagSet → Nat → State := fun src tag l fl lat => (s.vOut d tag l fl lat).consume src
    let all := [a, b, c]
    let n := (s.ve a w).length
    (vReady s [a] (some d) false t → exec (.vmov false 0 a d) s = .next (out [a] t (s.vr a) 0 4)) ∧
    (∀ g, tagOf tg.toNat = some g → vReady s [] (some d) (g == .fp64) g →
      let k := Machine.tagBits g
      exec (.vmov true tg a d) s = .next (out [] g (packElems k
        (List.replicate (if k = 64 then s.cf.nLanes / 2 else s.cf.nLanes * (32 / k)) ((s.xr a).toNat % 2 ^ k))) 0 4)) ∧
    (vReady s all (some d) (t == .fp64) t → isArith t = true → s.vt b = t → s.vt c = t →
      (∀ f, tagFmt t = some f → (s.mode 7).isSome = true →
        let res : Bool → List (Nat × FlagSet) := fun neg => List.zipWith (fun p q => fMulAdd f frm false neg p q.1 q.2) (s.ve a w) ((s.ve b w).zip (s.ve c w))
        exec (.vfma c b a d) s = .next (vResult s all d t w (res false) 6) ∧
        exec (.vfms c b a d) s = .next (vResult s all d t w (res true) 6)) ∧
      (fp = false →
        let res : (Int → Int → Int) → List (Nat × FlagSet) := fun o => List.zipWith
          (fun p (q : Nat × Nat) => narrow false false w (o (elemInt t p * elemInt t q.1) (elemInt t q.2))) (s.ve a w) ((s.ve b w).zip (s.ve c w))
        exec (.vfma c b a d) s = .next (vResult s all d t w (res (· + ·)) 6) ∧
        exec (.vfms c b a d) s = .next (vResult s all d t w (res (· - ·)) 6))) ∧
    (vReady s all (some d) false t → s.vt b = t →
      exec (.vsel c b a d) s = .next (out all t
        (List.zipWith (fun p q => (q.2 &&& p) ||| (~~~q.2 &&& q.1)) (s.vr a) ((s.vr b).zip (s.vr c))) 0 4)) ∧
    (vReady s all (some d) false (s.vt c) → s.vt b = t → dotTag t = some (s.vt c) → (fp = true → (s.mode 7).isSome = true) →
      exec (.vdot c b a d) s = .next (vResult s all d (s.vt c) 32
        (List.zipWith (fun p q => dotLane t (s.vt c) frm p q.1 q.2) (s.vr a) ((s.vr b).zip (s.vr c))) 8)) ∧
    (isArith t = true →
      let sum := treeReduce (arithOp t sat fAdd (· + ·) m) 10 (s.ve a w) 0
      let hi := treeReduce (arithOp t false (fun f _ => fMinMax f true) max 0) 10 (s.ve a w) 0
      let lo := treeReduce (arithOp t false (fun f _ => fMinMax f false) min 0) 10 (s.ve a w) 0
      let wide : Nat × FlagSet → State := fun r => out [a] t (packElems w (List.replicate n r.1)) r.2 10
      let one : Nat × FlagSet → State := fun r => (if fp then s.fixedF d (fpWord (t == .fp64) r.1) r.2 10
        else s.fixedXF d (intWord (tagSigned t) 32 r.1) r.2 10).consume [a]
      (vReady s [a] (some d) (t == .fp64) t →
        ((fp = true → (s.mode rm).isSome = true) → exec (.vrsum false sat rm a d) s = .next (wide sum)) ∧
        exec (.vrmax false a d) s = .next (wide hi) ∧ exec (.vrmin false a d) s = .next (wide lo)) ∧
      (vReady s [a] none (t == .fp64) t → (t = .fp32 ∨ t = .fp64 ∨ t = .i32 ∨ t = .n32) → (fp = true → d.toNat < 16) →
        ((fp = true → (s.mode rm).isSome = true) → exec (.vrsum true sat rm a d) s = .next (one sum)) ∧
        exec (.vrmax true a d) s = .next (one hi) ∧ exec (.vrmin true a d) s = .next (one lo))) ∧
    (vReady s [a] (some d) (t == .fp64) t → (t = .fp32 ∨ t = .fp64 ∨ t = .i32 ∨ t = .n32) → (fp = true → (s.mode rm).isSome = true) →
      let r := scanSteps (arithOp t false fAdd (· + ·) m) 8 1 (s.ve a w) 0
      exec (.vscan false rm a d) s = .next (out [a] t (packElems w r.1) r.2 12)) ∧
    exec (.vscan true rm a d) s = .next (s.raise 2 (0x100000000 ||| s.iss.w1.setWidth 64)) ∧
    (t = .fp32 → vReady s [a] (some d) false .fp32 →
      let ms := (segments (s.vr a)).map (fun g => (g.length, blockMax g))
      exec (.vbmax false a d) s = .next (out [a] .fp32 (ms.flatMap (fun p => List.replicate p.1 (BitVec.ofNat 32 p.2.1)))
        (ms.foldl (fun f p => f ||| p.2.2) 0) 10)) ∧
    (t = .fp32 → vReady s [a] none false .fp32 →
      exec (.vbmax true a d) s = .next ((s.fixedF d (BitVec.ofNat 64 ((blockMax (s.vr a)).1 % 2 ^ 32)) (blockMax (s.vr a)).2 10).consume [a]))

/-- For every state and operands whose guards pass: VEXP2, VLOG2, VRCP and VRSQ answer the function of each FP32 element
under the mode; VCVT each element of the source tag (of the decoded blocks of a BX source) converted to the tag named,
and zeros beyond the source; VTAG the lanes unchanged under the new tag; VQNT each block of 32 lanes of FP32, scaled
and quantised; VEXT the elements (or BX blocks) shifted by the signed count x[rs2], zeros from outside; VPERM lane
j[8:0] of v[rs1] for each lane j of v[rs2], zero from outside. When an FRM of 5 to 7 is cause 2 (log entry 25) is the
model's reading. -/
def Obligations.VectorFunctionsAndFormats : Prop :=
  ∀ (s : State) (rm : Rnd) (r3 : BitVec 3) (td : Tag) (fmt : BxFmt) (fs : BitVec 3) (b a d : Reg),
    let t := s.vt a
    let l := s.vr a
    let out : List Reg → Tag → List Half → FlagSet → Nat → State := fun src tag l fl lat => (s.vOut d tag l fl lat).consume src
    (∀ m, t = .fp32 → vReady s [a] (some d) false .fp32 → s.mode (rndCode rm) = some m →
      let fn : (Nat → Nat × FlagSet) → State := fun op => vResult s [a] d .fp32 32 ((s.ve a 32).map op) 10
      exec (.vexp2 rm a d) s = .next (fn (fExp2 m)) ∧ exec (.vlog2 rm a d) s = .next (fn (fLog2 m)) ∧
      exec (.vrcp rm a d) s = .next (fn (fRcp m)) ∧ exec (.vrsq rm a d) s = .next (fn (fRsq m))) ∧
    (∀ m, vReady s [a] (some d) (t == .fp64 || td == .fp64) td → s.mode r3 = some m → t ≠ .raw → td ≠ .raw → isBx td = false →
      (isBx t = true → td = .fp32) →
      let w := Machine.tagBits td
      let n := if w = 64 then l.length / 2 else l.length * (32 / w)
      let src := if isBx t then (blocksOf t l).flatMap (fun k => (List.range 32).map (bxDecode t k)) else elems (Machine.tagBits t) l
      let res := (src.take n).map (convElem t td m)
      exec (.vcvt td r3 a d) s = .next (out [a] td (packElems w (res.map Prod.fst ++ List.replicate (n - res.length) 0))
        (res.foldl (fun f p => f ||| p.2) 0) 6)) ∧
    (vReady s [a] (some d) false td → exec (.vtag td a d) s = .next (out [a] td l 0 4)) ∧
    (let tq : Tag := match fmt with
        | .bx8 => .bx8
        | .bx6 => .bx6
        | .bx4 => .bx4;
      t = .fp32 → vReady s [a] (some d) false tq →
      let sc := (s.fr (fs.setWidth 5)).toNat % 2 ^ 32
      let y : List Half → List (Nat × FlagSet) := fun g => g.map (fun v => fMul .f32 0 v.toNat sc)
      let q : List Half → List Byte × FlagSet := fun g =>
        quantise tq (max 1 ((s.xr b).toNat % 16)) ((y g).map Prod.fst ++ List.replicate (32 - (y g).length) 0)
      let fl : List Half → FlagSet := fun g => (y g).foldl (fun f p => f ||| p.2) 0 ||| (q g).2
      exec (.vqnt fmt fs b a d) s = .next (out [a] tq (blockLanes l.length ((segments l).map (fun g => (q g).1)))
        (((segments l).map fl).foldl (fun f p => f ||| p) 0) 12)) ∧
    (vReady s [a] (some d) (t == .fp64) t →
      let k := (s.xr b).toInt
      exec (.vext b a d) s = .next (out [a] t (if isBx t then blockLanes l.length (shiftList (List.replicate (bxBytes t) 0) (blocksOf t l) k)
        else packElems (Machine.tagBits t) (shiftList 0 (elems (Machine.tagBits t) l) k)) 0 6)) ∧
    (vReady s [a, b] (some d) false t → indexTag (s.vt b) = true →
      exec (.vperm b a d) s = .next (out [a, b] t ((s.vr b).map (fun j => l.getD (j.toNat % 512) 0)) 0 6))

/-- For every state: VCLAIM of a frame without lanes and without a claim under way, outside the deterministic case of
cause 51 and with room, chooses groups for the lanes asked (at most 256 and LANES of the descriptor) and owes the
grant for x[rd] and VLEN, which is 0 when the minimum cannot be met, on a memory core, and for a T-mode frame in the
firmware column; VFREE ends the grant, and without one changes nothing; VSBIND of an unbound v28 to v31 with a legal
descriptor in LM binds it with its tag, and a read stream begins to fill; VSFREE of a bound one unbinds it at once; a
write stream is kept until its entries, those of its outstanding results included, are written, and each of them is on
its way. That VSFREE unbinds at once and parks nothing (log entry 22), and LQUOTA of a memory core as 0 in the
deterministic case (log entry 78), are the model's readings. -/
def Obligations.LaneGrantsAndStreamsComplete : Prop :=
  ∀ (s : State) (x : Bool) (b a d : Reg) (w0 w1 w2 w3 : Word),
    let f := s.cf
    let n := min (min (s.xr a).toNat 256) f.descLanes
    let j := d.toNat - 28
    (f.nLanes = 0 → f.outs.all (fun r => match r.dst with | .lanes _ => false | _ => true) = true → s.det = false → hasRoom s 1 0 →
      let none' := decide (n < (s.xr b).toNat) || isMemCore s.iss.ep || (decide (f.level.toNat < 6) && s.firmware s.iss.ep)
      let p := if none' then (s, 0, 0, false) else s.claimLanes s.iss.ep s.iss.win n (s.xr b).toNat x
      let v := ResVal.grant p.2.1 p.2.2.1 p.2.2.2
      exec (.vclaim x b a d) s = .next (((p.1.addResult (.lanes d) none v 0 1).2).later
        (.variableResultWriteback s.iss.ep s.iss.win f.fid p.1.uid v 0 false))) ∧
    exec .vfree s = .next (if f.nLanes = 0 then s else s.endGrant s.iss.ep s.iss.win) ∧
    (f.nLanes ≠ 0 → 28 ≤ d.toNat → (f.stream j).bound = false → (s.xr a).toNat % 8 = 0 → (s.xr a).toNat + 32 ≤ 0x80000 →
      (List.range 4).map (fun i => s.lmWordInOrder ((s.xr a).toNat + 8 * i)) = [w0, w1, w2, w3] → streamOk [w0, w1, w2, w3] f.nLanes = true →
      let t := Stream.mk true (w0.getLsbD 36) w0 w1 w2 0 [] (s.uid + 1)
      let u := { s.setCf ((f.putStream j t).putTag d t.tag) with uid := s.uid + 1 }
      exec (.vsbind a d) s = .next (if w0.getLsbD 36 then u else u.later (.streamFill u.iss.ep u.iss.win j))) ∧
    (f.nLanes ≠ 0 → 28 ≤ d.toNat → (f.stream j).bound = true →
      let u := s.modCf (fun g => g.putStream j Stream.unbound)
      ((f.stream j).write = false → exec (.vsfree d) s = .next u) ∧
      ((f.stream j).write = true → exec (.vsfree d) s = .next ((f.stream j).buf.foldl (fun t _ => t.later (.streamWrite s.iss.ep s.iss.win 4))
        { u.modCore s.iss.ep (fun c => ({ c with closing := c.closing ++ [Closing.mk f.fid s.iss.win (f.stream j) true s.uid] } : Core).trimClosing)
          with uid := s.uid + 1 })))

/-- For every state and operands whose guards and checks pass, with room: VLD owes one result for v[rd] with the tag named
and loads the register image from the object at x[rs1] (one access in LM; through a REMOTE handle the aligned pieces
of 8, 4 or 2 bytes); VST stores the image of v[rd] likewise; VLDX and VSTX do one access of 4 bytes (8 for FP64) for
each lane (pair) at x[rs1] plus the zero-extended index of that lane of v[rs2], in ascending order, through a LOCAL
handle. The order in which streams move (log entry 22), the pieces of a REMOTE BX image at 2 mod 4 (log entry 56) and
one queue entry for the accesses of one instruction (log entry 45) are the model's readings. -/
def Obligations.VectorLoadsAndStoresIssue : Prop :=
  ∀ (s : State) (h : HReg) (tag : Tag) (b a d : Reg) (t : Target) (ts : List Target),
    let n := imageBytes tag s.cf.nLanes
    let k := imageBytes (s.vt d) s.cf.nLanes
    let ps : Nat → List (Nat × Nat) := fun z => if t.space = 1 then vecPieces t.addr z 0 z else [(0, z)]
    (s.check s.det h (s.xr a) n (vecAlign tag) .load false false [0, 1] = .ok t → hasRoom s 1 1 →
      let load := (s.addResult (.v d tag) none (.word 0) 0 (ps n).length).2.pieces (some s.uid)
        ((ps n).map (fun p => (t, p.1, p.1, .load p.2)))
      vReady s [] (some d) (tag == .fp64) tag → exec (.vld h tag a d) s = .next load) ∧
    (s.check s.det h (s.xr a) k (vecAlign (s.vt d)) .store false false [0, 1] = .ok t → hasRoom s 0 1 →
      let store := s.pieces none ((ps k).map (fun p => (t, p.1, p.1, .store (((imageOf (s.vt d) (s.vr d)).drop p.1).take p.2))))
      vReady s [d] none (s.vt d == .fp64) (s.vt d) → exec (.vst h a d) s = .next (store.consume [d])) ∧
    (let e := if tag = .fp64 then 8 else 4;
      s.laneTargets h e .load (s.laneOffs (tag == .fp64) b a) = .ok ts → hasRoom s 1 1 → indexTag (s.vt b) = true → isBx tag = false →
      let load := (s.addResult (.v d tag) none (.word 0) 0 ts.length).2.pieces (some s.uid)
        (ts.zipIdx.map (fun p => (p.1, 0, e * p.2, .load e)))
      vReady s [b] (some d) (tag == .fp64) tag → exec (.vldx h tag b a d) s = .next (load.consume [b])) ∧
    (let e := if s.vt d = .fp64 then 8 else 4;
      s.laneTargets h e .store (s.laneOffs (s.vt d == .fp64) b a) = .ok ts → hasRoom s 0 1 → indexTag (s.vt b) = true → isBx (s.vt d) = false →
      let store := s.pieces none (ts.zipIdx.map (fun p => (p.1, 0, e * p.2, .store (((lanesBytes (s.vr d)).drop (e * p.2)).take e))))
      vReady s [b, d] none (s.vt d == .fp64) (s.vt d) → exec (.vstx h b a d) s = .next (store.consume [b, d]))

/-- For every state and operands on a core with an array, outside the deterministic cases of cause 51 and with room: MCFG
takes the pass descriptor in LM; MBLD with a legal word, source and successor, and fewer than four loads in the geode,
puts a load on its slot; MGANG and MDRAIN with a legal word and successor, on a live slice of a set of the frame,
register the core for a pass (a gang that the registration completes forms then) or queue a drain, take the next place
in the work order and start behind the earlier accesses of the frame, MDRAIN as a module release; MZERO tags the set
and queues the zeroing; MSTAT answers the state asked for; MCANCEL withdraws the oldest unformed registration of each
core at the priority named and answers how many. A successor named becomes busy; with rd other than x0 the answer is
0, or 1 and nothing queued when the array is full. The scope at which a successor's accesses are covered (log entry
64), the work order of passes, drains and zeros (log entry 27) and which entries count as queued (log entry 59) are
the model's readings. -/
def Obligations.MatrixInstructionsComplete : Prop :=
  ∀ (s : State) (q : Bool) (c b a d : Reg) (md : List Word) (sw : SuccWord) (src : LoadSrc),
    let g := epGeode s.iss.ep
    let w := s.xr b
    let room := hasRoom s (if d = 0 then 0 else 1)
    let det := s.det = false ∨ d = 0
    let ok := (sw = .none ∨ ∃ r, sw = .ok r) ∧ s.succWord (s.xr a) = sw
    let u := s.acceptSucc sw
    let n := (u.arr g).seq
    let v := u.modArr g (fun m => { m with seq := m.seq + 1 })
    let answer : State → Nat → State := fun t k => (t.newResult d).2.answerCf (t.newResult d).1 (BitVec.ofNat 64 k)
    let full : State := answer s 1
    let mine := fun (k : Nat) => s.myTag (s.ca.set k) = true ∧ (s.ca.sliceView k s.slice).1 = true
    s.noArray = false →
    (let o := (s.xr a).toNat;
      o % 8 = 0 → o + 32 ≤ 0x80000 → (List.range 4).map (fun k => s.lmWordInOrder (o + 8 * k)) = md → mdOk md = true →
      exec (.mcfg a) s = .next (s.modCf (fun f => { f with mdesc := some md }))) ∧
    (let o := w.toNat
      let w1 := s.lmWordInOrder (o + 8)
      let f := w1.toNat / 2 ^ 8 % 8
      let k := w1.toNat / 2 ^ 16 % 128;
      o % 8 = 0 → o + 16 ≤ 0x80000 → zeroField w1 23 41 = true → zeroField w1 11 5 = true → zeroField w1 3 5 = true → f < 5 →
      s.loadSource (BitVec.ofNat 3 (w1.toNat % 8)) (s.lmWordInOrder o) (64 * cb f) = .inl src → ok → det →
      (4 ≤ s.ca.loadCount → d ≠ 0 → room 0 → exec (.mbld b a d) s = .next full) ∧
      (s.ca.loadCount < 4 → room 1 → exec (.mbld b a d) s = .next ((answer (v.modArr g (fun m => m.modSlot k (fun t =>
          { t with loads := t.loads ++ [SlotLoad.mk n f src sw.rel? false false] }))) 0).releaseThen
        (widerScope (match src with | .bedrock _ => .module | _ => .core) (succScope s.iss.ep sw.rel?)) [(4, 0, 0, .slotLoadDone g k n)]))) ∧
    (s.cf.mdesc = some md → pwBad w true = false → ok → s.sliceOn = true → mine (pwSet w) →
      (s.ca.sliceView (pwSet w) s.slice).2 = (pwA w == 4) → aOk md w = true → (q = true → cOk md w = true ∧ acOverlap md w = false) → det →
      (4 ≤ (s.ca.regs.filter (fun r => r.core == s.slice)).length → d ≠ 0 → room 0 → exec (.mgang c q b a d) s = .next full) ∧
      ((s.ca.regs.filter (fun r => r.core == s.slice)).length < 4 → room 1 → exec (.mgang c q b a d) s = .next (((answer ((v.modArr g (fun m => { m with
          regs := m.regs ++ [v.mkReg n w md q (if q then (v.fr c).setWidth 32 else 0) sw.rel?] })).formGang g) 0).noteArray sw.rel?).releaseThen
        (s.gangScope sw.rel?) [(4, 0, 0, .gangFormation g (some n))]))) ∧
    (s.cf.mdesc = some md → pwBad w false = false → pwA w = 0 → pwB w = 0 → pwSlot w = 0 → ok → s.sliceOn = true → mine (pwSet w) →
      cOk md w = true → det →
      (8 ≤ s.ca.queuedDrains → d ≠ 0 → room 0 → exec (.mdrain c q b a d) s = .next full) ∧
      (s.ca.queuedDrains < 8 → room 1 → exec (.mdrain c q b a d) s = .next (((answer (v.modArr g (fun m => { m with
          drains := m.drains ++ [DrainJob.mk n none m.cmask q [v.mkReg n w md true ((v.fr c).setWidth 32) sw.rel?]] })) 0).noteArray
            sw.rel?).releaseThen (widerScope .module (succScope s.iss.ep sw.rel?)) [(4, 0, 0, .gangFormation g (some n))]))) ∧
    (let z := s.xr a
      let r := s.newResult d
      let m := (r.2.arr g).seq;
      pwBad z false = false → pwSlot z = 0 → pwB z = 0 → s.sliceOn = true → ((s.ca.set (pwSet z)).tag = none ∨ s.myTag (s.ca.set (pwSet z)) = true) →
      det → room 0 →
      let t := r.2.modArr g (fun k => { k with seq := k.seq + 1 })
      exec (.mzero q a d) s = .next ((t.modArr g (fun k => { (k.modSet (pwSet z) (fun e => { e with tag := some (t.cf.level, t.cf.asid) })) with
        zeros := k.zeros ++ [ZeroJob.mk m t.slice z (t.cf.level, t.cf.asid) q t.iss.ep t.iss.win t.cf.fid r.1] })).arrayKick g)) ∧
    (let x := s.xr a
      let sel := x.toNat % 16
      let k := x.toNat / 2 ^ 8 % 128
      let four := fun (i : Nat) => bitNat (s.ca.set i).tag.isNone * 8 + bitNat (s.myTag (s.ca.set i)) * 4
        + bitNat ((s.ca.set i).live.getLsbD s.slice) * 2 + bitNat ((s.ca.set i).i32.getLsbD s.slice);
      zeroField x 15 49 = true → zeroField x 4 4 = true → room 0 →
      (sel = 0 → k = 0 → exec (.mstat a d) s = .next (answer s s.ca.cmask.toNat)) ∧
      (sel = 1 → k = 0 → s.det = false → exec (.mstat a d) s = .next (answer s (four 0 + 16 * four 1 + 256 * four 2 + 4096 * four 3))) ∧
      (sel = 2 → s.det = false →
        exec (.mstat a d) s = .next (answer s (s.ca.slotState k + 256 * (s.ca.readers k s.ca.seq).length))) ∧
      (sel = 3 → k = 0 → s.det = false →
        exec (.mstat a d) s = .next (answer s ((s.ca.regs.filter (fun r => r.core == s.slice)).length + 256 * s.ca.queuedPasses
          + 2 ^ 16 * s.ca.queuedDrains)))) ∧
    (let x := s.xr a
      let p := x.toNat % 8
      let asid := if s.cf.fm then BitVec.ofNat 16 (x.toNat / 2 ^ 16) else s.cf.asid
      let hit := (List.range 8).filterMap (fun k => s.ca.regs.find? (fun r => r.core == k && r.level.toNat == p && r.asid == asid));
      zeroField x 32 32 = true → zeroField x 3 13 = true → (s.cf.fm = true ∨ p < 6) → s.det = false → room 0 →
      exec (.mcancel a d) s = .next ((((s.newResult d).2.withdraw g hit).answerCf (s.newResult d).1 (BitVec.ofNat 64 hit.length)).arrayKick g))

/-- For every state, with room and outside the deterministic cases of cause 51: CPY of a legal request with fewer than
four in the FIFO makes the successor busy, counts its barrier, takes the last FIFO entry and is ready behind the
accesses its scope covers, and rd awaits the transfer word; CPYST answers 0 while the transfer named is active, 3 for
one not yet accepted, 1 for one completed; CPOLL answers the first done barrier of the mask from the rotation on with
its fault flag, clears its done flag and moves the rotation past it, or answers bit 63 with no done barrier; BSEAL and
BOPEN, whose controller answered 0, make the successor busy, answer 0, and send, once the accesses that the module and
the successor cover are performed, the word that completes them; LLCFG of a legal pair answers the pair of the launch
before it and sets that of each launch of the ASID, and every home is told of it. That a request starts at the wider
of its own scope and the successor's is the model's reading (log entry 64). -/
def Obligations.CopyInstructionsComplete : Prop :=
  ∀ (s : State) (n : Bool) (b a d : Reg) (sw : SuccWord),
    let x := s.xr a
    let room := hasRoom s (resultsOf d)
    (let o := x.toNat
      let blk := (List.range 4).map (fun k => s.lmWordInOrder (o + 8 * k))
      let w := s.cf.answer.getD blk
      let w2 := w.getD 2 0
      let r := (s.modCf (fun f => { f with answer := none })).newResult d
      let f := r.2.fresh
      let v := f.2
      let q := CopyReq.mk v.iss.ep (cqEngine w) w (v.cf.getH (BitVec.ofNat 3 (fld w2 21 3))) (v.cf.getH (BitVec.ofNat 3 (fld w2 18 3)))
        v.cf.asid sw.rel? v.iss.win v.cf.fid r.1 (cqBar w) f.1 none none v.cf.level.toNat
      let t := v.acceptSucc sw
      let t := t.modCopy t.iss.ep (fun p => { p.countBar (cqBar w) with fifo := p.fifo ++ [CopyEnt.mk f.1 q false false] });
      legalSucc sw → s.cc.copy.fifo.length < 4 → room 1 →
      (s.cf.answer = none → o % 8 = 0 ∧ o + 32 ≤ 0x80000 ∧ cqOk w = true ∧ s.cqFault w = none ∧ s.cqSucc w = sw ∧
        (s.det = false ∨ (n = false ∧ d = 0)) ∧ s.cc.copy.barFull (cqBar w) = false) →
      (s.cf.answer.isSome = true → s.keptSucc = sw) →
      exec (.cpy n a d) s = .next (t.releaseThen (widerScope (cqScope w) (succScope t.iss.ep sw.rel?)) [(4, 0, 0, .copyReady t.iss.ep (some f.1))])) ∧
    (let e := s.engine (copyEp (fld x 54 2) (fld x 48 5))
      let i := fld x 0 48;
      zeroField x 56 8 = true → zeroField x 53 1 = true → s.det = false → room 0 →
      exec (.cpyst a d) s = .next (answering s d (if 2 ^ 47 ≤ (e.nextId + 2 ^ 49 - 1 - i) % 2 ^ 48 then 3
        else if e.xfers.any (fun t => t.id == i) then 0 else 1))) ∧
    (let bar := fun (k : Nat) => vget (CopyBar.mk 0 false false) s.cc.copy.bars k
      let hit := ((List.range 32).map (fun k => (s.cc.copy.rot + k) % 32)).find? (fun k => x.getLsbD k && (bar k).done);
      zeroField x 32 32 = true → s.det = false → room 0 →
      (hit = none → exec (.cpoll a d) s = .next (answering s d (2 ^ 63))) ∧
      (∀ k, hit = some k → exec (.cpoll a d) s = .next (((s.newResult d).2.modCopy (s.newResult d).2.iss.ep (fun p => { p with
        bars := vset p.bars k (CopyBar.mk (bar k).count false false), rot := (k + 1) % 32 })).answerCf (s.newResult d).1
          (BitVec.ofNat 64 (bitNat (bar k).flt * 256 + k))))) ∧
    (∀ (close : Bool) (l : List Word),
      let sl := fld x 16 2
      let m := BitVec.ofNat 16 (fld x 0 16)
      let t := s.modCf (fun f => { f with answer := none })
      let u := (t.acceptSucc sw).newResult d
      let q := BedReq.mk close sl m u.2.cf.fm u.2.cf.asid sw.rel? u.2.iss.ep u.2.iss.win u.2.cf.fid (l.getD 1 0).toNat true none 0
      zeroField x 18 46 = true → m ≠ 0 → (maskGroups m).any (fun k => (s.group sl k).disabled) = false → s.keptSucc = sw →
      s.cf.answer = some l → l.getD 0 0 = 0 → l.length ≠ 3 → room 1 →
      exec (if close then .bseal b a d else .bopen b a d) s = .next ((u.2.answerCf u.1 0).releaseThen (widerScope .module (succScope u.2.iss.ep sw.rel?))
        [(0, u.2.iss.ep, bedCtl sl, .bedrockRequest q)])) ∧
    (let lo := fld x 0 4
      let hi := fld x 8 4
      let mine := s.launches.filter (fun l => l.asid == s.cf.asid);
      zeroField x 12 52 = true → zeroField x 4 4 = true → lo ≤ hi → hi ≤ 12 → room 0 → ∀ l r, mine = l :: r →
      let t := answering s d (l.minw + 256 * l.maxw)
      exec (.llcfg a d) s = .next (mine.foldl (fun t m => allHomes.foldl (fun t h => t.send 0 s.iss.ep h (.carveoutUpdate h s.iss.ep m.id lo hi)) t)
        { t with launches := t.launches.map (fun y =>
          if mine.any (fun m => m.id == y.id) then { y with minw := lo, maxw := hi } else y) }))

/-- For every state, handle, range form and operands: with a legal length, a valid GLOBAL handle with the permission asked
(and, for CINV, the writable form it needs), the range within the bound, every page of it translated by the core, with
room: CFLUSH, CCLEAN and CINV enter one access for the lines of the range, from the first to the last, sent to the
home of each, and rd awaits its answer. -/
def Obligations.CacheMaintenanceIssues : Prop :=
  ∀ (s : State) (r : Bool) (h : HReg) (b a d : Reg) (k : CmoKind),
    let hd := s.cf.getH h
    let off := s.xr a
    let n := if r then (s.xr b).toNat else 1
    let inv := k == .inv
    let va := hd.base.toNat + off.toNat
    let res := fun (v : Nat) => (s.translate s.cc.tlb (epSlab s.iss.ep) s.cf.asid v (if inv then .write else .read)).res
    (r = false → b = 0) → (r = true → 0 < n ∧ n ≤ 2 ^ 20) → hd.valid = true → hd.space = 2 → isMemCore s.iss.ep = true →
    bitOf hd.w3 (if inv then 1 else 0) = true → (inv = true → bitOf hd.w3 4 = true → hd.cap = true) → off.toNat + n ≤ hd.bound.toNat →
    (∀ p ∈ pagesOf va n, s.translated p = true ∧ ∃ pa m, res (Nat.max p va) = .ok pa m) → (s.det = false ∨ d = 0) → hasRoom s (resultsOf d) 1 →
    let t := s.modCf (fun f => { f with answer := none })
    let line := fun (v : Nat) => match (t.translate t.cc.tlb (epSlab t.iss.ep) t.cf.asid v (if inv then .write else .read)).res with
      | .ok pa _ => lineOf pa
      | _ => 0
    let lines := (List.range ((va + n - 1) / 128 - va / 128 + 1)).map (fun i => line ((va / 128 + i) * 128))
    let u := t.newResult d
    exec (match k with | .flush => .cflush r h b a d | .clean => .cclean r h b a d | .inv => .cinv r h b a d) s
      = .next (u.2.access (Target.mk 2 (homeOf (lines.headD 0)) (lines.headD 0) false false none) 0 u.1 0 (.cmo k lines 0) .rlx)

/-- For every state, with room and outside the deterministic cases of cause 51: SOLICIT of a legal block makes the
successor busy and queues its request to the module root behind the accesses of its scope; RESPOND in a responder that
has not responded puts its payload in the row of its census and marks it responded; CBAR of a legal block queues its
contribution to the node of its scope; TILEREG takes the lowest free entry of the directory, or answers 2^63+1 with
none free; TILEDEL frees an idle resident entry of the ASID, marks a used one removed, and answers 0, or answers 2, 3
or 1 for an entry that is free, of another ASID or not resident; TILEMOVE of a resident entry makes it MOVING, queues
the reservation and answers 0, and answers 2, 3 or 1 for an entry that is free, of another ASID or not resident; CENSQ
answers the progress of a live census, the number of answers with 3 for one being written, and 0 for none. That a
request starts at the wider of its own scope and the successor's is the model's reading (log entry 64). -/
def Obligations.CensusInstructionsComplete : Prop :=
  ∀ (s : State) (b a d : Reg) (sw : SuccWord),
    let x := s.xr a
    let room := hasRoom s (resultsOf d)
    let o := x.toNat
    let det := s.det = false ∨ d = 0
    (let w := s.lmWords o 8;
      isMemCore s.iss.ep = false → blockOk x 64 = true → solReservedOk w = true → s.solOk w = true → s.succWord (s.xr b) = sw → legalSucc sw →
      det → room 1 →
      let (u, t) := (s.acceptSucc sw).newResult d
      let q := Solicit.mk w t.cf.asid t.iss.ep t.iss.win t.cf.fid u sw.rel? none 0 none
      exec (.solicit b a d) s = .next (t.releaseThen (widerScope (solRelScope w) (succScope t.iss.ep sw.rel?)) [(0, t.iss.ep, censusRoot, .solicitRequest q)])) ∧
    (∀ (r : Responder),
      let mine := fun (y : OpenRow) => y.q.id == r.census && y.asId == r.partIdx;
      isMemCore s.iss.ep = false → s.cf.responder = some r → r.responded = false → ∀ row, (s.port s.iss.ep).rows.find? mine = some row →
      zeroField x 19 45 = true → o % 4 = 0 → o + 4 * solP row.q.words ≤ 0x80000 → hasRoom s 0 1 →
      let pay := (List.range (solP row.q.words)).map (fun k => BitVec.ofNat 32 (ofBytes (s.lmInOrder (o + 4 * k) 4)))
      let t := s.modPort s.iss.ep (fun c => { c with
        rows := c.rows.map (fun y => if mine y then { y with pays := y.pays ++ [(s.cf.fid, pay, false)] } else y) })
      exec (.respond a) s = .next ((t.modCf (fun f => { f with responder := some { r with responded := true } })).releaseThen (solRelScope row.q.words) [])) ∧
    (let y := s.lmWords o 4
      let w := y.getD 0 0
      let sc := fld w 0 3
      let score := fld w 32 12;
      s.noPort false = false → blockOk x 32 = true → zeroField w 44 20 = true → zeroField w 28 4 = true → zeroField w 3 1 = true →
      zeroField (y.getD 1 0) 32 32 = true → 1 ≤ sc → sc ≤ 3 → 1 ≤ fld w 4 4 → fld w 4 4 ≤ 8 → fld w 16 12 ≠ 0 →
      (sc = 3 → score = 0) → (sc ≠ 3 → s.disabled score = false) → s.succWord (y.getD 2 0) = sw → legalSucc sw → det → room 1 →
      let (u, t) := (s.acceptSucc sw).newResult d
      let n := scopeNode sc score
      let q := BarReq.mk n t.cf.asid w ((y.getD 1 0).setWidth 32) t.iss.ep o sw.rel? t.iss.win t.cf.fid u
      exec (.cbar a d) s = .next (t.releaseThen (widerScope (barScope sc) (succScope t.iss.ep sw.rel?))
        [(1, t.iss.ep, nodeAgent n, .barrierContribution q)])) ∧
    (let y := s.lmWords o 4
      let w1 := y.getD 1 0
      let k := y.getD 2 0
      let len := fld w1 32 19
      let base := fld w1 0 19
      let free := (List.range 128).find? (fun n => ((s.port s.iss.ep).dir.find n).isNone);
      s.noPort true = false → blockOk x 32 = true → zeroField w1 51 13 = true → zeroField w1 19 13 = true → 64 ≤ len → len % 64 = 0 → base % 64 = 0 →
      base + len ≤ 0x74000 → zeroField k 57 7 = true → zeroField k 3 2 = true → (s.cf.fm = true ∨ fld k 0 3 < 6) → room 0 →
      (∀ n, free = some n →
        let (u, t) := s.newResult d
        exec (.tilereg a d) s = .next ((t.modPort t.iss.ep (fun p => { p with
          dir := p.dir.put n (Tile.mk 1 (y.getD 0 0) s.cf.asid base len k (y.getD 3 0) 0 false 0 false 0 0 none) })).answerCf u (BitVec.ofNat 64 n))) ∧
      (free = none → d ≠ 0 → exec (.tilereg a d) s = .next (answering s d (2 ^ 63 + 1)))) ∧
    (let e := (s.port s.iss.ep).dir.find o;
      s.noPort false = false → zeroField x 7 57 = true → room 0 →
      (e = none → exec (.tiledel a d) s = .next (answering s d 2)) ∧
      (∀ t, e = some t → t.asid ≠ s.cf.asid → s.cf.fm = false → exec (.tiledel a d) s = .next (answering s d 3)) ∧
      (∀ t, e = some t → (t.asid = s.cf.asid ∨ s.cf.fm = true) → t.st ≠ 1 → exec (.tiledel a d) s = .next (answering s d 1)) ∧
      (∀ t, e = some t → (t.asid = s.cf.asid ∨ s.cf.fm = true) → t.st = 1 → t.live = 0 →
        exec (.tiledel a d) s = .next (((s.newResult d).2.modPort (s.newResult d).2.iss.ep (fun p => { p with dir := p.dir.del o })).answerCf
          (s.newResult d).1 0)) ∧
      (∀ t, e = some t → (t.asid = s.cf.asid ∨ s.cf.fm = true) → t.st = 1 → t.live ≠ 0 →
        exec (.tiledel a d) s = .next (((s.newResult d).2.modTile (s.newResult d).2.iss.ep o (fun t => { t with removed := true })).answerCf
          (s.newResult d).1 0))) ∧
    (let w := s.xr b
      let n := fld x 0 7
      let dst := fld w 0 12
      let base := fld w 12 19;
      s.noPort true = false → zeroField x 17 47 = true → zeroField x 7 1 = true → zeroField w 31 33 = true →
      ((s.port s.iss.ep).dir.find n = none → d ≠ 0 → room 0 → exec (.tilemove b a d) s = .next (answering s d 2)) ∧
      (∀ t, (s.port s.iss.ep).dir.find n = some t →
      (t.asid ≠ s.cf.asid → s.cf.fm = false → d ≠ 0 → room 0 → exec (.tilemove b a d) s = .next (answering s d 3)) ∧
      ((t.asid = s.cf.asid ∨ s.cf.fm = true) → (t.st ≠ 1 ∨ t.removed = true) → d ≠ 0 → room 0 →
        exec (.tilemove b a d) s = .next (answering s d 1)) ∧
      ((t.asid = s.cf.asid ∨ s.cf.fm = true) → t.st = 1 → t.removed = false → base % 64 = 0 → base + t.len ≤ 0x74000 → dst ≠ s.iss.ep →
      s.disabled dst = false → (s.cf.fm = true ∨ s.cc.firewalled dst = false) → s.det = false →
      (if bitOf x 16 then sw = .none
        else match s.postChecks (BitVec.ofNat 64 (fld x 8 8)) (BitVec.ofNat 64 dst) with | .ok r => sw = .ok r | _ => False) → room 1 →
      let (id, v) := (s.acceptSucc sw).fresh
      let m := TileMove.mk v.iss.ep n dst base none t.key t.asid t.len t.kind t.user sw.rel? id v.cf.level.toNat
      let v := v.modTile v.iss.ep n (fun t => { t with st := 2, peer := dst, moved := 0, move := some m })
      let (u, v) := v.newResult d
      exec (.tilemove b a d) s = .next ((v.answerCf u 0).releaseThen (widerScope .module (succScope v.iss.ep sw.rel?)) [(0, v.iss.ep, dst, .tileReserve m)])))) ∧
    (let mine := fun (q : Solicit) => s.cf.fm || q.asid == s.cf.asid
      let got := match (s.node 516).under.find? (fun u => u.id == o) with | some u => u.got.length | none => 0
      let hit := s.census.slots.find? (fun c => c.q.id == o && mine c.q);
      s.noPort false = false → zeroField x 16 48 = true → s.det = false → room 0 →
      (∀ c, hit = some c → c.st = 2 → exec (.censq a d) s = .next (answering s d (got * 2 ^ 32 + 2))) ∧
      (∀ c, hit = some c → c.st ≠ 2 → exec (.censq a d) s = .next (answering s d (c.roots * 2 ^ 32 + 3))) ∧
      (hit = none → exec (.censq a d) s = .next (answering s d 0)))

/-- For every state, with room: SEND of a legal message to a destination that may be sent to reads its words in LM, counts
a send and queues the message, and rd awaits its status, counted among the messages outstanding; REPLY does the same
to the sender of the message of the frame and its next handler; BIND of a free handler with a legal block makes it
BOUND with the kind, the ring and the ASID (0 at priority 6 or 7), and answers 0, or 1 for one not free; UNBIND of a
handler of the ASID frees it, keeps its busy slots and answers those that wait on it 2, or answers 2 or 3; SWAPH of a
handler of the ASID stages the kind and the commit is on its way, or answers 2 or 3. The zeros that UNBIND leaves in
the entry are the model's choice (log entry 54). -/
def Obligations.MessageInstructionsComplete : Prop :=
  ∀ (s : State) (b a d : Reg),
    let x := s.xr a
    let room := hasRoom s (resultsOf d)
    let det := s.det = false ∨ d = 0
    let c := s.lmWordInOrder x.toNat
    let body := (List.range (ctlWords c)).map (fun k => s.lmWordInOrder (x.toNat + 8 + 8 * k))
    let sent : Dest → Nat → State := fun t h =>
      let (u, v) := s.newMail d
      let m := ActiveMsg.mk v.srcDev v.iss.ep t.core t.dev v.cf.asid v.cf.level v.cf.fm (setFld c 0 6 h) body v.iss.win v.cf.fid u
      (v.countSent v.iss.ep v.cf.asid).releaseThen .core [activeEvent m]
    let legal := zeroField x 19 45 = true ∧ x.toNat % 8 = 0 ∧ ctlOk c = true ∧ x.toNat + 8 + 8 * ctlWords c ≤ 0x80000 ∧ det ∧ room 1
    (legal → ∀ t, s.destWord (s.xr b) = some t → s.destOk t (if t.fe then 63 else fld c 0 6) = true →
      exec (.send b a d) s = .next (sent t (if t.fe then 63 else fld c 0 6))) ∧
    (legal → ∀ dev src next, s.cf.reply = some (dev, src, next) →
      let t := Dest.mk src (if dev == s.srcDev then none else some dev) false
      s.destOk t next = true → exec (.reply a d) s = .next (sent t next)) ∧
    (let o := (s.xr b).toNat
      let w0 := s.lmWordInOrder o
      let w1 := s.lmWordInOrder (o + 8)
      let lg := fld w1 32 4
      let base := fld w1 0 32
      let e := s.cc.handler x.toNat;
      s.handlerOk x = true → zeroField (s.xr b) 19 45 = true → o % 8 = 0 → o + 16 ≤ 0x80000 → zeroField w1 36 28 = true → lg ≤ 6 →
      base % 512 = 0 → base + 512 * 2 ^ lg ≤ 0x74000 → s.kindOk w0 = true → room 0 →
      (e.state ≠ 0 → exec (.bindH b a d) s = .next (s.answerCode d 1)) ∧
      (e.state = 0 → exec (.bindH b a d) s = .next ((s.setHandler s.iss.ep x.toNat { e with
        kind := w0, asid := handlerAsid w0 s.cf.asid, state := 1, head := 0, rxlog2 := lg, rxbase := base, staged := 0, waiters := [] }).answerCode d 0))) ∧
    (let e := s.cc.handler x.toNat;
      s.handlerOk x = true → room 0 →
      (e.state = 0 → exec (.unbind a d) s = .next (s.answerCode d 2)) ∧
      (e.state ≠ 0 → s.ownsHandler e = false → exec (.unbind a d) s = .next (s.answerCode d 3)) ∧
      (e.state ≠ 0 → s.ownsHandler e = true → exec (.unbind a d) s
        = .next (((s.setHandler s.iss.ep x.toNat { Handler.empty with busy := e.busy }).answerWaiters s.iss.ep e.waiters 2).answerCode d 0))) ∧
    (let e := s.cc.handler x.toNat;
      s.handlerOk x = true → s.kindOk (s.xr b) = true → room 0 →
      (e.state = 0 → exec (.swaph b a d) s = .next (s.answerCode d 2)) ∧
      (e.state ≠ 0 → s.ownsHandler e = false → exec (.swaph b a d) s = .next (s.answerCode d 3)) ∧
      (e.state ≠ 0 → s.ownsHandler e = true →
        let r := s.newResult d
        let w := r.1.toList.map (fun u => (r.2.iss.win, r.2.cf.fid, u))
        exec (.swaph b a d) s = .next ((r.2.setHandler r.2.iss.ep x.toNat { e with state := 2, staged := s.xr b, waiters := e.waiters ++ w }).later
          (.handlerCommit r.2.iss.ep x.toNat))))

/-- For every state, with room and outside the deterministic cases of cause 51: GRRUN of a legal block and a free slot
takes the slot with a new generation, makes the successor busy, answers the handle and queues the start to the master
engine; GRSIG, GRCAN and GRQRY wait while the master of the slot has not read the header; GRSIG of a legal selector
ends the firing of a SIGNAL node that runs (nothing more once one has), fires a held node again, and otherwise answers
its code; GRCAN of a legal selector begins the walk that cancels a node or every node, or answers its code; GRQRY
answers the entry of a node or the state of the instance, or 2^63 and its code; XPOST on a module with a guest queues
the job to the socket; XQRY answers the state of the socket or the counts of the jobs of the ASID. That the entries of
nodes are acted on in the step that issues the instruction, once the header is read (log entry 30), and the scope at
which GRRUN and XPOST start (log entry 64), are the model's readings. -/
def Obligations.GraphAndGuestInstructionsComplete : Prop :=
  ∀ (s : State) (a d : Reg) (sw : SuccWord),
    let w := s.xr a
    let room := hasRoom s (resultsOf d)
    let det := s.det = false ∨ d = 0
    let slot := fld w 0 8
    let n := fld w 16 12
    let u := (s.newResult d).1
    let v := (s.newResult d).2
    let i := v.inst slot
    let e := i.ent n
    (let b := s.lmWords w.toNat 8
      let sl := fld (b.getD 6 0) 0 8
      let id := if s.cf.fm then BitVec.ofNat 16 (fld (b.getD 7 0) 0 16) else s.cf.asid
      let sx : SuccWord := match sw with | .ok r => .ok { r with asid := id } | y => y;
      blockOk w 64 = true → runAddrOk b = true → zeroField (b.getD 7 0) 16 48 = true → s.succWord (b.getD 3 0) = sw → legalSucc sw → det →
      (s.inst sl).st = 0 → room 1 →
      let t := (s.acceptSucc sx).takeSlot b id sx.rel? none
      let gen := (t.inst sl).gen
      let m := slotMaster sl
      let (u, t) := t.newResult d
      exec (.grrun a d) s = .next ((t.answerCf u (BitVec.ofNat 64 (gen * 2 ^ 16 + sl))).releaseThen (widerScope .module (succScope t.iss.ep sx.rel?))
        [(0, t.iss.ep, graphEp m, .graphStart sl gen m 0)])) ∧
    (selectorOk w true false = true → det →
      (s.unread slot = true → exec (.grsig a d) s = .next (s.hold .queue)) ∧
      (s.unread slot = false → room 0 →
      (v.selectorCode w false ≠ 0 → exec (.grsig a d) s = .next (v.answerCf u (BitVec.ofNat 64 (v.selectorCode w false)))) ∧
      (v.selectorCode w false = 0 → fld w 36 4 = 0 → e.st = 2 → nKind (i.nrec n) = 5 → bitOf (nPay (i.nrec n) 2) 0 = true →
        exec (.grsig a d) s = .next ((if e.awaited ≠ 0 ∨ e.fault.isSome = true then v else v.firingDone slot n).answerCf u 0)) ∧
      (v.selectorCode w false = 0 → fld w 36 4 ≠ 0 → e.st = 6 →
        exec (.grsig a d) s = .next (((v.modEnt slot n (fun e => { e with tries := e.tries + 1, again := true })).ready1 slot n).answerCf u 0)) ∧
      (v.selectorCode w false = 0 → fld w 36 4 ≠ 0 → e.st ≠ 6 → exec (.grsig a d) s = .next (v.answerCf u 1)) ∧
      (v.selectorCode w false = 0 → fld w 36 4 = 0 → (e.st ≠ 2 ∨ nKind (i.nrec n) ≠ 5 ∨ bitOf (nPay (i.nrec n) 2) 0 = false) →
        exec (.grsig a d) s = .next (v.answerCf u 1)))) ∧
    (selectorOk w false true = true → det →
      (s.unread slot = true → exec (.grcan a d) s = .next (s.hold .queue)) ∧
      (s.unread slot = false → room 0 →
      (v.selectorCode w false ≠ 0 → exec (.grcan a d) s = .next (v.answerCf u (BitVec.ofNat 64 (v.selectorCode w false)))) ∧
      (v.selectorCode w false = 0 → bitOf w 32 = true → exec (.grcan a d) s = .next ((v.cancelNodes slot
        ((List.range i.nn).filter (fun k => !finalSt (i.ent k).st))).answerCf u 0)) ∧
      (v.selectorCode w false = 0 → bitOf w 32 = false → e.st = 6 → exec (.grcan a d) s
        = .next ((((v.modEnt slot n (fun e => { e with st := 4 })).walkFromNode slot n).checkEnd slot).answerCf u 0)) ∧
      (v.selectorCode w false = 0 → bitOf w 32 = false → e.st ≠ 6 → exec (.grcan a d) s
        = .next (((v.cancelNodes slot [n]).later (.cancelWalkStep slot i.gen (slotMaster slot) [] [n] [n] true false)).answerCf u 0)))) ∧
    (let all := bitOf w 32
      let left := ((List.range i.nn).filter (fun k => !finalSt (i.ent k).st)).length;
      selectorOk w false true = true → s.det = false →
      (s.unread slot = true → exec (.grqry a d) s = .next (s.hold .queue)) ∧
      (s.unread slot = false → room 0 →
      (v.selectorCode w all ≠ 0 → exec (.grqry a d) s = .next (v.answerCf u (BitVec.ofNat 64 (2 ^ 63 + v.selectorCode w all)))) ∧
      (v.selectorCode w all = 0 → all = true → exec (.grqry a d) s
        = .next (v.answerCf u (BitVec.ofNat 64 (i.gen * 2 ^ 48 + i.asid.toNat * 2 ^ 32 + left % 4096 * 2 ^ 16 + i.st)))) ∧
      (v.selectorCode w all = 0 → all = false → exec (.grqry a d) s = .next (v.answerCf u ((entWords i.gen e).headD 0))))) ∧
    (let p := s.lmWords w.toNat 8
      let sx : SuccWord := match sw with | .ok r => .ok { r with prio := s.cf.level, asid := s.cf.asid, gen := 0 } | y => y;
      s.guest.en = true → blockOk w 64 = true → zeroField (p.getD 0 0) 0 48 = true → s.succWord (p.getD 1 0) = sw → legalSucc sw → hasRoom s 0 1 →
      let j := GuestJob.mk 0 0 0 1 s.cf.level.toNat s.cf.asid p s.iss.ep sx.rel? none false false
      exec (.xpost a) s = .next ((s.acceptSucc sx).releaseThen (widerScope .module (succScope s.iss.ep sx.rel?)) [(0, s.iss.ep, socketEp, .guestSubmission j)])) ∧
    (let g := s.guest
      let mine := g.jobs.filter (fun j => j.asid == s.cf.asid && j.st != 3);
      zeroField w 2 62 = true → s.det = false → room 0 →
      (fld w 0 2 = 0 → exec (.xqry a d) s = .next (answering s d (g.state + g.reason * 2 ^ 8 + g.modules * 2 ^ 16))) ∧
      (fld w 0 2 = 1 → exec (.xqry a d) s = .next (answering s d (mine.length + (mine.filter (fun j => j.st == 2)).length * 2 ^ 16))))

/-- For every state, with room and outside the deterministic cases of cause 51: SPAWN of a legal record and control to a
core whose deque has room counts the child on its join counter, takes the next ordinal, queues the push and answers 0;
JOINI of a free counter opens it with its scope, operation, ASID and identity, and answers 0, or 1 for a counter that
is not free; JOIN of an open counter of the ASID arms it with its continuation behind the accesses of its scope, and
answers 0; TERMQ answers the ASID and state of a termination slot, or 0 for one of another ASID. That x[rd] of SPAWN
is written at issue, and the order of the checks of JOIN, are the model's readings (log entry 31). -/
def Obligations.SpawnInstructionsComplete : Prop :=
  ∀ (s : State) (y : Bool) (p : BitVec 2) (b a d : Reg) (sw : SuccWord),
    let x := s.xr a
    let room := hasRoom s (resultsOf d)
    let det := s.det = false ∨ d = 0
    (let c := s.xr b
      let dom := p.toNat
      let w0 := s.recWord x.toNat 0
      let j := s.cc.join (fld c 0 6);
      zeroField x 8 56 = true → controlOk c y dom = true → s.cc.recbusy.getLsbD x.toNat = false → recordOk w0 (s.recWord x.toNat 1) = true →
      fld w0 0 3 = s.cf.level.toNat → (bitOf c 6 = false → j.st = 1 ∧ j.asid = s.cf.asid ∧ j.pending ≠ 65535) →
      (s.det = false ∨ (d = 0 ∧ (dom = 0 ∨ y = true))) → ∀ t,
      (if dom = 0 ∨ y = false then some s.iss.ep else s.hashedCore dom s.iss.ep (childPath s.cf.path s.cf.ordinal.toNat)) = some t →
      (t = s.iss.ep → s.dequeFull s.iss.ep = false) → room 1 →
      exec (.spawn y p b a d) s = .next (((s.newResult d).2.spawnChild x.toNat c y dom t).answerCf (s.newResult d).1 0)) ∧
    (let j := fld x 0 6
      let op := fld x 8 4
      let sc := fld x 12 3;
      zeroField x 15 49 = true → zeroField x 6 2 = true → op ≤ 8 → sc ≤ 4 → det → room 0 →
      ((s.cc.join j).st ≠ 0 → d ≠ 0 → exec (.joini a d) s = .next (answering s d 1)) ∧
      ((s.cc.join j).st = 0 → exec (.joini a d) s = .next (((s.newResult d).2.modJoin (s.newResult d).2.iss.ep j
        (fun _ => { JoinCtr.free with st := 1, jscope := sc, op := op, asid := (s.newResult d).2.cf.asid, value := foldIdentity op })).answerCf
          (s.newResult d).1 0))) ∧
    (let j := fld x 0 6
      let k := s.cc.join j
      let ep := s.iss.ep;
      zeroField x 6 58 = true → s.succWord (s.xr b) = sw → legalSucc sw → k.st = 1 → k.asid = s.cf.asid → room 1 →
      let t := (s.acceptSucc sw).modJoin ep j (fun x => { x with st := 2, rdy := false, word := s.xr b, cont := sw.rel? })
      let sc := match sw.rel? with
        | some r => widerScope (scopeOfCode k.jscope) (relScope r ep)
        | none => scopeOfCode k.jscope
      let (u, t) := t.newResult d
      exec (.join b a d) s = .next ((t.answerCf u 0).releaseThen sc [(4, ep, ep, .joinMessage (JoinMsg.mk ep ep j t.cf.asid none false true t.cf.level.toNat))])) ∧
    (let t := vget TSlot.free s.term.slots (fld x 0 4);
      zeroField x 4 60 = true → s.det = false → room 0 →
      ((s.cf.fm = true ∨ t.asid = s.cf.asid) → exec (.termq a d) s = .next (answering s d (t.asid.toNat * 2 ^ 32 + t.st))) ∧
      (s.cf.fm = false → t.asid ≠ s.cf.asid → exec (.termq a d) s = .next (answering s d 0)))

/-- For every state: FIXED_RESULT_WRITEBACK of an outstanding result whose cycle has come writes back every result of the
core that is due then, CSR writes before flags; VARIABLE_RESULT_WRITEBACK of the frame that awaits it writes back the
value given, a lane grant once the spills it causes are done; ACCESS_LEAVES_QUEUE of an entry that nothing holds
dispatches it; DATA of an access of a frame removes its entry from the queue and completes it; DELIVERY writes the
status to the sender. -/
def Obligations.ResultsWriteBack : Prop :=
  ∀ (s : State),
    (∀ (ep win uid d : Nat) (r : Result), s.ev = some (.fixedResultWriteback ep win uid) →
      (s.frame ep win).outs.find? (fun r => r.uid == uid) = some r → r.due = some d → d ≤ s.now + 1 →
      exec .fixedResultWriteback s = .next (s.settleBy (s.now + 1) ep)) ∧
    (∀ (ep win fid uid : Nat) (val : ResVal) (fl : FlagSet) (poison : Bool) (r : Result),
      let m := s.flagsMeet ep win fl;
      s.ev = some (.variableResultWriteback ep win fid uid val fl poison) → (s.frame ep win).fid = fid → (m.frame ep win).fid = fid →
      (m.frame ep win).outs.find? (fun r => r.uid == uid) = some r →
      ((∀ rd, r.dst ≠ .lanes rd) → exec .variableResultWriteback s = .next (m.writeBack ep win r val fl poison)) ∧
      (∀ rd, r.dst = .lanes rd → ((m.spillTurn ep).lacking ep win).isEmpty = true →
        exec .variableResultWriteback s = .next ((m.spillTurn ep).writeBack ep win r val fl poison))) ∧
    (∀ (ep id : Nat) (e : QEnt), s.ev = some (.accessLeavesQueue ep id) → (s.core ep).oq.find? (fun e => e.id == id && !e.left) = some e →
      (s.core ep).canLeave ep e = true → exec .accessLeavesQueue s = .next (s.leave ep e)) ∧
    (∀ (a : Access) (bytes : List Byte) (poison : Bool), s.ev = some (.data a bytes poison) → a.core ≠ hostEp → epClass a.core < 2 → a.win < 8 →
      exec .data s = .next ((s.performed a.core a.id).complete a bytes poison)) ∧
    (∀ (m : ActiveMsg) (st : Nat), s.ev = some (.delivery m st) → epClass m.src ≠ 3 → m.dstDev = none → (st = 0 ∨ st = 2) →
      exec .delivery s = .next (s.answerWord m.src m.win m.fid m.uid (BitVec.ofNat 64 st)))

/-- For every state: LOAD, STORE and ATOMIC at an LM port that takes packets and whose trace ring is off perform the
access on LM in one step (the two elements of a store that carries a pair in turn) and answer the core with the bytes
read, an acknowledgement or the old value (a free value, poisoned, where what is read has an uncorrectable error); ARM
at such a port whose word meets the condition releases at once, and otherwise, with a free monitor, arms the lowest
free one, and is acknowledged either way; a refused ARMACK sends the arm again; ARM of a GLOBAL word is taken by its
home; CODE_FILL fills the line of readable code; HOST_ACCESS_REQUEST sends a write out and acknowledges it, and a read
out; NON_POSTED_READ_COMPLETION answers with the bytes. The free value of an atomic or a record that an error struck
is the model's choice (log entry 61). -/
def Obligations.AccessesAtTheirPorts : Prop :=
  ∀ (s : State) (a : Access) (q : ArmReq) (p : Nat),
    let serves := fun (ep : Nat) => (s.ring ep).mode = 0 ∧ (s.ring ep).entries.length < 64 ∧ (s.core ep).portRefuses = false
    let r := s.lmPerform a.owner a.addr a.op
    let answered := r.1.send 1 a.owner a.core (.data a r.2.1 r.2.2)
    (serves a.owner → a.pair? = none →
      (s.ev = some (.load a) → exec .load s = .next answered) ∧ (s.ev = some (.store a) → exec .store s = .next answered) ∧
      (s.ev = some (.atomic a) → exec .atomic s = .next answered)) ∧
    (∀ (x y : List Byte), serves a.owner → a.pair? = some (x, y) → s.ev = some (.store a) →
      let t := ((s.lmPerform a.owner a.addr (.store x)).1.lmPerform a.owner (a.addr + x.length) (.store y)).1
      exec .store s = .next (t.send 1 a.owner a.core (.data a [] false))) ∧
    (s.ev = some (.arm q) → q.space ≠ 2 → serves q.owner → (s.core q.owner).monitors.length < 16 →
      (s.armHoldsLm q.owner q = true → exec .arm s = .next ((s.sendRelease q.owner q.rel).send 1 q.owner q.rel.srcEp (.armack q false))) ∧
      (s.armHoldsLm q.owner q = false →
        let free := (List.range 16).find? (fun i => !(s.core q.owner).monitors.any (fun m => m.idx == i))
        exec .arm s = .next ((s.setCore q.owner { s.core q.owner with
          monitors := (s.core q.owner).monitors ++ [Monitor.mk (free.getD 0) q] }).send 1 q.owner q.rel.srcEp (.armack q false)))) ∧
    (s.ev = some (.arm q) → q.space = 2 → exec .arm s = .next (s.homeArrive
      (HomeReq.mk (.armReq q) 512 q.rel.srcEp q.rel.asid q.owner (lineOf q.addr) false 0 0 false 0 0 false false 0 false
        q.rel.prio.toNat true))) ∧
    (s.ev = some (.armack q true) → exec .armack s = .next (s.send 0 q.rel.srcEp q.owner (.arm q))) ∧
    (s.ev = some (.armack q false) → exec .armack s = .next s) ∧
    (∀ (id : BitVec 16) (va : Word), s.ev = some (.codeFill p id va) → (s.fillCode p id va.toNat).1 = 0 →
      exec .codeFill s = .next (s.fillCode p id va.toNat).2) ∧
    (s.ev = some (.hostAccessRequest a) →
      (∀ b, a.op = .store b → exec .hostAccessRequest s = .next ((s.out (.hostWrite a.addr b)).send 1 hostEp a.core (.data a [] false))) ∧
      (∀ n, a.op = .load n → exec .hostAccessRequest s = .next (s.out (.hostRead a)))) ∧
    (∀ (bytes : List Byte) (poison : Bool), s.ev = some (.nonPostedReadCompletion a bytes poison) → bytes.length = a.op.size →
      exec .nonPostedReadCompletion s = .next (s.send 1 hostEp a.core (.data a bytes poison)))

/-- For every state: RELEASE at a core that takes releases pulls the record; PULL reads the record, frees it and sends it;
RECORD makes the entry and its arrival; RELEASE_ARRIVAL at a level with room counts, queues and selects; FRAME_PUSH
pre-empts the top and starts the frame of the oldest entry chosen; FIFO_RING_MOVE takes the oldest ring entry, read
from its slot, into the FIFO, and one that holds an uncorrectable error is lost; FRAME_POP of an ENDING top with
nothing outstanding pops it; TRAP_ENTRY of a FAULTING top with nothing outstanding takes its trap; REFILL_COMPLETE of
a spilled top brings its rows back into free banks, and a bad word of its reserve makes it LOST; FRAME_LOST ends a
saved frame, which is LOST; MIGRATION_COMMIT of a migrating core with its streams done moves the core; FORWARD_PACKET
turns a packet of a vacated core to its new one; STARVATION_REPORT reports a starved level. That an error in any frame
of a migrating core makes that frame LOST is the model's choice (log entry 75). -/
def Obligations.ReleasesArriveAndFramesArePushed : Prop :=
  ∀ (s : State) (ep w k p : Nat) (r : Release) (e : Entry),
    (s.ev = some (.release r) → (s.core r.dst).refuses = false → (s.core r.dst).ringFull = false → exec .release s = .next (match r.dstDev with
      | none => s.send 0 r.dst r.srcEp (.pull r)
      | some _ => s.send 0 r.dst fjPlace (.fjarlinkPacket 31 (.pull r)))) ∧
    (s.ev = some (.pull r) → s.pullRefused r = false → (2 ≤ epClass r.srcEp ∨ s.lmBad r.srcEp (0x7C000 + 64 * r.recIdx.toNat) 64 = false) →
      exec .pull s = .next (match r.dstDev with
      | none => (s.unbusy r).send 1 r.srcEp r.dst (.record r (s.pulled r))
      | some _ => (s.unbusy r).send 1 r.srcEp fjPlace (.fjarlinkPacket 31 (.record r (s.pulled r))))) ∧
    (∀ ws : List Word, s.ev = some (.record r ws) → exec .record s
      = .next ((s.mkEntry r.dst r ws none none).2.later (.releaseArrival r.dst (s.mkEntry r.dst r ws none none).1))) ∧
    (s.ev = some (.releaseArrival ep e) → (s.core ep).levelFull e.rel.prio.toNat = false →
      let t := if e.rel.srcDev == s.srcDev && e.slot.isNone && e.census.isNone then s.countRecv ep e.rel.asid else s
      exec .releaseArrival s = .next (((t.queueEntry ep e).select ep).nextSpawned ep e)) ∧
    (∀ rest : List Entry, s.ev = some (.framePush ep) → (s.core ep).push = e :: rest → (s.core ep).code = 0 → e.descStat ≠ 3 →
      let c := s.core ep
      let f := startFrame e (c.segTop e.rel.prio.toNat) (c.spLimit - c.trapSeg) s.uid
      let t := ((if isMemCore ep then s.applyAll ep else s).preemptTop ep).modCore ep (fun c => { c with push := rest })
      let t := { t.setFrame ep e.rel.prio.toNat f with uid := t.uid + 1 }
      exec .framePush s = .next ((if f.st == .faulting then t.later (.trapEntry ep) else t).select ep)) ∧
    (∀ l : List Entry, s.ev = some (.fifoRingMove ep p) → vget [] (s.core ep).ring p = e :: l → (vget [] (s.core ep).fifo p).length < 32 →
      let c := s.core ep
      let n := vget 0 c.ringHead p
      let off := c.ringSlot p (n % Nat.max 1 c.ringEntries)
      let e' := entryOfWords e ((List.range 16).map (fun i => s.lmWord ep (off + 8 * i)))
      (s.lmBad ep off 128 = false → exec .fifoRingMove s = .next ((s.setCore ep { c with
        fifo := vset c.fifo p (vget [] c.fifo p ++ [e'])
        ring := vset c.ring p l
        ringHead := vset c.ringHead p ((n + 1) % Nat.max 1 c.ringEntries) }).select ep)) ∧
      (s.lmBad ep off 128 = true → exec .fifoRingMove s = .next (((s.setCore ep { c with
        fifo := c.fifo
        ring := vset c.ring p l
        ringHead := vset c.ringHead p ((n + 1) % Nat.max 1 c.ringEntries) }).entryLost ep e).later (.fifoRingMove ep p)))) ∧
    (let t := s.settle ep;
      s.ev = some (.framePop ep) → (t.core ep).top = some w → (t.frame ep w).st = .ending → (t.core ep).code = 0 → (t.frame ep w).outs = [] →
      (t.core ep).push = [] → exec .framePop s = .next (t.popFrame ep w)) ∧
    (∀ f : PFault, let t := s.settle ep;
      s.ev = some (.trapEntry ep) → (t.core ep).top = some w → (t.frame ep w).pending = some f → (t.frame ep w).st = .faulting → (t.core ep).code = 0 →
      (t.frame ep w).outs = [] → (t.core ep).push = [] → exec .trapEntry s = .next (t.takeTrap ep w f)) ∧
    (let f := s.frame ep w;
      s.ev = some (.refillComplete ep) → (s.core ep).top = some w → f.spilled = true → f.nLanes ≠ 0 → s.reserveBad ep w = true →
      exec .refillComplete s = .next ((((s.lose ep w).frameFree ep w .lost).uncover ep 8).select ep)) ∧
    (∀ t t' : State, let f := s.frame ep w
      let map := groupsOf f.gmap;
      s.ev = some (.refillComplete ep) → (s.core ep).top = some w → f.spilled = true → f.nLanes ≠ 0 → s.reserveBad ep w = false →
      ceilDiv f.nLanes 16 ≤ map.length → s.takeBanks ep w map = (t', some t) →
      let u := t.modFrame ep w (fun f => { f with
        spilled := false, hold := (if f.hold == .refill then .none else f.hold)
        vlen := setFld f.vlen 16 16 (map.foldl (fun n g => n + 2 ^ g) 0) })
      let img := (List.range 32).map (fun r => s.vread ep w (BitVec.ofNat 5 r))
      exec .refillComplete s = .next (((List.range 32).foldl (fun v r => v.vwrite ep w (BitVec.ofNat 5 r) (img.getD r [])) u).modGeode (epGeode ep)
        (fun x => { x with refillcnt := x.refillcnt + 1 }))) ∧
    (let f := (s.core ep).win w;
      s.ev = some (.frameLost ep w) → w < 8 → (f.st = .preempted ∨ f.st = .trapped) → (s.core ep).top ≠ some w →
      exec .frameLost s = .next (((s.lose ep w).modCore ep (fun c => { c with mig := c.mig.map (fun m => { m with lost := true }) })).select ep)) ∧
    (∀ m : Migration, let u := s.settle ep
      let t := u.loseReserves ep;
      s.ev = some (.migrationCommit ep) → (u.core ep).code = 2 → (t.core ep).mig = some m → (t.core ep).code = 2 → t.streamDone ep m.dst = true →
      exec .migrationCommit s = .next (t.moveCore ep m)) ∧
    (∀ m : Msg, s.ev = some (.forwardPacket k) → s.net[k]? = some m → (s.core m.dst).code = 3 → bitOf (s.core m.dst).fwd 63 = true → m.ch = .eject →
      let d := fld (s.core m.dst).fwd 0 12
      exec .forwardPacket s = .next { s with net := s.net.set k { m with
        dst := d, rt := routerOf m.dst, ch := .inject, since := s.now, wait := 0, ev := moveEvent m.dst d m.ev } }) ∧
    (s.ev = some (.starvationReport ep p) → (s.core ep).starve ≠ 0 → (s.core ep).hasWork p = true → (s.core ep).top ≠ some p →
      exec .starvationReport s = .next (s.out (.starvation ep p)))

/-- For every state: STREAM_FILL of a bound read stream of the top frame with room and steps left takes its next step from
LM, and its register holds it when it is the head; STREAM_WRITE of a write stream whose oldest entry nothing holds
writes it; SLOT_LOAD_DONE of the first load of a slot without earlier readers writes the columns, from LM or, begun
and outside a refresh window, from bedrock, and ends it, with STATUS 2 where the data has an uncorrectable error;
GANG_FORMATION frees the passes that are done, marks the arrival, ends the members that awaited it and forms the
highest gang that can; PASS_START of the chosen pass with its format begins it; PASS_STEP computes the next step, ends
the pass after the last, or goes on; DRAIN_JOB_START takes the first job; DRAIN_JOB_DONE writes its slices and its
pass is done; REFRESH_WINDOW moves the schedule on by one cycle. The end of a B load whose bedrock data has an
uncorrectable error (log entry 65) and the steps of the refresh schedule (log entry 28) are the model's readings. -/
def Obligations.StreamsAndArrayWorkGoOn : Prop :=
  ∀ (s : State) (ep w j g k q : Nat),
    let f := s.frame ep w
    let t := f.stream j
    let a := s.arr g
    (s.ev = some (.streamFill ep w j) → t.bound = true → t.write = false → t.buf.length < 4 → t.pos + t.buf.length < t.steps →
      (s.core ep).top = some w → f.spilled = false → s.lmBad ep (t.off (t.pos + t.buf.length)) (imageBytes t.tag f.nLanes) = false →
      let b := StreamEnt.mk 0 (s.lmRead ep (t.off (t.pos + t.buf.length)) (imageBytes t.tag f.nLanes)) false
      let u := s.setFrame ep w (f.putStream j { t with buf := t.buf ++ [b] })
      let u := if t.buf.isEmpty then u.putHead ep w j t b else u
      exec .streamFill s = .next (if (t.buf ++ [b]).length < 4 && t.pos + t.buf.length + 1 < t.steps then u.later (.streamFill ep w j) else u)) ∧
    (∀ x : Nat × Machine.Stream, s.ev = some (.streamWrite ep w j) → (s.core ep).writing w j = some x →
      (s.core ep).streamReady ep w x.1 x.2 = true → exec .streamWrite s = .next (s.streamOut ep w j)) ∧
    (let u := s.modArr g (fun a => a.modSlot k (fun t => { t with loads := t.loads.map (fun l => if l.seq == q then { l with ready := true } else l) }))
      let n := fun (l : SlotLoad) => 64 * cb l.bfmt;
      ∀ (l : SlotLoad) (r : List SlotLoad), s.ev = some (.slotLoadDone g k q) → ((u.arr g).slot k).loads = l :: r → l.seq = q → (u.arr g).readers k q = [] →
      (∀ c o, l.src = .lm c o → exec .slotLoadDone s = .next (if u.lmBad c o (n l) then (u.machineCheck c 7).slotEnd g k q false 2 1
        else (u.slotStore g k l.bfmt (u.lmRead c o (n l))).slotEnd g k q true 0 0)) ∧
      (∀ o, l.src = .bedrock o → l.started = true → (groupsTouched o (n l)).any (inWindow u.sched) = false → exec .slotLoadDone s
        = .next (if memBad u.bad (bedKey (g / 128) o) (n l) then (u.countLoads (g / 128) (groupsTouched o (n l)) false).slotEnd g k q false 2 1
          else ((u.slotStore g k l.bfmt (memRead u.mem (bedKey (g / 128) o) (n l))).countLoads (g / 128) (groupsTouched o (n l)) false).slotEnd
            g k q true 0 0))) ∧
    (∀ sq : Option Nat, s.ev = some (.gangFormation g sq) →
      let here := fun (r : Registration) => if some r.seq == sq then { r with arrived := true } else r
      let u := s.modArr g (fun a => { a.freeDone with
        regs := a.regs.map here, drains := a.drains.map (fun d => { d with members := d.members.map here })
        passes := a.freeDone.passes.map (fun p => { p with members := p.members.map here }) })
      let owed := (u.arr g).ends.filter (fun e => some e.1.seq == sq)
      let u := u.modArr g (fun a => { a with ends := a.ends.filter (fun e => some e.1.seq != sq) })
      let u := owed.foldl (fun t e => memberEnd t (8 * g + e.1.core) e.1 e.2.1 e.2.2) u
      exec .gangFormation s = .next ((match (u.arr g).gang with | none => u | some ms => u.form g ms).arrayKick g)) ∧
    (∀ p : Pass, s.ev = some (.passStart g) → a.running = none → a.choose = some p → (p.state = 1 → (a.slot (pwSlot p.word)).bfmt = pwB p.word) →
      exec .passStart s = .next ((s.modArr g (fun a => a.putPass { p with state := 2 })).laterOnce (.passStep g))) ∧
    (∀ p : Pass, s.ev = some (.passStep g) → a.running = some p → p.stepFrom p.step < p.steps →
      let j := p.stepFrom p.step
      let u := s.stepAll g p j
      let p' := { ((u.arr g).passes.find? (fun q => q.pid == p.pid)).getD p with state := 3, step := j + 1 }
      let v := u.modArr g (fun a => a.putPass p')
      (p'.steps ≤ p'.stepFrom (j + 1) → exec .passStep s = .next ((u.lastStep g p').arrayKick g)) ∧
      (p'.stepFrom (j + 1) < p'.steps → (∀ h, (v.arr g).choose = some h → h.prio ≤ p'.prio) → exec .passStep s = .next (v.laterOnce (.passStep g)))) ∧
    (∀ (d : DrainJob) (l : List DrainJob), s.ev = some (.drainJobStart g) → a.draining = none → a.dready = d :: l →
      exec .drainJobStart s = .next ((s.modArr g (fun a => { a with draining := some d, dready := l })).laterOnce (.drainJobDone g))) ∧
    (∀ d : DrainJob, s.ev = some (.drainJobDone g) → a.draining = some d →
      let u := (d.members.foldl (fun t m => t.drainMember g d m) s).modArr g (fun a => { a with draining := none })
      exec .drainJobDone s = .next ((match d.pid with | some p => (u.modArr g (fun a => a.donePass p)).laterOnce (.gangFormation g none) | none => u).arrayKick g)) ∧
    (s.ev = some .refreshWindow → exec .refreshWindow s = .next { s with sched := s.sched + 1 })

/-- For every state: SOLICIT_REQUEST and REMOTE_CENSUS make the census LIVE when none is queued and a new id may live, and
else queue it while fewer than 48 are; CENSUS_LIVE makes the oldest queued ones LIVE while a new id may live: each
takes the next id, answers the asker, is sent down, and every 4096 ids an epoch mark; EPOCH_MARK_APPLY ages the
stamps, and a migrating core holds it; SOLICIT_SCAN opens a row and spawns a responder for each entry that matches and
is not blocked; CORE_ANSWER with no responder left, and their releases done, answers the folded payloads upward;
ANSWER_FOLD keeps the answer, and with the last one folds them in order upward; CENSUS_RESULT_WRITE stores the result,
CENSUS_COMPLETE frees the slot and releases; TILE_RESERVE takes the lowest free entry or says NOROOM; TILE_COMMIT
sends the next bytes, then the commit; TILE_COMMIT_ARRIVAL makes the entry RESIDENT, answers the deferred censuses in
the order of their ids, releases and acknowledges; BARRIER_CONTRIBUTION opens, joins or completes its barrier. -/
def Obligations.CensusStepsComplete : Prop :=
  ∀ (s : State) (q : Solicit) (ep id n : Nat) (m : TileMove),
    (let live := fun (s : State) (q : Solicit) =>
        let k := s.census.nextId
        let q' := { q with id := k }
        let slot := ((List.range 16).find? (fun k => !s.census.slots.any (fun c => c.slot == k))).getD 0
        let t := s.modRoot (fun r => { r with
          nextId := (k + 1) % 65536, slots := r.slots ++ [CensusSlot.mk slot 2 q' (Answer.mk 0 0 0 0 []) 0 0 0] })
        let t := (t.answerWord q'.asker q'.win q'.fid q'.uid (BitVec.ofNat 64 k)).solicitAll q'
        if k % 4096 == 0 then t.allCores.foldl (fun t c => t.send 0 censusRoot c (.epochMarkApply c k)) t else t
      let later := s.modRoot (fun r => { r with queue := r.queue ++ [q] });
      (s.ev = some (.solicitRequest q) →
        (s.census.queue = [] → s.census.mayLive = true → exec .solicitRequest s = .next (live s q)) ∧
        (s.census.mayLive = false → s.census.queue.length < 48 → exec .solicitRequest s = .next later)) ∧
      (s.ev = some (.remoteCensus q) →
        (s.census.queue = [] → s.census.mayLive = true → exec .remoteCensus s = .next (live s q)) ∧
        (s.census.mayLive = false → s.census.queue.length < 48 → exec .remoteCensus s = .next later)) ∧
      (s.ev = some .censusLive →
        (s.census.mayLive = false → exec .censusLive s = .next s) ∧
        (∀ l : List Solicit, s.census.queue = q :: l → s.census.mayLive = true →
          exec .censusLive s = .next ((live (s.modRoot (fun r => { r with queue := l })) q).fillSlots 15)))) ∧
    (s.ev = some (.epochMarkApply ep n) →
      ((s.core ep).code ≠ 2 → exec .epochMarkApply s = .next (s.modPort ep (fun p => { p with
        lastEpoch := n
        dir := p.dir.map (fun e => (e.1, if e.2.sv && aged n e.2.stamp then { e.2 with sv := false } else e.2)) }))) ∧
      ((s.core ep).code = 2 → exec .epochMarkApply s = .next (s.modPort ep (fun p => { p with held := p.held ++ [.epochMarkApply ep n] })))) ∧
    (s.ev = some (.solicitScan ep id q) → (s.core ep).code ≠ 2 → (s.core ep).code ≠ 4 →
      let p := s.port ep
      let row := ((List.range 64).find? (fun k => !p.rows.any (fun r => r.row == k))).getD 0
      let t := s.modPort ep (fun p => { p with rows := p.rows ++ [OpenRow.mk row q id 0 0 0 0 []] })
      exec .solicitScan s = .next ((((p.dir.filter (fun e => e.2.matching q)).filter (fun e => !e.2.blocked q.id)).foldl
        (fun t e => t.spawnResponder ep id q e.1 e.2) t).answerKick ep)) ∧
    (∀ r : OpenRow, let mine := fun (r : OpenRow) => r.q.id == n && r.asId == id;
      s.ev = some (.coreAnswer ep id n) → (s.port ep).rows.find? mine = some r → r.left = 0 → (s.port ep).defers r.q = false →
      (s.core ep).respondPending r = false →
      let a := foldAnswers (solOp r.q.words) ((r.pays.filter (fun x => x.2.2)).map (fun x => Answer.mk 1 0 0 0 x.2.1))
      exec .coreAnswer s = .next ((s.modPort ep (fun p => { p with rows := p.rows.filter (fun x => !mine x) })).send 1 ep (geodeEp (id / 8))
        (.answerFold (id / 8) n (id % 8) (some { a with nresp := r.nresp, nmiss := r.nmiss, nfault := r.nfault })))) ∧
    (∀ (child : Nat) (a : Answer) (u : NodeCensus), s.ev = some (.answerFold n id child (some a)) →
      (s.node n).under.find? (fun u => u.id == id) = some u → u.need.contains child = true → u.got.find child = none →
      let u' := { u with got := u.got.put child a }
      (u'.got.length < u'.need.length → exec .answerFold s
        = .next (s.modNode n (fun c => { c with under := c.under.map (fun x => if x.id == id then u' else x) }))) ∧
      (∀ c : CensusSlot, let t := s.modNode n (fun c => { c with under := c.under.filter (fun x => x.id != id) });
        u'.need.length ≤ u'.got.length → t.census.slots.find? (fun c => c.q.id == id) = some c →
        let f := foldAnswers (solOp c.q.words) (u'.got.map Prod.snd)
        exec .answerFold s = .next (if n == 516 then t.censusAnswered id c.unreach u.need.length f
          else t.send 1 (nodeEp n) (nodeEp (nodeAbove n).1) (.answerFold (nodeAbove n).1 id (nodeAbove n).2 (some f))))) ∧
    (∀ c : CensusSlot, s.census.slots.find? (fun c => c.q.id == id && c.st == 3) = some c →
      (s.ev = some (.censusResultWrite id) →
        let b := resultBytes c
        let k := ceilDiv b.length 8
        let t := s.modRoot (fun r => { r with slots := r.slots.map (fun x => if x.slot == c.slot then { x with acks := k } else x) })
        exec .censusResultWrite s = .next ((List.range k).foldl (fun t k => t.send 0 censusRoot c.q.asker
          (.store (rootStore censusRoot c.q.asker (solRoff c.q.words + 8 * k) id 1 c.q.asid ((b.drop (8 * k)).take 8)))) t)) ∧
      (s.ev = some (.censusComplete id) →
        let st := if c.answer.nfault == 0 && c.unreach == 0 then 0 else 2
        let t := (s.modRoot (fun r => { r with slots := r.slots.filter (fun x => x.slot != c.slot) })).modGeode (epGeode c.q.asker)
          (fun g => { g with sticky := g.sticky ||| c.answer.flags })
        exec .censusComplete s = .next (((t.releaseSucc censusRoot c.q.rel st c.answer.flags.toNat).fireDone censusRoot c.q.fire st
          c.answer.flags.toNat).laterOnce .censusLive))) ∧
    (s.ev = some (.tileReserve m) → s.scanOwed m = false → (s.core m.dst).refuses = false →
      (∀ k, (List.range 128).find? (fun n => ((s.port m.dst).dir.find n).isNone) = some k →
        exec .tileReserve s = .next ((s.modPort m.dst (fun p => { p with
          dir := p.dir.put k (Tile.mk 3 m.key m.asid m.base m.len m.kind m.user 0 false 0 false m.src 0 none) })).send 1 m.dst m.src
            (.tileCommit { m with dentry := some k }))) ∧
      ((List.range 128).find? (fun n => ((s.port m.dst).dir.find n).isNone) = none →
        exec .tileReserve s = .next (s.send 1 m.dst m.src (.tileCommit m)))) ∧
    (∀ (d : Nat) (t : Tile), s.ev = some (.tileCommit m) → m.dentry = some d → (s.port m.src).moving m = some t → (s.core m.dst).refuses = false →
      s.disabled m.dst = false →
      (t.moved < t.len →
        let a := Access.mk m.src (8 + m.entry) 0 m.asid d 1 m.dst (m.base + t.moved) none 0 false false (.store (s.lmRead m.src (t.base + t.moved) 8))
          m.prio
        exec .tileCommit s = .next ((s.modTile m.src m.entry (fun t => { t with move := some m })).send 0 m.src m.dst (.store a))) ∧
      (t.len ≤ t.moved → t.live ≠ 0 → exec .tileCommit s = .next (s.modTile m.src m.entry (fun t => { t with move := some m }))) ∧
      (t.len ≤ t.moved → t.live = 0 → exec .tileCommit s = .next
        ((s.modPort m.src (fun p => { p with dir := p.dir.del m.entry })).send 0 m.src m.dst (.tileCommitArrival m t.stamp t.sv)))) ∧
    (∀ (stamp : Nat) (sv : Bool), s.ev = some (.tileCommitArrival m stamp sv) → (s.core m.dst).refuses = false →
      let k := m.dentry.getD 0
      let live := sv && !aged (s.port m.dst).lastEpoch stamp
      let t := s.modTile m.dst k (fun t => { t with st := 1, stamp := stamp, sv := live, peer := 0 })
      let one := fun (t : State) (r : OpenRow) => match (t.port m.dst).dir.find k with
        | some e => if e.matching r.q && !e.blocked r.q.id then t.spawnResponder m.dst r.asId r.q k e else t
        | none => t
      let rows := sortBy (fun (r : OpenRow) => (r.q.id + 65536 - s.census.nextId) % 65536) (t.port m.dst).rows
      exec .tileCommitArrival s = .next ((((rows.foldl one t).releaseSucc m.dst m.rel 0 k).answerKick m.dst).send 1 m.dst m.src (.tileCommit m))) ∧
    (∀ b : BarReq, let c := s.node b.node
      let mine := fun (x : Barrier) => x.asid == b.asid && fld x.word0 8 8 == fld b.word0 8 8
      let yes := fun (t : State) => t.answerWord b.core b.win b.fid b.uid 0;
      s.ev = some (.barrierContribution b) →
      (c.bars.find? mine = none → c.bars.length < nodeBars b.node →
        let x := Barrier.mk (((List.range 16).find? (fun k => !c.bars.any (fun b => b.idx == k))).getD 0) b.asid b.word0 [b]
        exec .barrierContribution s = .next (if fld b.word0 16 12 ≤ 1 then (yes s).barDone x
          else yes (s.modNode b.node (fun c => { c with bars := c.bars ++ [x] })))) ∧
      (∀ x, c.bars.find? mine = some x → x.word0 = b.word0 → x.joined.any (fun y => y.core == b.core) = false →
        let x' := { x with joined := x.joined ++ [b] }
        exec .barrierContribution s = .next (if fld x.word0 16 12 ≤ x'.joined.length then
            (yes (s.modNode b.node (fun c => { c with bars := c.bars.filter (fun y => y.idx != x.idx) }))).barDone x'
          else yes (s.modNode b.node (fun c => { c with bars := c.bars.map (fun y => if y.idx == x.idx then x' else y) })))))

/-- For every state: a request of an agent other than the guest, at a home whose trace ring is off, that no claim holds
back, that can be taken and behind which no request for its line waits, is started; TRANSACTION_TAKEN starts the
oldest buffered request that can be taken; HOME_RETRY asks again; SNOOP of a memory core is answered with what it
holds; a home of the same slab, or one that takes no copy away, has it applied at once, an invalidation from another
slab is applied by SNOOP_APPLY, for every agent of the slab; SNPRESP is noted in its transaction, whose last answer
finishes it; COHERENT_DATA fills the line of a core; HOME_ACK of an Upg makes the line writable, of a WB drops the
buffered line, of a handover completes it; LINE_DROP of a clean line removes it; PAGE_WALK_DONE caches the translation
and answers the frames that wait. That the answered snoops of a line are applied in all agents of one slab at one
moment is the model's choice (log entry 74). -/
def Obligations.CoherenceStepsComplete : Prop :=
  ∀ (s : State) (q : HomeReq) (ep ag line : Nat),
    let h := s.home ep
    (q.agent ≠ 256 → (s.ring q.home).mode = 0 → (s.ring q.home).entries.length < 64 → claimHolds (s.home q.home) q = false →
      (s.home q.home).canTake q = true → (s.home q.home).behind ((s.home q.home).buf ++ (s.home q.home).recallq) q = false →
      (s.ev = some (.rds q) → q.kind = .rds → exec .rds s = .next (s.homeStart q.home { q with logged := true })) ∧
      (s.ev = some (.rdo q) → q.kind = .rdo → exec .rdo s = .next (s.homeStart q.home { q with logged := true })) ∧
      (s.ev = some (.upg q) → q.kind = .upg → exec .upg s = .next (s.homeStart q.home { q with logged := true })) ∧
      (s.ev = some (.wb q) → q.kind = .wb → exec .wb s = .next (s.homeStart q.home { q with logged := true })) ∧
      (s.ev = some (.rangeClaim q) → q.kind = .claim → exec .rangeClaim s = .next (s.homeStart q.home { q with logged := true })) ∧
      (s.ev = some (.claimwrite q) → q.kind = .claimWrite → exec .claimwrite s = .next (s.homeStart q.home { q with logged := true })) ∧
      (s.ev = some (.claimend q) → q.kind = .claimEnd → exec .claimend s = .next (s.homeStart q.home { q with logged := true })) ∧
      (∀ k, s.ev = some (.cmo q) → q.kind = .cmo k → exec .cmo s = .next (s.homeStart q.home { q with logged := true }))) ∧
    (∀ i : Nat, s.ev = some (.transactionTaken ep) →
      h.buf.zipIdx.find? (fun p => h.canTake p.1 && !claimHolds h p.1 && !h.behind (h.buf.take p.2) p.1) = some (q, i) →
      (s.ring ep).full = false →
      let e := { h with buf := h.buf.eraseIdx i }
      let t := (s.setHome ep { e with recallq := e.released.2, buf := e.buf ++ e.released.1 }).homeEnter ep q
      exec .transactionTaken s = .next (if (t.home ep).ready.isSome then t.later (.transactionTaken ep) else t)) ∧
    (s.ev = some (.homeRetry q) → exec .homeRetry s = .next (s.askHome q)) ∧
    (∀ (ty : SnpType) (who : Nat × BitVec 16), let c := agentEpOf ag
      let d := (s.core c).dcache
      let answer := match d.held line with
        | none => Event.snpresp ep ag line .i none false false false who
        | some l => Event.snpresp ep ag line l.st (if (snoopStep l.st ty).2 then some l.data else none) l.poison l.noalloc l.pin who;
      s.ev = some (.snoop ep ag line ty who) → ag ≠ 256 → epClass c = 1 →
      ((epSlab ep = epSlab c ∨ (ty ≠ .snpInv ∧ ty ≠ .backInv)) → exec .snoop s = .next ((s.modCore c (fun c => { c with dcache := d.snoop line ty })).send 1 c ep answer)) ∧
      (epSlab ep ≠ epSlab c → (ty = .snpInv ∨ ty = .backInv) →
        exec .snoop s = .next (((s.modCore c (fun c => { c with dcache := { d with
          snoops := d.snoops ++ [(line, ty)]
          lines := (match d.lines.find line with | some l => d.lines.put line { l with st := .s } | none => d.lines) } })).send 1 c ep answer).later
            (.snoopApply c)))) ∧
    (∀ (ty : SnpType) (l : List (Nat × SnpType)), s.ev = some (.snoopApply ep) → (s.core ep).dcache.snoops = (line, ty) :: l →
      exec .snoopApply s = .next (s.slabApply (epSlab ep) line)) ∧
    (∀ (held : LState) (t : Txn) (who : Nat × BitVec 16), s.ev = some (.snpresp ep ag line held none false false false who) → ag ≠ 256 → h.txns.find? (fun t => t.waiting.contains (ag, line)) = some t →
      t.victim = none →
      let t' := { t with
        waiting := t.waiting.erase (ag, line), answers := t.answers ++ [(ag, held)] }
      let u := s.setHome ep { h with txns := h.txns.map (fun x => if x == t then t' else x) }
      (t'.waiting ≠ [] → exec .snpresp s = .next u) ∧
      (t'.waiting = [] → exec .snpresp s = .next (((u.modHome ep (fun h => { h with txns := h.txns.erase t' })).homeFinish ep t').homeWake ep))) ∧
    (∀ (g : LState) (data : BitVec 1024) (poison : Bool), s.ev = some (.coherentData q g data poison) → q.agent ≠ 256 → hostlike q = false → epClass q.src ≠ 2 →
      exec .coherentData s = .next (s.fillLine q g data poison)) ∧
    (∀ dirty : Bool, s.ev = some (.homeAck q dirty) → q.agent ≠ 256 → hostlike q = false → epClass q.src ≠ 2 →
      (q.kind = .upg → exec .homeAck s = .next (s.upgraded q.src q.line)) ∧
      (q.kind = .wb → q.once = true → exec .homeAck s = .next (s.handleGiven q)) ∧
      (q.kind = .wb → q.once = false → exec .homeAck s = .next ((s.modCore q.src (fun c =>
        { c with dcache := { c.dcache with wbuf := c.dcache.wbuf.del q.line } })).askPend q.src q.line)) ∧
      (∀ k, q.kind = .cmo k → exec .homeAck s = .next (s.cmoAck q.src q.tag q.line dirty))) ∧
    (∀ l : CLine, s.ev = some (.lineDrop ep line) → (s.core ep).dcache.lines.find line = some l → (l.st = .e ∨ l.st = .s) →
      (s.core ep).dcache.pend.any (fun p => lineOf p.1.addr == line) = false →
      exec .lineDrop s = .next (s.modCore ep (fun c => { c with dcache := { c.dcache with lines := c.dcache.lines.del line } }))) ∧
    (∀ (id : BitVec 16), s.ev = some (.pageWalkDone ep id line) →
      let t := s.noteWalk ep (s.walk (epSlab ep) id line .read) id
      exec .pageWalkDone s = .next (t.modCore ep (fun c => { c with wins := c.wins.map (fun f =>
        if f.hold == .answer && f.asid == id && f.st != .free then { f with answer := some (f.answer.getD [] ++ [BitVec.ofNat 64 line]) } else f) })))

/-- For every state: COPY_READY marks the entry ready and sends the head of the FIFO; COPY_REQUEST at an engine with a
free slot opens a transfer with the next id in the lowest free slot and accepts it, and a core is deferred by a full
engine; COPY_ACCEPTANCE frees the FIFO entry, answers the transfer word and sends the next head; COPY_DEFERRAL keeps
the request at the head; TRANSFER_BEGIN of an active transfer begins it, after those with earlier identifiers, or
moves its next piece; SLOT_WRITE writes the bytes of the column and goes on; TRANSFER_FAULT logs the fault and wraps
the transfer up with status 2; TRANSFER_COMPLETE of a stopped transfer with nothing outstanding ends it. -/
def Obligations.TransferStepsComplete : Prop :=
  ∀ (s : State) (q : CopyReq) (ep n : Nat),
    (∀ x : Option Nat, s.ev = some (.copyReady ep x) →
      let mark := fun (e : CopyEnt) => if some e.id == x then { e with ready := true } else e
      exec .copyReady s = .next ((s.modCopy ep (fun c => { c with fifo := c.fifo.map mark })).sendHead ep x.isNone)) ∧
    (s.ev = some (.copyRequest q) →
      ((s.engine q.engine).xfers.length < 64 →
        let e := s.engine q.engine
        let slot := ((List.range 64).find? (fun k => !e.xfers.any (fun t => t.slot == k))).getD 0
        let t := Transfer.mk slot e.nextId false false q 0 [] [] [] 0 false none
        exec .copyRequest s = .next (((s.modEngine q.engine (fun e => { e with
          xfers := e.xfers ++ [t], nextId := (e.nextId + 1) % 2 ^ 48 })).send 1 q.engine q.src (.copyAcceptance q t.id)).engineKick q.engine)) ∧
      (64 ≤ (s.engine q.engine).xfers.length → epClass q.src ≠ 3 → exec .copyRequest s = .next ((s.modEngine q.engine (fun e => { e with
          deferred := e.deferred.filter (fun x => x != q.src) ++ [q.src] })).send 1 q.engine q.src (.copyDeferral q)))) ∧
    (s.ev = some (.copyAcceptance q n) → epClass q.src ≠ 3 →
      exec .copyAcceptance s = .next (((s.modCopy q.src (fun c => { c with fifo := c.fifo.filter (fun e => e.id != q.tag) })).answerWord
        q.src q.win q.fid q.uid (transferWord q.engine n)).sendHead q.src false)) ∧
    (s.ev = some (.copyDeferral q) → exec .copyDeferral s = .next (s.modCopy q.src (fun c =>
      { c with fifo := c.fifo.map (fun e => if e.id == q.tag then { e with sent := true } else e) }))) ∧
    (∀ t : Transfer, s.ev = some (.transferBegin ep n) → (s.engine ep).find n = some t → t.active = true → t.busy = false → t.stop = none →
      (t.dmap = [] → exec .transferBegin s = .next (if (s.engine ep).earlierWaits n then s.later (.transferBegin ep n) else s.beginXfer ep t)) ∧
      (t.dmap ≠ [] → t.begun = true → (cqSlot t.q.words = true → s.slotTurn ep t = true) → exec .transferBegin s = .next (s.xferRead ep t))) ∧
    (∀ (g slot col off : Nat) (bytes : List Byte), s.ev = some (.slotWrite ep n g slot col off bytes) →
      exec .slotWrite s = .next ((s.poke (micaKey g (slot * 0x8000 + 512 * col + off)) bytes).send 1 (geodeEp g) ep (.slotWriteAck ep n bytes.length))) ∧
    (∀ (m : Nat) (t : Transfer), s.ev = some (.slotWriteAck ep n m) → (s.engine ep).find n = some t → exec .slotWrite s = .next (s.advance ep t m)) ∧
    (∀ (kind addr : Nat) (t : Transfer), s.ev = some (.transferFault ep n kind addr) → (s.engine ep).find n = some t → t.stop = none → kind ≠ 6 →
      let i := (s.engine ep).logIdx
      exec .transferFault s = .next ((s.modEngine ep (fun e => { e with
        log := e.log.put i (FaultEnt.mk n kind addr t.off t.q.asid), logIdx := (i + 1) % 64 })).wrapUp ep { t with stop := some (2, kind * 4096 + i * 64) })) ∧
    (∀ (t : Transfer) (st d : Nat), s.ev = some (.transferComplete ep n) → (s.engine ep).find n = some t → t.stop = some (st, d) → t.busy = false →
      t.ends = 0 → exec .transferComplete s = .next (s.xferDone ep t st d))

/-- For every state: BEDROCK_REQUEST of groups of its ASID that neither seal nor open turns them, notes those that are
there already and answers 0, and its go word lets it complete once all have been; BEDROCK_ANSWER answers the frame;
GROUP_SEALED and GROUP_OPENED of a group with nothing left make it SEALED and OPEN and release what waits;
CARVEOUT_UPDATE sets the pair of a launch and the slice follows; CARVEOUT_SAMPLE moves the carve-out of a slice by at
most one way within its range and starts the counts again; ESCAPE_MOVE of a packet that must go on on escape makes its
next ring hop there when the channel admits it, and a move to escape is counted, and followed by its triple;
ROUTER_PACKET_DISCARD loses a packet, reports a machine check and completes what a lost answer was for;
FJARLINK_PACKET at a port leaves there, goes to the port of its route, is lost without a route, or is taken in at its
device; REPLAY_TIMEOUT with an arrival held diverges. The go word of a bedrock command and the sets sampled for the
carve-out (log entry 28), and the codes of machine checks (log entry 13), are the model's. -/
def Obligations.BedrockCarveoutAndPacketSteps : Prop :=
  ∀ (s : State) (q : BedReq) (sl g k : Nat),
    (let gs := maskGroups q.groups
      let turn := fun (b : BGroup) => if q.close && b.st == 0 then { b with st := 1 } else if !q.close && b.st == 2 then { b with st := 3 } else b;
      s.ev = some (.bedrockRequest q) →
      (q.go = true → exec .bedrockRequest s = .next ((s.modSlab q.slab (fun b => { b with
        bedops := b.bedops.map (fun x => if x.id == q.id then { x with go := true, rel := q.rel } else x) })).bedKick q.slab)) ∧
      (q.go = false → (q.fm = true ∨ gs.any (fun g => (s.group q.slab g).owner != q.asid) = false) →
        gs.any (fun g => (s.group q.slab g).st == 1 || (s.group q.slab g).st == 3) = false →
        let there := gs.filter (fun g => (s.group q.slab g).st == (if q.close then 2 else 0))
        let q' := { q with reached := BitVec.ofNat 16 (there.foldl (fun n g => n + 2 ^ g) 0) }
        let u := s.modSlab q.slab (fun b => { b with bedops := b.bedops ++ [q'] })
        exec .bedrockRequest s = .next ((gs.foldl (fun t g => (t.modGroup q.slab g turn).groupKick q.slab g) u).send 1 (bedCtl q.slab) q.src
          (.bedrockAnswer q 0)))) ∧
    (s.ev = some (.bedrockAnswer q k) → q.host = none → (s.frame q.src q.win).fid = q.fid →
      exec .bedrockAnswer s = .next (s.modFrame q.src q.win (fun f => { f with answer := some [BitVec.ofNat 64 k, BitVec.ofNat 64 q.id], waiting := false }))) ∧
    (s.ev = some (.groupSealed sl g) → (s.group sl g).st = 1 → (s.group sl g).begun = 0 → (s.group sl g).disabled = false →
      exec .groupSealed s = .next ((s.modGroup sl g (fun b => { b with st := 2 })).groupReached sl g true)) ∧
    (s.ev = some (.groupOpened sl g) → (s.group sl g).st = 3 → (s.group sl g).loads = 0 → (s.group sl g).disabled = false →
      exec .groupOpened s = .next ((s.modGroup sl g (fun b => { b with st := 0 })).groupReached sl g false)) ∧
    (∀ ep core id lo hi : Nat, s.ev = some (.carveoutUpdate ep core id lo hi) →
      exec .carveoutUpdate s = .next ((s.carveTo ep s.carveMin s.carveMax).send 1 ep core (.carveoutAck core))) ∧
    (s.ev = some (.carveoutSample k) → let h := s.home k
      let w := if 8 * h.pinMiss > 8 * h.ordMiss + (h.pinMiss + h.ordMiss) then h.carve + 1
        else if 8 * h.ordMiss > 8 * h.pinMiss + (h.pinMiss + h.ordMiss) then h.carve - 1 else h.carve
      exec .carveoutSample s = .next ((s.setHome k { h with
        carve := Nat.min h.carveMax (Nat.max h.carveMin w), lastPin := h.pinMiss, lastOrd := h.ordMiss, pinMiss := 0, ordMiss := 0 }).trimCarve k)) ∧
    (∀ m : Msg, s.net[k]? = some m → m.cls < 3 → m.ch ≠ .eject →
      (s.ev = some (.escapeMove k g) → m.rt = g → s.escapes m = true → s.atHead k m = true → s.canHop k m true = true →
        ∀ (dir rt : Nat) (x : Bool), m.hop true = .ring dir rt x →
        let on := match m.ch with | .link _ vc => vc == 2 | _ => false
        let t := { s with net := s.net.set k { m with since := s.now, wait := 0, rt := rt, ch := .link dir 2 } }
        exec .escapeMove s = .next (t.modGeode m.rt (fun y => { y with
          escxfer := if !on then (y.escxfer + 1) % 2 ^ 64 else y.escxfer
          follow := if !on && !y.follow.contains m.triple then y.follow ++ [m.triple] else y.follow }))) ∧
      (s.ev = some (.routerPacketDiscard k) →
        let t := ({ s with net := s.net.eraseIdx k } : State).machineCheckOf (s.header m).srcDev (s.header m).srcEp 7
        (∀ a, m.ev = .active a → exec .routerPacketDiscard s = .next (if epClass a.src = 3 then t.lostDelivery a else t)) ∧
        ((∀ a, m.ev ≠ .active a) → exec .routerPacketDiscard s = .next (if m.cls = 1 then t.lostResponse m.ev else t)))) ∧
    (∀ p : FjPacket, let d := fjTo s.srcDev p
      let here := fjPlace + g;
      s.ev = some (.fjarlinkPacket g p) → s.didv = true → fjCls p ≠ 3 →
      (d ≠ s.devId → s.fjPort d = some g → exec .fjarlinkPacket s = .next (s.out (.fjarlink g d p
        (s.wire (Msg.mk (fjCls p) here here (routerOf here) .eject 0 0 (.fjarlinkPacket g p)))))) ∧
      (∀ r, d ≠ s.devId → s.fjPort d = some r → r ≠ g →
        exec .fjarlinkPacket s = .next (s.send (fjCls p) here fjPlace (.fjarlinkPacket 31 p))) ∧
      (d ≠ s.devId → s.fjPort d = none → exec .fjarlinkPacket s = .next (s.fjLost g p)) ∧
      (d = s.devId → (∀ a b c, p ≠ .linkAnswer a b c) → exec .fjarlinkPacket s = .next (s.fjTake g p)) ∧
      (∀ a b c, d = s.devId → p = .linkAnswer a b c → exec .fjarlinkPacket s = .next (s.engineLink a b c))) ∧
    (s.ev = some (.replayTimeout k) → (s.ring k).mode = 2 → (s.ring k).rob ≠ [] → exec .replayTimeout s = .next (s.diverge k (portPerform k)))

/-- For every state and LIVE instance of a slot: GRAPH_START at the master reads a whole table and starts each owning
engine, at an engine takes its nodes and acknowledges, or tells of a broken table, at the master again sends the go
with the last acknowledgement, or ends the broken instance; GRAPH_GO readies the nodes without inputs; NODE_FIRE fires
the node at the head unless it must wait; TOKEN is delivered or refused and its target readied; NODE_DONE and
FIRING_COMPLETION end the work of a member; CANCEL_WALK_STEP cancels the next node; GANG_WATCHDOG withdraws an
unformed gang and faults its firing; EVENT_RESEND sends the waiting events; CENSUS_RESUBMIT sends the census again;
INSTANCE_END of an owner is counted, and the last makes the instance ENDING; an ENDING one whose lines are free ends. -/
def Obligations.GraphStepsComplete : Prop :=
  ∀ (s : State) (slot gen k n : Nat) (f : Firing),
    let i := s.inst slot
    let m := slotMaster slot
    let tell := fun (t : State) (phase : Nat) => t.send 0 (graphEp k) (graphEp m) (.graphStart slot gen k phase)
    (s.liveInst slot gen = true →
      (∀ t : Table, s.ev = some (.graphStart slot gen k 0) → s.readTable m i = some t →
        let own := sortBy (fun k => k) ((t.recs.map nSlab).eraseDups)
        exec .graphStart s = .next (own.foldl (fun u k => u.send 0 (graphEp m) (graphEp k) (.graphStart slot gen k 1))
          (s.modInst slot (fun i => { i with hdr := t.hdr, edges := t.edges, owners := own, acks := own, recs := t.recs.zipIdx.foldl (fun l r => l.put r.2 r.1) [] })))) ∧
      (∀ t : Table, s.ev = some (.graphStart slot gen k 1) → s.readTable k i = some t → s.tableOk k i t = true →
        let add := fun (i : Inst) (n : Nat) =>
          let i := { i with recs := i.recs.put n (t.nrec n) }
          match i.heldEnt (t.nrec n) n, i.nodes.find n with
          | some e, none => { i with nodes := i.nodes.put n e }
          | _, _ => i
        let mine := (List.range t.recs.length).filter (fun n => nSlab (t.nrec n) == k)
        exec .graphStart s = .next (tell (s.modInst slot (fun i => mine.foldl add i)) 2)) ∧
      (∀ t : Table, s.ev = some (.graphStart slot gen k 1) → s.readTable k i = some t → s.tableOk k i t = false →
        exec .graphStart s = .next (tell s 3)) ∧
      (s.ev = some (.graphStart slot gen k 2) →
        let u := s.modInst slot (fun i => { i with acks := i.acks.erase k })
        exec .graphStart s = .next (if (u.inst slot).acks.isEmpty then u.goInst slot gen else u)) ∧
      (s.ev = some (.graphStart slot gen k 3) →
        exec .graphStart s = .next ((s.modInst slot (fun i => { i with broken := true, st := 2, prevArea := if i.fresh && !i.went then none else i.prevArea })).laterOnce (.instanceEnd slot gen none))) ∧
      (s.ev = some (.graphStart slot gen k 4) → exec .graphStart s = .next (s.goInst slot gen))) ∧
    (i.fresh = false → s.goInst slot gen = i.owners.foldl (fun u k => u.send 0 (graphEp m) (graphEp k) (.graphGo slot gen k))
      (s.modInst slot (fun i => { i with acks := i.owners, went := true }))) ∧
    (s.ev = some (.graphGo slot gen k) → s.liveInst slot gen = true →
      exec .graphGo s = .next ((s.tryReady slot ((List.range i.nn).filter (fun n =>
        nSlab (i.nrec n) == k && nPred (i.nrec n) == 0 && nSin (i.nrec n) == 0))).checkEnd slot)) ∧
    (∀ l : List (Nat × Nat × Nat), s.ev = some (.nodeFire k) → (s.graph k).ready = (slot, gen, n) :: l → s.liveInst slot gen = true →
      (i.ent n).st = 1 → s.mustWait slot n = false →
      let t := s.modGraph k (fun g => { g with ready := l })
      exec .nodeFire s = .next ((if l.isEmpty then t else t.laterOnce (.nodeFire k)).fire slot n)) ∧
    (∀ e : Word, s.ev = some (.token k slot gen e none) → s.liveInst slot gen = true →
      exec .token s = .next ((s.deliver slot e).2.tryReady slot [eTarget e])) ∧
    (∀ who status detail : Nat, (s.ev = some (.nodeDone f who status detail) → exec .nodeDone s = .next (s.memberDone f status detail)) ∧
      (s.ev = some (.firingCompletion f status detail) → exec .firingCompletion s
        = .next ((s.graphRecv (epSlab f.engine) (s.inst f.slot).asid).memberDone f status detail))) ∧
    (∀ (l level seen : List Nat) (cone ended : Bool), s.liveInst slot gen = true →
      let own := nSlab (i.nrec n)
      let t := if own = k then (s.modEnt slot n (fun e => cancelEnt e ended)).checkEnd slot
        else s.send 0 (graphEp k) (graphEp own) (.cancelWalkStep slot gen own [n] [] [] false ended)
      let next := (sortBy (fun n => n) ((level.flatMap (fun n => (i.succs n).map eTarget)).eraseDups)).filter (fun n => !seen.contains n)
      (s.ev = some (.cancelWalkStep slot gen k (n :: l) level seen cone ended) →
        (l ≠ [] ∨ cone = true → exec .cancelWalkStep s = .next (t.later (.cancelWalkStep slot gen k l level seen cone ended))) ∧
        (l = [] → cone = false → exec .cancelWalkStep s = .next t)) ∧
      (s.ev = some (.cancelWalkStep slot gen k [] level seen cone ended) →
        exec .cancelWalkStep s = .next (if cone = false ∨ next = [] then s
          else s.later (.cancelWalkStep slot gen k next next (seen ++ next) true ended)))) ∧
    (let j := s.inst f.slot
      let e := j.ent f.node
      let r := j.nrec f.node
      let g := nArg r;
      s.ev = some (.gangWatchdog f) → s.liveInst f.slot f.gen = true → nKind r = 2 → e.st = 2 → e.tries = f.tries → e.formed = false → e.fault = none →
      fld (j.hdr.getD 4 0) 0 32 ≠ 0 →
      let hit := (s.arr g).regs.filter (fun x => x.level.toNat == fld (nPay r 2) 0 3 && x.asid == j.asid)
      let t := s.modGraph (nSlab r) (fun g => { g with wdogcnt := (g.wdogcnt + 1) % 2 ^ 64 })
      exec .gangWatchdog s = .next (((t.nodeFault f.slot f.node 2 0xF000).withdraw g hit).arrayKick g)) ∧
    (s.ev = some (.eventResend k) → exec .eventResend s = .next (s.sendNodeEvents k)) ∧
    (∀ q : Solicit, s.ev = some (.censusResubmit q) → q.fire = some f → s.liveInst f.slot f.gen = true →
      exec .censusResubmit s = .next (s.send 0 f.engine censusRoot (.solicitRequest q))) ∧
    (s.ev = some (.instanceEnd slot gen (some k)) → s.liveInst slot gen = true → i.broken = false →
      exec .instanceEnd s = .next (if i.acks.erase k != [] then s.modInst slot (fun i => { i with acks := i.acks.erase k })
        else (s.modInst slot (fun i => { i with acks := [], st := 2 })).later (.instanceEnd slot gen none))) ∧
    (s.ev = some (.instanceEnd slot gen none) → i.gen = gen → i.st = 2 → s.endFree slot = true →
      exec .instanceEnd s = .next (s.endInst slot))

/-- For every state: DEQUE_PUSH at a deque with room enters the child, is acknowledged when it comes from elsewhere, and
selects; JOIN_MESSAGE arms a counter, or folds its contribution into one that is not FREE and of its ASID, and ends it
when it may; STEAL_ATTEMPT of a core that steals starts on its victims; STEAL_REQUEST grants the oldest entry of the
highest PRIO that may go, or says EMPTY; STEAL_GRANT enters the entry in the deque of the thief, or the next victim is
asked; TERMINATION_WAVE spreads from a root and is answered by a leaf with its idle bits and counts; WAVE_ANSWER is
combined, and the last goes up or decides the slots; TERMINATION_REPORT tells the front end. How a child is placed,
counted and granted (log entry 31), and the waves and the freeing of slots (log entry 32), are the model's readings. -/
def Obligations.SpawnStepsComplete : Prop :=
  ∀ (s : State) (ep v : Nat) (c : Child) (m : JoinMsg),
    (s.ev = some (.dequePush ep c) → (s.core ep).refuses = false → (s.core ep).spawn.full = false →
      let t := if c.rel.srcEp == ep then s else (s.countRecv ep c.rel.asid).send 1 ep c.rel.srcEp (.pushAck c.rel)
      exec .dequePush s = .next ((t.dequeAdd ep c).select ep)) ∧
    (∀ r : Release, s.ev = some (.pushAck r) → exec .dequePush s = .next (if epClass r.srcEp == 3 then s.unbusy r else s)) ∧
    (let x := (s.core m.core).join m.idx;
      s.ev = some (.joinMessage m) → x.asid = m.asid →
      (m.arm = true → x.st = 2 → exec .joinMessage s = .next ((s.modJoin m.core m.idx (fun x => { x with rdy := true })).joinEnd m.core m.idx)) ∧
      (m.arm = false → x.st ≠ 0 → (s.core m.core).refuses = false → exec .joinMessage s = .next (((s.countRecv m.core m.asid).modJoin m.core m.idx (fun x => { x with
        pending := x.pending - 1
        value := (match m.value with | some v => foldValue x.op x.value v | none => x.value)
        flt := x.flt || m.flt })).joinEnd m.core m.idx))) ∧
    (s.ev = some (.stealAttempt ep) → s.steals ep = true → (s.core ep).spawn.victims = [] →
      let t := s.modSpawn ep (fun u => { u with attempts := Nat.min 255 (u.attempts + 1), victims := u.victimList ep })
      exec .stealAttempt s = .next (t.stealNext ep ((t.core ep).spawn.victims.length + 1))) ∧
    (let z := s.dequeLost v
      let l := (z.core v).spawn.deque
      let ok := fun (d : Child × Option Nat) => childStealable d.1 v ep
      let p := (l.filter ok).foldl (fun n d => Nat.max n d.1.rel.prio.toNat) 0
      let hit := l.findIdx? (fun d => ok d && d.1.rel.prio.toNat == p);
      s.ev = some (.stealRequest ep v) →
      (hit = none → exec .stealRequest s = .next (z.send 1 v ep (.stealGrant ep v none))) ∧
      (∀ k d, hit = some k → l[k]? = some d →
        let t := (z.modSpawn v (fun u => { u with deque := u.deque.eraseIdx k, granted := (u.granted + 1) % 2 ^ 32 })).dequeFill v
        exec .stealRequest s = .next ((t.countSent v (z.childAt v d).rel.asid).send 1 v ep (.stealGrant ep v (some (z.childAt v d)))))) ∧
    (s.ev = some (.stealGrant ep v (some c)) → (s.core ep).spawn.full = false →
      exec .stealGrant s = .next ((((s.countRecv ep c.rel.asid).modSpawn ep (fun u =>
        { u with victims := [], received := (u.received + 1) % 2 ^ 32 })).dequeAdd ep c).select ep)) ∧
    (s.ev = some (.stealGrant ep v none) → s.steals ep = true → exec .stealGrant s = .next ((s.modSpawn ep (fun u =>
      { u with victims := u.victims.drop 1 })).stealNext ep ((s.core ep).spawn.victims.length + 1))) ∧
    (let start := fun (kids : List Nat) => kids.foldl (fun t k => t.send 0 ep k (.terminationWave k))
        (s.setWave ep (Wave.mk kids (BitVec.allOnes 16) (List.replicate 16 0) (List.replicate 16 0)));
      s.ev = some (.terminationWave ep) →
      (ep = termRoot → s.term.waves.find ep = none → exec .terminationWave s = .next (start ((List.range 4).map slabTerm))) ∧
      (ep ≠ termRoot → ep = slabTerm (epSlab ep) → exec .terminationWave s = .next (start (slabLeaves (epSlab ep)))) ∧
      (ep ≠ termRoot → ep ≠ slabTerm (epSlab ep) → let up := slabTerm (epSlab ep)
        exec .terminationWave s = .next (s.send 1 ep up (.waveAnswer up ep (s.idleBits ep) (s.leafAt ep).sent.toList (s.leafAt ep).recv.toList)))) ∧
    (∀ (idle : BitVec 16) (sent recv : List Nat) (w : Wave), s.ev = some (.waveAnswer ep v idle sent recv) → s.term.waves.find ep = some w → v ∈ w.left →
      let w' := Wave.mk (w.left.erase v) (w.idle &&& idle) (addCounts w.sent sent) (addCounts w.recv recv)
      let t : State := { s with term := { s.term with waves := s.term.waves.del ep } }
      (w'.left ≠ [] → exec .waveAnswer s = .next (s.setWave ep w')) ∧
      (w'.left = [] → ep = termRoot → exec .waveAnswer s = .next ((List.range 16).foldl (fun t k => t.slotWave w' k) t)) ∧
      (w'.left = [] → ep ≠ termRoot → exec .waveAnswer s = .next (t.send 1 ep termRoot (.waveAnswer termRoot ep w'.idle w'.sent w'.recv)))) ∧
    (s.ev = some (.terminationReport v) → let t := vget TSlot.free s.term.slots v
      exec .terminationReport s = .next ((s.hostDone t.host (t.fault.getD (0, 0)).1 (t.fault.getD (0, 0)).2).later (slotFreeWrite v)))

/-- For every state and message whose destination is running and takes it: with an OPEN handler of the ASID (or, when the
handler named is EMPTY, handler 0) and a free ring slot, ACTIVE takes the slot at HEAD, writes the control word and
the body into it, makes a record of the handler with the first four argument words, counts the arrival when the source
is of the same device, answers DELIVERY with 0 (2 for the fallback) and lets the release arrive; with the slot busy it
answers 1 and writes nothing. HANDLER_COMMIT of a QUIESCING entry makes the staged kind its kind and answers the
waiters. HANDLE_ENTRY_READ gives a window that waits for it the entry of the handle table, from the slab's cache when
that holds it. Which handler a task sees, and the counts of arrivals, are the model's readings (log entry 33). -/
def Obligations.MessageArrivalsAndHandleReads : Prop :=
  ∀ (s : State) (m : ActiveMsg) (ep h win : Nat) (asid : BitVec 16) (index : Nat),
    (let c := s.core m.dst
      let h0 := fld m.control 0 6
      let h := if (c.handler h0).state = 0 then 0 else h0
      let st := if (c.handler h0).state = 0 then 2 else 0
      let e := c.handler h
      let k := e.head;
      s.ev = some (.active m) → c.portRefuses = false → c.code ≠ 3 → c.code ≠ 4 → c.code ≠ 5 → e.state ≠ 0 →
      (fld e.kind 0 3 < 6 → h ≠ 0 → m.asid = e.asid) →
      (e.busy.getLsbD k = true → exec .active s = .next (s.respondMessage m 1)) ∧
      (e.busy.getLsbD k = false →
        let off := e.rxbase + 512 * k
        let u := (s.setHandler m.dst h { e with busy := e.busy ||| BitVec.ofNat 64 (2 ^ k), head := (k + 1) % 2 ^ e.rxlog2 }).lmWrite m.dst off
          ((m.control :: m.body).flatMap (fun w => toBytes 8 w.toNat))
        let arg := fun (i : Nat) => m.body.getD i 0
        let words := [e.kind, BitVec.ofNat 64 (e.asid.toNat * 2 ^ 48), BitVec.ofNat 64 off, m.control, arg 0, arg 1, arg 2, arg 3]
        let r := Release.mk m.srcDev m.src 0 m.dst none (BitVec.ofNat 3 (fld e.kind 0 3)) e.asid 0 0 (BitVec.ofNat 16 h) m.fm
        let (en, v) := u.mkEntry m.dst r words (some (h, k)) (some (m.srcDev, m.src, fld m.control 8 6))
        exec .active s = .next (((if m.srcDev == v.srcDev then v.countRecv m.dst m.asid else v).respondMessage m st).later (.releaseArrival m.dst en)))) ∧
    (let e := (s.core ep).handler h;
      s.ev = some (.handlerCommit ep h) → e.state = 2 →
      exec .handlerCommit s = .next ((s.setHandler ep h { e with kind := e.staged, asid := handlerAsid e.staged e.asid, state := 1, staged := 0, waiters := [] }).answerWaiters ep e.waiters 0)) ∧
    (let sl := epSlab ep
      let give := fun (t : State) (ws : List Word) => t.modFrame ep win (fun f =>
        if f.hold == .answer && f.asid == asid then { f with answer := some (BitVec.ofNat 64 index :: ws) } else f)
      let hit := (s.slab sl).hcache.find? (fun e => e.1 == asid && e.2.1 == index);
      s.ev = some (.handleEntryRead ep win asid index) →
      (∀ e, hit = some e → exec .handleEntryRead s = .next (give s e.2.2)) ∧
      (hit = none →
        let ws := s.paWords (s.entryAddr asid index) 4
        let t := s.modSlab sl (fun b => let l := b.hcache ++ [(asid, index, ws)]; { b with hcache := l.drop (l.length - 1024) })
        exec .handleEntryRead s = .next (give t ws)))

/-- For every state: a submission takes the free entry of lowest number (STATE TRAINING, OPEN or none) or, with the socket
FENCED or absent, completes with 20 and REASON; JOB_DELIVERY delivers the oldest job of the highest PRIO p when fewer
than CREDITS - (7 - p) are held; a matching answer clears the pre-emption deadline; a completion of a DELIVERED job
ends it by its GST, a cancelled one with 1; a translation that succeeds grants the page, one that fails is logged and
answered; an answer to an invalidation frees the grant; a poison report poisons its line; a well-formed identity opens
a TRAINING socket; the timeouts fence it; ten reports above CAP send THROTTLE. JOB_DELIVERY's reading of the credits
and the ten reports per 1 ms are those of the model's log. -/
def Obligations.GuestStepsComplete : Prop :=
  ∀ (s : State) (j : GuestJob) (job gst code grant level line reason watts : Nat) (va : Word),
    let g := s.guest
    (s.ev = some (.guestSubmission j) →
      (g.state = 3 ∨ g.state = 4 → exec .guestSubmission s = .next ((s.fireDone socketEp j.fire 20 g.reason).releaseSucc socketEp j.rel 20 g.reason)) ∧
      (∀ e, g.state ≠ 3 → g.state ≠ 4 → (List.range 256).find? (fun e => !g.jobs.any (fun x => x.entry == e)) = some e →
        let k := g.reuses.get 0 e
        let j := { j with seq := g.seq, entry := e, reuse := k, st := 1 }
        exec .guestSubmission s = .next ((s.modGuest (fun g => { g with
          jobs := g.jobs ++ [j], reuses := g.reuses.put e ((k + 1) % 256), seq := g.seq + 1 })).laterOnce .jobDelivery))) ∧
    (let s1 := s.modGuest (fun g => { g with jobs := g.jobs.filter (fun j => j.st != 3) })
      let g := s1.guest
      let q := g.jobs.filter (fun j => j.st == 1)
      let p := q.foldl (fun n j => Nat.max n j.prio) 0
      let held := g.jobs.filter (fun j => j.st == 2);
      s.ev = some .jobDelivery → g.state = 2 → q.find? (fun j => j.prio == p) = some j → held.length + (7 - p) < g.credits →
      let u := (s1.modGuest (fun g => { g with jobs := g.jobs.map (fun x => if x.seq == j.seq then { x with st := 2 } else x) })).out (.guestJob (deliveryWords j))
      let t := if held.any (fun x => x.prio < p) then u.guestPreempt p else u
      exec .jobDelivery s = .next (if t.guest.jobs.any (fun x => x.st == 1) then t.laterOnce .jobDelivery else t)) ∧
    (s.ev = some (.preemptionAnswer level) → g.state = 2 → g.preempt = some level →
      exec .preemptionAnswer s = .next (s.modGuest (fun g => { g with preempt := none }))) ∧
    (s.ev = some (.guestCompletion job gst code va) → g.state = 2 → g.jobs.find? (fun j => j.st == 2 && jobId j == job) = some j → gst < 3 →
      (j.cancelled = true → exec .guestCompletion s = .next (s.jobDone j 1 0)) ∧
      (j.cancelled = false → j.faulted = false → gst = 0 → exec .guestCompletion s = .next (s.jobDone j 0 0)) ∧
      (j.cancelled = false → j.faulted = false → gst = 2 → exec .guestCompletion s = .next (s.jobDone j 21 (code % 65536))) ∧
      (∀ f, j.cancelled = false → gst = 1 → g.faults.find? (fun f => f.2.job == job && f.2.va == va) = some f →
        exec .guestCompletion s = .next (s.jobDone j 2 (f.2.kind * 2 ^ 12 + f.1 * 2 ^ 6)))) ∧
    (∀ (write atomic : Bool),
      let w := s.walk 3 j.asid va.toNat (if atomic then .atomic else if write then .write else .read)
      let t := s.modSlab 3 (fun b => b.noteWalk j.asid w.read);
      s.ev = some (.translationRequest job va write atomic) → g.state = 2 → g.jobs.find? (fun j => j.st == 2 && jobId j == job) = some j →
      g.grants.length < 4096 →
      (∀ (pa : Nat) (ns : Bool) (e : TlbEntry), w.res = .ok pa ns → w.leaf = some e → (write = true → bitOf e.pte 2 = true) →
        let idx := ((List.range 4096).find? (fun k => !t.guest.grants.any (fun g => g.idx == k))).getD 0
        let x := Grant.mk idx e.page (fld e.pte 61 3) (pa / 2 ^ e.bits * 2 ^ e.bits) (bitOf e.pte 2) (bitOf e.pte 3) j.asid false ns
        exec .translationRequest s = .next ((t.modGuest (fun y => { y with grants := y.grants ++ [x] })).out (.guestGrant job x))) ∧
      (w.res = .unpopulated → let u := (t.guestLog (GuestFault.mk job 2 j.asid va)).2.modGuest (fun g => { g with
          jobs := g.jobs.map (fun x => if x.seq == j.seq then { x with faulted := true } else x) })
        exec .translationRequest s = .next (u.out (.guestFault job 2 va)))) ∧
    (s.ev = some (.invalidationAnswer grant) → g.state = 2 → g.grants.any (fun x => x.idx == grant && x.inval) = true →
      let t := s.modGuest (fun g => { g with
        grants := g.grants.filter (fun x => x.idx != grant), tlbops := g.tlbops.map (fun o => (o.1, o.2.erase grant)) })
      let done := t.guest.tlbops.filter (fun o => o.2.isEmpty)
      exec .invalidationAnswer s = .next (done.foldl (fun t o => t.later (.sawDone o.1 0))
        (t.modGuest (fun g => { g with tlbops := g.tlbops.filter (fun o => !o.2.isEmpty) })))) ∧
    (let l := lineOf line
      let h := homeOf l;
      s.ev = some (.poisonReport line) → g.state = 2 → paPopulated l = true →
      exec .poisonReport s = .next ((s.homePut h l (s.homeLine l) true false false).machineCheck h 7)) ∧
    (∀ vendor part credits modules : Nat, s.ev = some (.guestIdentity vendor part credits modules watts) → g.state = 1 →
      8 ≤ credits → credits ≤ 64 → 1 ≤ modules → modules ≤ 4 → watts ≤ 150 →
      (s.fe.boot = 2 → exec .guestIdentity s = .next (((s.modGuest (fun g => { g with
        state := 2, modules := modules, vendor := vendor % 65536, part := part % 65536, credits := credits, jobcred := credits, watts := watts
        bmods := modules })).bootReady).laterOnce .jobDelivery)) ∧
      (s.fe.boot ≠ 2 → exec .guestIdentity s = .next (((s.modGuest (fun g => { g with
        state := 2, modules := modules, credits := credits })).bootReady).laterOnce .jobDelivery))) ∧
    (∀ modules, s.ev = some (.trainingTimeout modules) → g.state = 1 → exec .trainingTimeout s
      = .next (((s.modGuest (fun g => { g with bmods := if s.fe.boot == 2 then Nat.min 4 modules else g.bmods })).fence 9).bootReady)) ∧
    (s.ev = some (.dutyTimeout reason) → 0 < reason → g.state = 2 → s.dutyOpen reason = true → exec .dutyTimeout s = .next (s.fence reason)) ∧
    (let l := (watts % 256 :: g.draws).take 10
      let high : Bool := l.length == 10 && 10 * g.cap < l.foldl (fun n x => n + x) 0
      let t := s.modGuest (fun g => { g with draws := l, hot := high && g.state == 2 });
      s.ev = some (.powerReport watts) →
      exec .powerReport s = .next (if high && g.state == 2 && !g.hot then t.out .guestThrottle else t))

/-- For every state and queue q: a TAIL or CHEAD write of a queue that is not DISABLED and leaves a legal distance sets
the pointer and tells the front end, any other is counted in DBERR; a doorbell event moves the queue's state; on
QUEUE_CONTROL_EVENT of a write of EN the front end acts; QUEUE_ENABLE sets EN and makes a DISABLED queue IDLE after
boot, with every counter 0; QUEUE_DESTROY clears EN; QUEUE_READ of a MAPPED queue with an announced packet asks the
home for it, and its words, sent on, begin the dispatch unless a rule holds it, or complete it with 32 when its KIND
is reserved; a completion asks the homes to write its entry; the last answer of such accesses completes what they were
for: a BAR2 read answers its bytes, a packet goes to its core, a SIGNAL completes, a completion entry sends its MSI-X
message, counts in DONE and is acknowledged, and the front end goes on; REGISTER_STATE_UPDATE shows the state; BAR2
accesses of populated memory are ONCE accesses at the homes, others are counted; QUANTUM_EXPIRY takes slots back;
PACKET_PREFETCH ends in a next state. The order of service (log entry 41), the core that serves a queue (log entry 76)
and EN of a queue that is being destroyed (log entry 83) are the model's choices. -/
def Obligations.DoorbellsAndQueuesComplete : Prop :=
  ∀ (s : State) (q packet status detail addr n off : Nat) (v : BitVec 32) (c : Bool) (w0 w : Word) (bytes : List Byte),
    let x := s.queue q
    let legalTail : Prop := x.vState ≠ 0 ∧ ahead v.toNat x.written ≤ 2 ^ x.log2 - 1
    let legalHead : Prop := x.vState ≠ 0 ∧ ahead v.toNat x.chead ≤ ahead x.written x.chead
    let counted := s.modFe (fun f => { f with dberr := (f.dberr + 1) % 2 ^ 32 })
    (s.ev = some (.tailDoorbell q v) →
      (legalTail → exec .tailDoorbell s = .next ((s.modQueue q (fun x => { x with tail := v.toNat })).send 0 hostEp (s.queueCore x.vSlot)
        (.doorbellEvent q false (BitVec.ofNat 32 v.toNat)))) ∧
      (¬legalTail → exec .tailDoorbell s = .next counted)) ∧
    (s.ev = some (.cheadDoorbell q v) →
      (legalHead → exec .cheadDoorbell s = .next ((s.modQueue q (fun x => { x with chead := v.toNat })).send 0 hostEp (s.queueCore x.vSlot)
        (.doorbellEvent q true (BitVec.ofNat 32 v.toNat)))) ∧
      (¬legalHead → exec .cheadDoorbell s = .next counted)) ∧
    (s.ev = some (.doorbellEvent q c v) → exec .doorbellEvent s = .next (s.queueStep q)) ∧
    (s.ev = some (.queueControlEvent q 16 w) →
      exec .queueControlEvent s = .next (if bitOf w 63 then s.queueEnabled q else s.queueStep q)) ∧
    (let t := s.modQueue q (fun x => { x with en := true });
      s.ev = some (.queueEnable q) → x.en = true ∨ x.vState = 0 → s.fe.boot = 3 → (t.queue q).st = 0 →
      exec .queueEnable s = .next ((t.modQueue q (fun x => { x with
        st := 1, done := 0, next := 0, tail := 0, chead := 0, written := 0, inflight := [], cur := none, waits := none, evict := false })).feAsk q
        (.registerStateUpdate q))) ∧
    (s.ev = some (.queueDestroy q) → exec .queueDestroy s = .next ((s.modQueue q (fun x => { x with en := false })).queueStep q)) ∧
    (s.ev = some (.queueRead q) → x.st = 3 → x.cur = none → s.reading q = false → x.undispatched ≠ 0 → x.en = true → x.evict = false →
      exec .queueRead s = .next (s.onceBegin (s.queueCore x.slot) (.packet q x.next) (onceReads hostEp 0 (x.qbase.toNat + 64 * (x.next % 2 ^ x.log2)) 64 false false))) ∧
    (∀ (w : List Word) (bad : Bool), s.ev = some (.queueData q x.next w bad) → x.st = 3 → x.cur = none →
      let t := s.modQueue q (fun x => { x with
        cur := some (x.next, w), next := (x.next + 1) % 2 ^ 32, inflight := x.inflight ++ [(x.next, w.getD 0 0)] })
      (s.pkHeld x w = true → x.en = true → x.evict = false → exec .queueRead s = .next s) ∧
      (∀ e, s.pkHeld x w = false → pkEvent q (pkKind (w.getD 0 0)) = some e → exec .queueRead s = .next (t.later e)) ∧
      (s.pkHeld x w = false → pkEvent q (pkKind (w.getD 0 0)) = none →
        exec .queueRead s = .next (((t.modQueue q (fun x => { x with cur := none })).hostDone (some (q, x.next)) 32 0).queueStep q))) ∧
    (let gone : Bool := (pkKind w0 == 1 || pkKind w0 == 2) && s.replayDiverged x.asid
      let st := if gone then 34 else status
      let dt := if gone then 0 else detail
      let entry := toBytes 8 (st * 2 ^ 48 + dt % 2 ^ 16 * 2 ^ 32 + packet) ++ toBytes 8 ((1 - x.written / 2 ^ x.log2 % 2) * 2 ^ 63 + fld w0 0 32);
      s.ev = some (.completionWrite q packet status detail) → x.inflight.find? (fun p => p.1 == packet) = some (packet, w0) →
      exec .completionWrite s = .next (s.onceBegin s.fe.fecore (.completion q packet)
        (onceWrites hostEp 0 (x.cbase.toNat + 16 * (x.written % 2 ^ x.log2)) entry false false))) ∧
    (∀ (r : HomeReq) (o : OnceOp) (dirty : Bool), s.ev = some (.homeAck r dirty) → r.agent ≠ 256 → hostlike r = true →
      s.once.find? (fun o => o.id == r.tag) = some o →
      let u := { s with once := s.once.filter (fun x => x.id != o.id) }
      (∀ r' l, o.todo = r' :: l → exec .homeAck s =
        .next (({ s with once := s.once.map (fun x => if x.id == o.id then { o with todo := l } else x) } : State).askHome r')) ∧
      (o.todo = [] → o.use = .hostWrite → exec .homeAck s = .next u) ∧
      (o.todo = [] → o.use = .signal q packet → exec .homeAck s = .next (u.hostDone (some (q, packet)) 0 0)) ∧
      (let t := u.setLaunches (u.launches.filter (fun l => l.id != launchId q packet))
        let t := if x.inten then t.msix x.vec else t
        let y := t.modQueue q (fun x => { x with
          inflight := x.inflight.filter (fun p => p.1 != packet), written := (x.written + 1) % 2 ^ 32, done := (x.done + 1) % 2 ^ 32 });
        o.todo = [] → o.use = .completion q packet → exec .homeAck s = .next (y.send 1 hostEp o.owner (.completionAck q)))) ∧
    (∀ (r : HomeReq) (o : OnceOp) (d : BitVec 1024), s.ev = some (.coherentData r .i d false) → r.agent ≠ 256 → hostlike r = true →
      s.once.find? (fun o => o.id == r.tag) = some o → o.todo = [] → o.bad = false →
      let a := s.slabApply (routerOf r.src / 128) r.line
      let u := { a with once := a.once.filter (fun x => x.id != o.id) }
      let got := o.bytes ++ lineBytes d r.mask.toNat r.limit
      a.once = s.once →
      (o.use = .hostRead addr → exec .coherentData s = .next (u.out (.bar2Data addr got))) ∧
      (o.use = .packet q packet → exec .coherentData s = .next (u.send 1 hostEp o.owner
        (.queueData q packet ((List.range 8).map (fun k => BitVec.ofNat 64 (ofBytes ((got.drop (8 * k)).take 8)))) false)))) ∧
    (s.ev = some (.completionAck q) → exec .completionWrite s = .next (((s.feAsk q (.registerStateUpdate q)).wakeWaits).queueStep q)) ∧
    (s.ev = some (.registerStateUpdate q) →
      exec .registerStateUpdate s = .next (((s.modQueue q (fun x => { x with vState := x.st, vSlot := x.slot, vDone := x.done })).modFe
        (fun f => { f with vActive := (f.queues.filter (fun p => p.2.st == 2 || p.2.st == 3)).length })).queueStep q)) ∧
    (s.ev = some (.bar2Read addr n) →
      (rangePopulated addr n = true → n ≠ 0 → exec .bar2Read s = .next (s.onceBegin hostBus (.hostRead addr) (onceReads hostEp 0 addr n false false))) ∧
      (rangePopulated addr n = true → n = 0 → exec .bar2Read s = .next (s.out (.bar2Data addr []))) ∧
      (rangePopulated addr n = false → exec .bar2Read s = .next ((s.modFe (fun f => { f with bar2err := (f.bar2err + 1) % 2 ^ 32 })).out
        (.bar2Data addr (List.replicate n 0xFF))))) ∧
    (s.ev = some (.bar2Write addr bytes) →
      (rangePopulated addr bytes.length = true → exec .bar2Write s = .next (s.onceBegin hostBus .hostWrite (onceWrites hostEp 0 addr bytes false false))) ∧
      (rangePopulated addr bytes.length = false →
        exec .bar2Write s = .next (s.modFe (fun f => { f with bar2err := (f.bar2err + 1) % 2 ^ 32 })))) ∧
    (let held := sortBy (fun p => p.2.mapSeq) (s.fe.queues.filter (fun p => p.2.st == 3 && p.2.epoch < s.fe.epoch))
      let take := held.take s.fe.waiting.length
      let t := take.foldl (fun t p => t.modQueue p.1 (fun x => { x with evict := true })) s
      let u := take.foldl (fun t p => if (t.queue p.1).cur.isSome || t.reading p.1 then t else t.leaveSlot p.1 2) t;
      s.ev = some .quantumExpiry → exec .quantumExpiry s = .next (u.modFe (fun f => { f with epoch := f.epoch + 1 }))) ∧
    (let place := fun (k : Nat) => x.qbase.toNat + 64 * ((x.next + k) % 2 ^ x.log2)
      let w := s.paWords (place off) 8;
      s.ev = some (.packetPrefetch q off) → x.st = 3 → off < 2 → off < x.undispatched → pkOk w = true → s.asidOk x.asid = true →
      s.peekPoison (lineOf (place off)) = false → s.pkHeld x (s.paWords (place 0) 8) = true →
      (pkKind (w.getD 0 0) = 1 → s.rootTarget (fld (w.getD 2 0) 48 14) = true →
        exec .packetPrefetch s =
          .next ((s.fillCode (fld (w.getD 2 0) 48 14) x.asid (kdescOf (w.getD 1 0))).2.readStart (fld (w.getD 2 0) 48 14) x.asid (w.getD 1 0)).2) ∧
      (4 ≤ pkKind (w.getD 0 0) → exec .packetPrefetch s = .next s))

/-- For every state and queue whose packet in dispatch is (n, w): exec answers a next state for each of the eight kinds.
With a reserved field set the packet completes with 32 and DETAIL 0; with no entry of its ASID, with 33 (SWAP_ASID
apart). Otherwise LAUNCH_ROOT, while no termination slot is FREE, a live slot holds the ASID or the core of FEROUTE
has no record free, is held again; else, with a legal pair and a target that may run it, it takes the FREE slot and
the record of lowest number, sets TMAP of every leaf, writes the root record in the front-end core's record area and
sends its release; LAUNCH_GRAPH takes its FREE slot and starts its master; COPY goes to its engine; SIGNAL stores
VALUE; WAIT_QUEUE waits; BEDROCK_OPEN and BEDROCK_SEAL go to their controller, or complete with 32 for no group or a
disabled one; SWAP_ASID sets the ASID. Each then lets the queue go on. The lowest record and the wait for one, and
what handles SIGNAL takes (log entry 77), and the order of service (log entry 41) are the model's choices. -/
def Obligations.PacketsAreHandedOver : Prop :=
  ∀ (s : State) (q n : Nat) (w : List Word),
    let x := s.queue q
    let t := s.modQueue q (fun x => { x with cur := none })
    let k := pkKind (w.getD 0 0)
    let done := fun (u : State) (st : Nat) => u.hostDone (some (q, n)) st 0
    let kinds : List (Nat × Instr × Event) := [(1, .launchRoot, .launchRoot q), (2, .launchGraph, .launchGraph q), (3, .queueCopy, .queueCopy q), (4, .signal, .signal q),
      (5, .waitQueue, .waitQueue q), (6, .bedrockOpen, .bedrockOpen q), (7, .bedrockSeal, .bedrockSeal q), (8, .swapAsid, .swapAsid q)];
    x.cur = some (n, w) →
    (∀ p ∈ kinds, s.ev = some p.2.2 → k = p.1 →
      (pkOk w = false → exec p.2.1 s = .next ((done t 32).queueStep q)) ∧
      (pkOk w = true → k ≠ 8 → t.asidOk x.asid = false → exec p.2.1 s = .next ((done t 33).queueStep q))) ∧
    (pkOk w = true → t.asidOk x.asid = true →
      (let w2 := w.getD 2 0
        let ep := fld w2 48 14
        let fe := t.fe.fecore
        let k' := ((List.range 16).find? (fun k => (vget TSlot.free t.term.slots k).st == 0)).getD 0
        let i := ((List.range 256).find? (fun i => !(t.core fe).recbusy.getLsbD i)).getD 0
        let slot := { TSlot.free with st := 1, asid := x.asid, det := bitOf w2 47, host := some (q, n) }
        let u := ({ t with term := { t.term with slots := vset t.term.slots k' slot } }.writeTmap k'
          (2 ^ 31 + (if bitOf w2 47 then 2 ^ 30 else 0) + x.asid.toNat))
        let u := u.setLaunches (u.launches ++ [Launch.mk (launchId q n) x.asid (fld w2 32 4) (fld w2 40 4)])
        let record := [w.getD 1 0, BitVec.ofNat 64 (x.asid.toNat * 2 ^ 48 + 2 ^ 28 + k')] ++ (w.drop 3).take 5 ++ [0]
        let u := (u.lmWrite fe (0x7C000 + 64 * i) (record.flatMap (fun v => toBytes 8 v.toNat))).modCore fe (fun c => { c with
          recbusy := c.recbusy ||| BitVec.ofNat 256 (2 ^ i) });
        s.ev = some (.launchRoot q) → k = 1 →
        (t.launchHeld x.asid = true → exec .launchRoot s = .next ((t.modQueue q (fun x => { x with
          next := n, inflight := x.inflight.filter (fun p => p.1 != n) })).queueStep q)) ∧
        (t.launchHeld x.asid = false → (∃ j, j < 16 ∧ (vget TSlot.free t.term.slots j).st = 0) ∧ (∃ j, j < 256 ∧ (t.core fe).recbusy.getLsbD j = false)) ∧
        (t.launchHeld x.asid = false → carvePairOk (fld w2 32 4) (fld w2 40 4) = false → exec .launchRoot s = .next ((done t 32).queueStep q)) ∧
        (t.launchHeld x.asid = false → carvePairOk (fld w2 32 4) (fld w2 40 4) = true → t.rootTarget ep = false → exec .launchRoot s = .next ((done t 35).queueStep q)) ∧
        (t.launchHeld x.asid = false → carvePairOk (fld w2 32 4) (fld w2 40 4) = true → t.rootTarget ep = true →
          let v := u.countSent fe x.asid
          exec .launchRoot s = .next ((v.sendRelease fe (Release.mk u.srcDev fe (BitVec.ofNat 8 i) ep none (BitVec.ofNat 3 (fld (w.getD 1 0) 0 3)) x.asid 0 0 0 true)).queueStep q))) ∧
      (let wd := fun (k : Nat) => w.getD k 0
        let slot := fld (wd 6) 0 8
        let lo := fld (wd 7) 0 4
        let hi := fld (wd 7) 8 4
        let b := [wd 1, wd 2, wd 3, BitVec.ofNat 64 (2 ^ 55), wd 4, wd 5, wd 6, BitVec.ofNat 64 x.asid.toNat]
        let ok := carvePairOk lo hi = true ∧ runAddrOk b = true ∧ (t.inst slot).st = 0
        let u := t.takeSlot b x.asid none (some (q, n))
        let v := u.setLaunches (u.launches ++ [Launch.mk (launchId q n) x.asid lo hi]);
        s.ev = some (.launchGraph q) → k = 2 →
        (ok → exec .launchGraph s = .next ((v.send 0 hostEp (graphEp (slotMaster slot)) (.graphStart slot (v.inst slot).gen (slotMaster slot) 0)).queueStep q)) ∧
        (¬ok → exec .launchGraph s = .next ((done t 32).queueStep q))) ∧
      (let r := [w.getD 1 0, w.getD 2 0, w.getD 3 0, BitVec.ofNat 64 (2 ^ 55)]
        ∀ sh dh : Handle, s.ev = some (.queueCopy q) → k = 3 → zeroField (w.getD 3 0) 18 6 = true → zeroField (w.getD 3 0) 10 8 = true → cqOk r = true →
        (if cqOp r = 0 then t.engineHandle x.asid (fld (w.getD 4 0) 16 12) = some sh ∧ sh.space ≠ 0 ∧ State.copyCheck sh 0 false (r.getD 0 0) (cqLen r) = none
          else sh = Handle.empty) →
        (if cqSlot r = true then dh = Handle.empty ∧ cqSlotOk r = true
          else t.engineHandle x.asid (fld (w.getD 4 0) 0 12) = some dh ∧ dh.space ≠ 0 ∧ State.copyCheck dh 0 true (r.getD 1 0) (cqLen r) = none) →
        cqAligned r sh dh = true →
        exec .queueCopy s = .next ((t.send 0 hostEp (cqEngine r) (.copyRequest (CopyReq.mk hostEp (cqEngine r) r sh dh x.asid none 0 0 none none 0 none (some (q, n)) 0))).queueStep q)) ∧
      (∀ (h : Handle), let off := w.getD 2 0
        let bytes := toBytes 8 (w.getD 3 0).toNat
        let a := h.base.toNat + off.toNat;
        s.ev = some (.signal q) → k = 4 → t.engineHandle x.asid (fld (w.getD 1 0) 0 12) = some h →
        State.copyCheck h 0 true off 8 = none → a % 8 = 0 →
        (h.space = 1 → t.disabled h.target = false → exec .signal s = .next ((t.send 0 hostEp h.target
          (.store (Access.mk hostEp q 0 x.asid n 1 h.target a none 0 false false (.store bytes) 0))).queueStep q)) ∧
        (∀ pa ns, h.space = 2 → (t.walk 0 x.asid a .write).res = .ok pa ns → exec .signal s = .next ((t.onceBegin hostEp (.signal q n)
          (onceWrites hostEp x.asid pa bytes (ns || h.policy == 1) (h.policy == 2))).queueStep q))) ∧
      (s.ev = some (.waitQueue q) → k = 5 →
        exec .waitQueue s = .next ((t.modQueue q (fun x => { x with waits := some (n, fld (w.getD 1 0) 0 12, fld (w.getD 2 0) 0 32) })).wakeWaits.queueStep q)) ∧
      (let sl := fld (w.getD 1 0) 16 2
        let m := BitVec.ofNat 16 (fld (w.getD 1 0) 0 16)
        let ask := fun (close : Bool) => t.fresh.2.send 0 hostEp (bedCtl sl)
          (.bedrockRequest (BedReq.mk close sl m true x.asid none hostEp 0 0 t.fresh.1 false (some (q, n)) 0))
        let ok := m ≠ 0 ∧ (maskGroups m).any (fun k => (t.group sl k).disabled) = false;
        (s.ev = some (.bedrockOpen q) → k = 6 →
          (ok → exec .bedrockOpen s = .next ((ask false).queueStep q)) ∧ (¬ok → exec .bedrockOpen s = .next ((done t 32).queueStep q))) ∧
        (s.ev = some (.bedrockSeal q) → k = 7 →
          (ok → exec .bedrockSeal s = .next ((ask true).queueStep q)) ∧ (¬ok → exec .bedrockSeal s = .next ((done t 32).queueStep q))))) ∧
    (let a := BitVec.ofNat 16 (fld (w.getD 1 0) 0 16);
      s.ev = some (.swapAsid q) → k = 8 → pkOk w = true →
      (t.asidOk a = true → exec .swapAsid s = .next ((done (t.modQueue q (fun x => { x with asid := a })) 0).queueStep q)) ∧
      (t.asidOk a = false → exec .swapAsid s = .next ((done t 33).queueStep q)))

/-- For every state: MODULE_RESET resets every register, sets BOOT to 1 and trains the socket of a guest that is present,
and boot goes on in a step of its own: with no image to boot it fails with BOOTERR 1 or 2; with an image it copies the
image, takes the configuration that verifies (else the default), writes the registers, sets the ports and boots, fails
with BOOTERR 3 when the firmware faults, or waits for a device id where the configuration fixes none, and for the
guest socket. A device id is assigned to a module without one, and boot then ends unless the socket trains.
THROTTLE_EVALUATION moves THROT up by one over the cap or at 95 degrees, down by one below 95 percent of the cap and
below 90 degrees, else not; THERMAL_TRIP stops the module; LM_SCRUB counts what it corrected; each SPDM request is
answered with the codes of SPDM 1.3 (log entry 85). What flash holds, and a device id that boot waits for, follow log
entry 42. -/
def Obligations.ModuleStepsComplete : Prop :=
  ∀ (s : State) (id : BitVec 22) (watts temp die ep n off index : Nat) (nonce : List Byte),
    let f := s.pkg.flash
    let w := watts % 4096
    let d := temp % 256
    let p := s.pkg
    let spdm := fun (code : Nat) (b : List Byte) (n : Nat) => (s.freeBytes n).2.out (.spdm code (b ++ (s.freeBytes n).1))
    (s.ev = some .moduleReset → (s.fe.boot ≠ 1 ∨ s.net.any (fun m => m.ev == .moduleReset) = true) →
      let r := s.resetModule.modFe (fun x => { x with boot := 1 })
      exec .moduleReset s = .next ((if f.guest then r.modGuest (fun g => { g with state := 1, en := true }) else r).later .moduleReset)) ∧
    (s.ev = some .moduleReset → s.fe.boot = 1 → s.net.any (fun m => m.ev == .moduleReset) = false →
      (∀ err, f.choose = .inr err → exec .moduleReset s = .next (s.bootFail err)) ∧
      (∀ m, f.choose = .inl m →
        let img := f.image m.slot
        let cfg := if f.configOk then f.config else ConfigTable.default
        let t := (s.modFe (fun x => { x with
          bslot := m.slot, markerSeq := m.seq, cfgdef := !f.configOk, fwversion := img.version, boot := 2 })).placeImage img.segs
        let t := (t.bootRegs cfg img.trapvec).bootPorts f
        let u := match cfg.fixedId with
          | some d => { t with devId := d, didv := true }
          | none => t
        exec .moduleReset s = .next (if img.faults then t.bootFail 3 else u.bootReady))) ∧
    (s.ev = some (.deviceIdAssign id) → s.didv = false → 
      let t : State := { s with devId := id, didv := true }
      exec .deviceIdAssign s = .next (if s.fe.boot = 2 ∧ s.guest.state ≠ 1 then t.modFe (fun x => { x with boot := 3 }) else t)) ∧
    (s.ev = some (.throttleEvaluation watts temp die) →
      let t := if p.pwrcap < w ∨ 95 ≤ d then Nat.min 12 (p.throt + 1) else if 100 * w < 95 * p.pwrcap ∧ d < 90 then p.throt - 1 else p.throt
      exec .throttleEvaluation s = .next (s.modPkg (fun p => { p with pwrnow := w, temp := d, die := die % 256, throt := t }) |> fun u => if 110 ≤ d then u.trip else u)) ∧
    (s.ev = some .thermalTrip → exec .thermalTrip s = .next ((s.modPkg (fun p => { p with tripped := true })).machineCheck 0 110)) ∧
    (s.ev = some (.lmScrub ep n) → exec .lmScrub s = .next (s.modPkg (fun p => { p with cecnt := (p.cecnt + n) % 2 ^ 64 }))) ∧
    (s.ev = some .getVersion → exec .getVersion s = .next (spdm 0x04 [0x13] 0)) ∧
    (s.ev = some .getCapabilities → exec .getCapabilities s = .next (spdm 0x61 (toBytes 4 0x16) 12)) ∧
    (s.ev = some .negotiateAlgorithms → exec .negotiateAlgorithms s = .next (spdm 0x63 (toBytes 4 0x10 ++ toBytes 4 1) 24)) ∧
    (s.ev = some .getDigests → exec .getDigests s = .next (spdm 0x01 (sha256 f.certs) 0)) ∧
    (s.ev = some (.getCertificate off n) → exec .getCertificate s = .next (spdm 0x02 ((f.certs.drop off).take n) 0)) ∧
    (s.ev = some (.challenge nonce) → exec .challenge s = .next (spdm 0x03 nonce 64)) ∧
    (s.ev = some (.getMeasurements index nonce) →
      exec .getMeasurements s = .next (spdm 0x60 ((if index = 255 then [1, 2, 3] else [index]).flatMap s.measurement ++ nonce) 64))

/-- For every state and window operation whose word exists and whose core is not disabled: SAW_READ answers the word,
CLEAR_ON_READ answers it and clears its counter, a register write has the effect of its block and ends with ERR 0 or,
where the word keeps its value, ERR 5, and so has each write that is a step of its own: RECBUSY, a monitor, LQUOTA
within 16, CMASK, a slot, a set tag, SV, CENSEND, BARFREE, CANCEL, SLOTEND of a LIVE slot, a join counter, a DONE
termination slot, GCTL, JOBCANCEL. A word that no block has ends with ERR 2 and reads as 0. SAW_DONE ends an operation
that waited. -/
def Obligations.WindowAccessesComplete : Prop :=
  ∀ (s : State) (q : WinOp) (off size err : Nat) (v w : Word),
    let i := winInst q
    let o := winOff q
    let there := s.opWord q = some w ∧ (winCls q ≤ 2 → s.disabled i = false)
    let ends := fun (c : Instr) (t : State) (e : Nat) => exec c s = .next (t.sawEnd q e none)
    (s.ev = some (.sawRead q) →
      (s.opWord q = some w → exec .sawRead s = .next { s.sawEnd q 0 (some w) with fv := s.fv + 1 }) ∧
      (s.opWord q = none → exec .sawRead s = .next (s.sawEnd q 2 (some 0)))) ∧
    (s.ev = some (.sawDone q err) → exec .sawDone s = .next (s.sawEnd q err none)) ∧
    (s.ev = some (.clearOnRead (.window q)) → s.opWord q = none → exec .clearOnRead s = .next (s.sawEnd q 2 (some 0))) ∧
    (s.ev = some (.clearOnRead (.window q)) → there → exec .clearOnRead s = .next ((s.clearRc (winCls q) i o).sawEnd q 0 (some w))) ∧
    (s.ev = some (.clearOnRead (.bar0 off)) →
      let t := if off = 0x10 then s.modFe (fun f => { f with dberr := 0 }) else if off = 0x18 then s.modFe (fun f => { f with bar2err := 0 }) else s
      exec .clearOnRead s = .next (t.out (.bar0Data off (s.hostWord off)))) ∧
    (s.ev = some (.registerWrite (.window q)) →
      (there → ends .registerWrite (s.regWrite (winCls q) i o q.data).2 (s.regWrite (winCls q) i o q.data).1) ∧
      (s.opWord q = none → ends .registerWrite s 2)) ∧
    (s.ev = some (.registerWrite (.bar0 off size v)) → exec .registerWrite s = .next (s.bar0Write off size v)) ∧
    (s.ev = some (.recbusyClear q) → there → ends .recbusyClear (s.modCore i (fun c => { c with
      recbusy := c.recbusy &&& ~~~((q.data.setWidth 256) <<< (64 * ((o - 0x40) / 8))) })) 0) ∧
    (∀ x, s.ev = some (.monitorFree q) → there → q.data = 0 → (s.core i).monitors.find? (fun x => x.idx == (o - 0x400) / 16) = some x →
      ends .monitorFree ((s.modCore i (fun c => { c with monitors := c.monitors.filter (fun y => y.idx != (o - 0x400) / 16) })).countRecv
        x.q.rel.srcEp x.q.rel.asid) 0) ∧
    (let sum := ((List.range 8).map (fun c => fld q.data (8 * c) 8)).foldl (fun a b => a + b) 0;
      s.ev = some (.lquotaWrite q) → there →
      (sum ≤ 16 → ends .lquotaWrite (s.modGeode i (fun g => { g with lquota := q.data })) 0) ∧ (16 < sum → ends .lquotaWrite s 5)) ∧
    (let m := BitVec.ofNat 8 (fld q.data 0 8);
      s.ev = some (.cmaskWrite q) → there → (∀ c < 8, m.getLsbD c = true → (s.arr i).cmask.getLsbD c = true ∨ (s.core (8 * i + c)).code = 0) →
      ends .cmaskWrite ((s.modArr i (fun a => { a with cmask := m })).arrayKick i) 0) ∧
    (s.ev = some (.slotstEmpty q) → there → (∀ k < 8, fld q.data (8 * k) 5 = 0) → (∀ k < 8, (s.arr i).slotIdle (o - 0x400 + k) = true) →
      ends .slotstEmpty (((List.range 8).foldl (fun t k => t.emptySlot i (o - 0x400 + k)) s).arrayKick i) 0) ∧
    (let k := (o - 8) / 8;
      s.ev = some (.settagFree q) → there →
      ((s.arr i).setIdle k = true → ends .settagFree ((s.modArr i (fun a => a.modSet k (fun e => { e with
        tag := none, live := 0, i32 := BitVec.ofNat 8 (fld q.data 0 8)
        shown := (BitVec.ofNat 3 (fld q.data 48 3), BitVec.ofNat 16 (fld q.data 32 16)) }))).arrayKick i) 0) ∧
      ((s.arr i).setIdle k = false → ends .settagFree s 5)) ∧
    (∀ t, s.ev = some (.svclear q) → there → (s.port i).dir.find q.data.toNat = some t →
      ends .svclear (s.modTile i q.data.toNat (fun t => { t with sv := false })) 0) ∧
    (s.ev = some (.censend q) → there → ends .censend (s.censusEnd q.data.toNat) 0) ∧
    (s.ev = some (.barfree q) → there → ends .barfree (s.barFree i q.data.toNat) 0) ∧
    (s.ev = some (.cancel q) → there → ends .cancel (s.cancelXfer i (fld q.data 0 48)) 0) ∧
    (s.ev = some (.slotend q) → q.data.toNat < 256 → s.unread q.data.toNat = true → exec .slotend s = .next (s.later (.slotend q))) ∧
    (s.ev = some (.slotend q) → there → q.data.toNat < 256 → s.unread q.data.toNat = false → (s.inst q.data.toNat).st = 1 → ends .slotend (s.slotEndWrite q.data.toNat) 0) ∧
    (s.ev = some (.joinctrFree q) → there → ends .joinctrFree (s.modJoin i ((o - 0x7000) / 32) (fun _ => JoinCtr.free)) 0) ∧
    (∀ k, k = (o - 0x2000) / 8 → s.ev = some (.tslotFree q) → there → q.data = 0 → (vget TSlot.free s.term.slots k).st = 2 → ends .tslotFree (s.tslotFree k) 0) ∧
    (s.ev = some (.gctlFence q) → there → ends .gctlFence s.gctlFence 0) ∧
    (s.ev = some (.gctlRetrain q) → there → ends .gctlRetrain s.gctlRetrain 0) ∧
    (s.ev = some (.jobcancel q) → there → ends .jobcancel (s.jobCancel (fld q.data 0 16)) 0)

/-- For every state and window operation: RRCTL starts a mode while MODE is 0, ends recording with the end entry, and with
MODE 0 and no mode sets ASID and scope; RRPUSH appends an entry in replay mode with fewer than 64 entries and re-
examines what is held; RRPOP pops entries outside replay mode; HCINV, ICINV and GFCLEAR drop what their operand names;
TLBINV drops the range from every TLB and walk cache, waits while an access translated before is to be performed, then
for the guest's answers, which only an OPEN guest with a grant in the range owes; CORERESET of a HALTED or VACATED
core resets its frame unit, and of any other core ends with ERR 6. -/
def Obligations.WindowCommandsComplete : Prop :=
  ∀ (s : State) (q : WinOp) (w : Word),
    let i := winInst q
    let r := s.ring i
    let there := s.opWord q = some w ∧ (winCls q ≤ 2 → s.disabled i = false)
    let ends := fun (c : Instr) (t : State) (e : Nat) => exec c s = .next (t.sawEnd q e none)
    let asid := BitVec.ofNat 16 (fld q.data 0 16)
    (s.ev = some (.rrctlWrite q) → there →
      let m := fld q.data 32 2
      (m ≠ 0 → m ≠ 3 → r.mode = 0 → ends .rrctlWrite (s.setRing i { r with ctl := q.data &&& 0x30001FFFF, seq := 0 }) 0) ∧
      (m ≠ 0 → r.mode ≠ 0 → ends .rrctlWrite s 5) ∧
      (m = 0 → r.mode = 1 → ends .rrctlWrite ((s.setRing i { r with ctl := setFld r.ctl 32 2 0 }).appendEntry i (traceEnd r.seq, 0)) 0) ∧
      (m = 0 → r.mode = 2 → ends .rrctlWrite ((r.rob.foldl (fun u a => portPerform i a.2 u) (s.setRing i { r with
        ctl := setFld r.ctl 32 2 0, entries := [], rob := [], diverged := false })).ringWake i) 0) ∧
      (m = 0 → r.mode ≠ 1 → r.mode ≠ 2 → ends .rrctlWrite ((s.setRing i { r with
        ctl := q.data &&& 0x1FFFF, entries := (if r.diverged then [] else r.entries), diverged := false }).ringWake i) 0)) ∧
    (s.ev = some (.rrpush q) → there → r.mode = 2 → r.entries.length < 64 →
      ends .rrpush ((s.setRing i { r with entries := r.entries ++ [(r.push0, q.data &&& traceMask1)] }).reexamine i (portHdr i) (portPerform i)) 0) ∧
    (s.ev = some (.rrpop q) → there → r.mode ≠ 2 → ends .rrpop ((s.setRing i { r with entries := r.entries.drop q.data.toNat }).ringWake i) 0) ∧
    (let hit := fun (e : BitVec 16 × Nat × List Word) => e.1 == asid && (bitOf q.data 28 || e.2.1 == fld q.data 16 12);
      s.ev = some (.hcinv q) →
      ends .hcinv (((List.range 4).foldl (fun t k => t.modSlab k (fun b => { b with hcache := b.hcache.filter (fun e => !hit e) })) s).reread asid (fun k => hit (asid, k, []))) 0) ∧
    (s.ev = some (.icinv q) →
      ends .icinv { s with cores := s.cores.map (fun (p : Nat × Core) => (p.1, { p.2 with icache := p.2.icache.filter (fun l => l.asid != asid) })) } 0) ∧
    (s.ev = some (.gfclear q) → ends .gfclear (s.modGeode (fld q.data 0 9) (fun g => { g with sticky := 0 })) 0) ∧
    (∀ range : Option Word,
      let base := range.getD s.pkg.tlbrange
      let t := s.dropXlate asid base.toNat (fld q.data 32 32)
      let hit := fun (g : Grant) => g.asid == asid && pageHit base.toNat (fld q.data 32 32) g.page (pageBits g.size)
      let l := (t.guest.grants.filter hit).map (fun g => g.idx);
      s.ev = some (.tlbinv q range) →
      (t.asidBusy asid = true → exec .tlbinv s = .next (t.later (.tlbinv q (some base)))) ∧
      (t.asidBusy asid = false → (t.guest.state ≠ 2 ∨ l = []) → ends .tlbinv t 0) ∧
      (t.asidBusy asid = false → t.guest.state = 2 → l ≠ [] →
        exec .tlbinv s = .next ((t.invalidate hit).modGuest (fun g => { g with tlbops := g.tlbops ++ [(q, l)] })))) ∧
    (let ep := fld q.data 0 12
      let c := s.core ep;
      s.ev = some (.corereset q) →
      (c.code ≠ 3 → c.code ≠ 4 → ends .corereset s 6) ∧
      (c.code = 3 ∨ c.code = 4 →
        let t := (c.monitors.foldl (fun t x => t.countRecv x.q.rel.srcEp x.q.rel.asid) ((List.range 8).foldl (fun t w => t.endGrant ep w) s)).modCore ep (fun c => { c with
          code := 0, noplace := true, wins := Vector.replicate 8 Frame.free, recbusy := 0, monitors := []
          handlers := Vector.replicate 64 Handler.empty, census := { c.census with dir := [] }, claims := [], closing := []
          ceiling := c.ceiling.map (fun w => setFld w 11 1 0), fwd := 0, mig := none })
        ends .corereset ((c.push.foldl (fun t _ => t.later (.framePush ep)) t).select ep) 0))

/-- For every state, window, result for an x register at full width, an f or an h register, and value: after the write-
back the result is outstanding no more, an older result for the same register is dead, and no byte of memory changes;
an x, f (of the sixteen) or h destination of a result that is not dead holds the value (x0 reads 0) and every other
register of the three files is as it was; a dead result leaves all three files as they were. -/
def Obligations.WriteBackSetsTheDestination : Prop :=
  ∀ (s : State) (ep win : Nat) (r : Result) (v : Word) (k : Handle) (x : Reg) (h : HReg) (fl : FlagSet), win < 8 →
    let f := s.frame ep win
    let after := fun (val : ResVal) => s.writeBack ep win r val fl false
    let settled := fun (val : ResVal) =>
      (∀ q ∈ ((after val).frame ep win).outs, q.uid ≠ r.uid ∧ (q.order < r.order → q.dst.same r.dst = true → q.dead = true)) ∧ (after val).mem = s.mem
    let x' := fun (val : ResVal) => ((after val).frame ep win).x
    let f' := fun (val : ResVal) => ((after val).frame ep win).f
    let h' := fun (val : ResVal) => ((after val).frame ep win).h
    (∀ val, r.dead = true → settled val ∧ x' val = f.x ∧ f' val = f.f ∧ h' val = f.h) ∧
    (r.dead = false → r.dst = dstX x → settled (.word v) ∧ ((after (.word v)).frame ep win).getX x = (if x = 0 then 0 else v) ∧
      (∀ y, y ≠ x → ((after (.word v)).frame ep win).getX y = f.getX y) ∧ f' (.word v) = f.f ∧ h' (.word v) = f.h) ∧
    (r.dead = false → r.dst = .f x → x.toNat < 16 → settled (.word v) ∧ ((after (.word v)).frame ep win).getF x = v ∧
      (∀ y, y ≠ x → ((after (.word v)).frame ep win).getF y = f.getF y) ∧ x' (.word v) = f.x ∧ h' (.word v) = f.h) ∧
    (r.dead = false → r.dst = .h h → settled (.handle k) ∧ ((after (.handle k)).frame ep win).getH h = k ∧
      (∀ y, y ≠ h → ((after (.handle k)).frame ep win).getH y = f.getH y) ∧ x' (.handle k) = f.x ∧ f' (.handle k) = f.f)

/-- Each word that the spec writes out beside an instruction decodes to that instruction with those operands: ADDI, ADD,
BNE, a lone LI and LI.h, VCLAIM, VADD, VFMA, VRSUM, VQNT, VLD, VST, VSBIND, VSFREE, SOLICIT, RESPOND, TILEREG, CPY,
GRRUN, MDRAIN, the no-op of either space; the all-zero word is no instruction of either. -/
def Obligations.WordsOfTheSpecDecode : Prop :=
  decodeC 0xFE814506 false = .ok (.addi false 0x1FD 10 5) ∧ decodeA 0x00316604 = .ok (.add false 12 11 6) ∧
  decodeC 0xFF80BD1C false = .ok (.bne 0x3FFD 0 5) ∧ decodeC 0x00000709 true = .ok (.li 0 7) ∧ decodeC 0x00002709 true = .ok (.liH 7) ∧
  decodeC 0x0014A6A6 false = .ok (.vclaim false 5 5 6) ∧ decodeA 0x000C4140 = .ok (.vadd false false 0 3 2 1) ∧
  decodeA 0x020C4144 = .ok (.vfma 4 3 2 1) ∧ decodeA 0x08010248 = .ok (.vrsum true false 0 8 2) ∧
  decodeA 0x24F42250 = .ok (.vqnt .bx8 1 29 1 2) ∧ decodeC 0x4080A4A0 false = .ok (.vld 2 .fp32 5 4) ∧
  decodeC 0x4800A4A0 false = .ok (.vst 2 5 4) ∧ decodeC 0x1000DCA4 false = .ok (.vsbind 6 28) ∧ decodeC 0x18001CA4 false = .ok (.vsfree 28) ∧
  decodeC 0x007100B0 false = .ok (.solicit 28 8 0) ∧ decodeC 0x0803A0B0 false = .ok (.respond 29) ∧ decodeC 0x180107B2 false = .ok (.tilereg 8 7) ∧
  decodeC 0x000100D0 false = .ok (.cpy false 8 0) ∧ decodeC 0x0080C5D0 false = .ok (.cpy true 6 5) ∧ decodeC 0x000100E8 false = .ok (.grrun 8 0) ∧
  decodeC 0x131CC5C0 false = .ok (.mdrain 2 false 7 6 5) ∧
  decodeC 0x00000004 false = .ok (.addi false 0 0 0) ∧ decodeA 0x00000004 = .ok (.add false 0 0 0) ∧
  decodeC 0 false = .error .unassigned ∧ decodeA 0 = .error .unassigned

/-- For every well-formed instruction with operands at every value the encoding admits: if it belongs to the A-space, the
A-space decoder reads its word back as it; if it belongs to the C-space, the C-space decoder does, with any bits W and
L added and in either kind of bundle (LI.h in a lone one only). -/
def Obligations.DecodeInvertsEncode : Prop :=
  ∀ i : Instr, i.wellFormed = true →
    (aForm i = true → decodeA (encode i) = .ok i) ∧
    (cForm i = true → ∀ (k : BitVec 2) (lone : Bool), ((∃ d, i = .liH d) → lone = true) → decodeC (encode i ||| k.setWidth 32) lone = .ok i)

/-- For every state and core: the turn of a step is the first of the agenda, or with an empty agenda the default one (log
entry 2), and time moves on by one. A step of a module that has not tripped first writes back due results and counts a
network cycle. When its turn is a core to issue and the top frame can go on, is not spilled, its line is there and the
bundle has no bundle-level fault, the bundle at its pc is issued and the pc moves on by 8: a lone bundle runs its one
slot; a bundle of two runs each slot from the same state, stops with the first that does not go on, and else answers
one slot with the other on top (the order of streams is the model's reading, log entry 22), followed by the end of the
bundle. A slot whose word decodes to i, no source of i poisoned, is exec i; with a poisoned source it raises cause 63;
a word that decodes to nothing raises cause 2. Where the C-slot waits for the answer to a `BSEAL` or `BOPEN`, a fault
of the A-slot comes first. A frame whose held bundle has read its registers runs it again on what it read (underLatch,
overLatch; R36); with none so read, the two change nothing. A bundle that goes on ends with the wait marker. A step
that delivers an internal operation, or an ejected packet whose turn has come and that is not redirected, runs exec of
the event instruction it carries; so does an input that can come from outside. A write of firmware (log entry 42)
after boot does what firmwareWrite says: a routing entry changes when its old port holds no packet that the entry
routes (R517), and flash by the update sequence (R514). -/
def Obligations.StepsRunTheDecodedInstructions : Prop :=
  ∀ (s : State) (ep w : Nat) (w0 w1 : Half),
    let p := s.turnOf
    let u := p.2.settleAll.netTick
    let f := (u.core ep).win w
    let r := u.underLatch ep w
    let g := r.frame ep w
    let v : State := { r.setFrame ep w { g with st := .running, hold := .none, pc := g.pc + 8 } with
      iss := Issue.mk ep w g.pc w0 w1 (w0.getLsbD 0) 0 .go }
    let done : Host.Outcome State Fault Refusal → Host.Outcome State Fault Refusal := fun o => andThen o (fun t => .next (u.overLatch ep w t))
    let ends : Host.Outcome State Fault Refusal → Host.Outcome State Fault Refusal := fun o => v.bundleEnd v.cf.fid o
    (∀ t l, s.agenda = t :: l → p = (t, { s with now := s.now + 1, agenda := l })) ∧
    (s.agenda = [] → p = (s.defaultTurn, { s with now := s.now + 1, turn := s.turn + 1, cur := s.nextCore })) ∧
    (p.1 = .issue ep → s.pkg.tripped = false → u.canIssue ep = true → (u.core ep).top = some w → f.spilled = false →
      (u.core ep).fetch f = some (w0, w1) → bundleFault w0 w1 = false →
      (f.latch = none → r = u ∧ ∀ t, u.overLatch ep w t = t) ∧
      (w0.getLsbD 0 = true → step s = done (if goesOn v.slotC then ends v.slotC else v.slotC)) ∧
      (w0.getLsbD 0 = false → step s = done (if goesOn v.slotC then
        (if goesOn v.slotA then ends (if readsVectors w0 then andThen v.slotC State.slotA else andThen v.slotA State.slotC) else v.slotA)
        else if asksEffect w0 && !faulted v.slotC && faulted v.slotA then v.slotA else v.slotC))) ∧
    (∀ k m, p.1 = .deliver k → s.pkg.tripped = false → u.net[k]? = some m → (3 ≤ m.cls ∨ (m.ch = .eject ∧ u.servable k m = true ∧ u.redirects m.dst = false)) →
      step s = exec (eventInstr m.ev) { u with net := u.net.eraseIdx k, ev := some m.ev }) ∧
    (∀ e, p.1 = .input e → s.pkg.tripped = false → hostRequest e = false → external e = true →
      step s = exec (eventInstr e) { u with ev := some e }) ∧
    (∀ x, p.1 = .firmware x → s.pkg.tripped = false → step s = .next (u.firmwareWrite x)) ∧
    (∀ k y, u.fe.boot = 3 → k < 4096 → y < 32 →
      (u.portHolds (u.pkg.regionrt.get 31 k) (fun d => d / 1024 == k && k != u.devId.toNat / 1024) = false →
        u.firmwareWrite (.region k y) = u.modPkg (fun q => { q with regionrt := q.regionrt.put k y })) ∧
      (k < 1024 → u.portHolds (u.pkg.localrt.get 31 k) (fun d => d / 1024 == u.devId.toNat / 1024 && d % 1024 == k) = false →
        u.firmwareWrite (.locals k y) = u.modPkg (fun q => { q with localrt := q.localrt.put k y }))) ∧
    (∀ k img b m l, u.fe.boot = 3 → k < 2 → k ≠ u.fe.bslot → u.pkg.flash.markers = m :: l →
      u.firmwareWrite (.image k img) = u.modPkg (fun q => { q with flash := if k = 0 then { q.flash with imageA := img } else { q.flash with imageB := img } }) ∧
      (u.pkg.flash.mayMark m u.fe.bslot b = true → u.firmwareWrite (.marker (u.pkg.flash.nextCopy m.seq) b) =
        u.modPkg (fun q => { q with flash := if u.pkg.flash.nextCopy m.seq = 0 then { q.flash with marker0 := b } else { q.flash with marker1 := b } }))) ∧
    (∀ i, decodeC s.iss.w0 s.iss.lone = .ok i →
      let t : State := { s with iss := { s.iss with order := 2 * s.now } }
      (s.cf.poisoned i = none → s.slotC = exec i t) ∧ (∀ x, s.cf.poisoned i = some x → s.slotC = .next (t.raise 63 x))) ∧
    (∀ i, decodeA s.iss.w1 = .ok i →
      let t : State := { s with iss := { s.iss with order := 2 * s.now + 1 } }
      (s.cf.poisoned i = none → s.slotA = exec i t) ∧ (∀ x, s.cf.poisoned i = some x → s.slotA = .next (t.raise 63 x))) ∧
    (∀ e, decodeC s.iss.w0 s.iss.lone = .error e → s.slotC = .next (s.raise 2 (s.iss.w0.setWidth 64))) ∧
    (∀ e, decodeA s.iss.w1 = .error e → s.slotA = .next (s.raise 2 (0x100000000 ||| s.iss.w1.setWidth 64))) ∧
    (∀ fid, s.iss.stop = .go → s.bundleEnd fid (.next s) = .next (if s.cf.fid = fid then s.waitMark else s))

/-- For every state of a module that has tripped with no reset in its agenda: every step answers a next state, in which
the module has tripped and no reset is in the agenda, and which differs from the state before at most in time, the
turn counter, the core whose turn is next and the agenda; with a reset next in the agenda, the step is that of the
reset. -/
def Obligations.TrippedModuleStaysTripped : Prop :=
  ∀ s : State, (trippedForGood s → ∃ t, step s = .next t ∧ trippedForGood t ∧ t.now = s.now + 1 ∧
      { t with now := s.now, turn := s.turn, cur := s.cur, agenda := s.agenda } = s) ∧
    (∀ l, s.pkg.tripped = true → s.agenda = .input .moduleReset :: l →
      step s = exec .moduleReset { s with now := s.now + 1, agenda := l, ev := some .moduleReset })

/-- In State.reset, for every core: ACTIVE and placeable, every window FREE, TRAPVEC 0, SPREGION, TRAPSEG and RINGCFG at
their stated values, FWD and STARVE 0, no claim, ceilings 0, no monitor, handlers EMPTY, FWHMASK bit 63 only, STEALCFG
as stated, no hardware entry, join counters FREE; FUSTAT reads IDLE alone. For every geode: quotas of 2, no bank held,
CMASK 0xFF, every accumulator set free, every slot EMPTY. The socket caps at 150 W, the front end is in RESET, every
queue is disabled with ring size 16, PWRCAP is 2400 W, the module has not tripped, nothing is under way, and the byte
memory lists nothing and keeps its form. -/
def Obligations.ResetLeavesTheStatedValues : Prop :=
  let s := State.reset
  (∀ ep, let c := s.core ep
    c.code = 0 ∧ c.noplace = false ∧ (∀ w, (c.win w).st = .free) ∧ c.trapvec = 0 ∧ c.spregion = 0x0007400000040000 ∧ c.trapseg = 0x400 ∧
    c.ringcfg = 0x0000002000074000 ∧ c.fwd = 0 ∧ c.starve = 0 ∧ c.recbusy = 0 ∧ c.claims = [] ∧ (∀ k, vget 0 c.ceiling k = 0) ∧ c.monitors = [] ∧
    (∀ k, (vget Handler.empty c.handlers k).state = 0) ∧ c.feroute = 0 ∧ c.fwhmask = 0x8000000000000000 ∧ c.refcnt = 0 ∧ c.fwmap = 0 ∧
    c.spawn.steal = 0x0000004000080001 ∧ c.spawn.deque = [] ∧ (∀ k, vget JoinCtr.free c.spawn.joins k = JoinCtr.free) ∧ c.fustat = 0x80) ∧
  (∀ g, let q := s.geode g
    q.lquota = 0x0202020202020202 ∧ q.lendlock = 0 ∧ q.banks = [] ∧ q.array.cmask = 0xFF ∧
    (∀ a, (vget AccSet.freeSet q.array.sets a).tag = none) ∧ (∀ k, q.array.slots.get Slot.empty k = Slot.empty) ∧ q.array.passes = []) ∧
  s.guest.cap = 150 ∧ s.guest.state = 0 ∧ s.fe.boot = 0 ∧ s.fe.booterr = 0 ∧ s.fe.dberr = 0 ∧
  (∀ q, let r := s.fe.queues.get Queue.reset q; r.en = false ∧ r.log2 = 4 ∧ r.st = 0 ∧ r.tail = 0) ∧
  s.pkg.pwrcap = 2400 ∧ s.pkg.throt = 0 ∧ s.pkg.tripped = false ∧ s.net = [] ∧ s.agenda = [] ∧ s.mem = [] ∧ memOk s

/-- For every state and every integer, immediate, bit, select, scalar FP, LI, LPC, jump or branch instruction for which
exec answers a next state: no byte of memory, geode, home, slab, engine or other unit changes, every other core and
every other window of the same core is as it was, the core keeps all but the window, and in the issuing frame every
general, floating-point and handle register, tag, stream and CSR keeps its value (the destination takes its result at
the write-back); results already outstanding stay, and at most one is added. -/
def Obligations.RegisterFormsTouchNothingElse : Prop :=
  ∀ (i : Instr) (s t : State), s.iss.win < 8 → registerForm i = true → exec i s = .next t →
    t.mem = s.mem ∧ t.geodes = s.geodes ∧ t.homes = s.homes ∧ t.slabs = s.slabs ∧ t.engines = s.engines ∧ t.nodes = s.nodes ∧
    t.census = s.census ∧ t.graphs = s.graphs ∧ t.insts = s.insts ∧ t.guest = s.guest ∧ t.term = s.term ∧ t.fe = s.fe ∧ t.pkg = s.pkg ∧
    t.outbox = s.outbox ∧ t.agenda = s.agenda ∧ t.now = s.now ∧
    (∀ ep, ep ≠ s.iss.ep → t.core ep = s.core ep) ∧ ({ t.cc with wins := s.cc.wins } : Core) = s.cc ∧
    (∀ w, w ≠ s.iss.win → t.frame s.iss.ep w = s.frame s.iss.ep w) ∧ sameRegisters t.cf s.cf ∧
    (∃ l, t.cf.outs = s.cf.outs ++ l ∧ l.length ≤ 1)

/-- For every A-space word of major 0x04 with bits [1:0] zero: with funct4 zero it decodes to CSEL with rd, rs1, rs2 and
rs3 at their fields; with another funct4 it decodes to nothing and the A-slot raises cause 2 with the word in EVAL.
For every state (a window number is below 8), CSEL answers one result for x[rd] computed from the registers at issue,
which written back leaves x[rd] = x[rs1] when x[rs3] was not zero and x[rs2] otherwise; with rd = x0 nothing changes. -/
def Obligations.CselSelects : Prop :=
  (∀ w : Half, w.extractLsb' 0 2 = 0 → w.extractLsb' 2 6 = 0x04#6 →
    (w.extractLsb' 28 4 = 0 → decodeA w = .ok (.csel (w.extractLsb' 23 5) (w.extractLsb' 18 5) (w.extractLsb' 13 5) (w.extractLsb' 8 5))) ∧
    (w.extractLsb' 28 4 ≠ 0 → (∃ e, decodeA w = .error e) ∧
      ∀ s : State, s.iss.w1 = w → s.slotA = .next (s.raise 2 (0x100000000 ||| w.setWidth 64)))) ∧
  (∀ (s : State) (c b a d : Reg), s.iss.win < 8 →
    let v := if s.xr c ≠ 0 then s.xr a else s.xr b
    let r := Result.mk s.uid s.iss.order (dstX d) (some (s.now + 1)) (.word v) 0 [] 0 false false 0
    (d = 0 → exec (.csel c b a d) s = .next s) ∧
    (d ≠ 0 → exec (.csel c b a d) s = .next { s.modCf (fun f => { f with outs := f.outs ++ [r] }) with uid := s.uid + 1 }) ∧
    (d ≠ 0 → ∀ u : State, ((u.writeBack s.iss.ep s.iss.win r r.val r.flags false).frame s.iss.ep s.iss.win).getX d = v))

/-- For every state, core, window below 8 and bundle whose C-slot holds END, ENDS, ERET, FKILL or MIGR and that is not
lone: with the canonical no-op in the A-slot the bundle has no bundle-level fault; with any other A-slot content,
issuing it raises cause 2 with the bundle-level code and word 0 in EVAL and the pc of the bundle, and the C-slot does
not take effect: memory, the other frames, the registers and results of the frame and every other unit are as they
were. A lone bundle that holds one of them has no bundle-level fault when its literal is zero. The frame holds no
bundle that has read its registers already. -/
def Obligations.CompanionsOfFrameInstructionsFault : Prop :=
  ∀ (s : State) (ep w : Nat) (w0 w1 : Half) (i : Instr), w < 8 →
    ((i = .endTask ∨ (∃ b a, i = .ends b a) ∨ i = .eret ∨ (∃ a, i = .fkill a) ∨ (∃ b a d, i = .migr b a d)) ∧
      decodeC w0 (w0.getLsbD 0) = .ok i) →
    (w0.getLsbD 0 = true → acceptsLit w0 = false ∧ bundleFault w0 0 = false) ∧
    (w0.getLsbD 0 = false → bundleFault w0 0x00000004 = false) ∧
    (w0.getLsbD 0 = false → w1 ≠ 0x00000004 → (s.frame ep w).latch = none → ∃ t, s.issueBundle ep w w0 w1 = .next t ∧ t.iss.stop = .fault ∧
      (let f := s.frame ep w
       let g := t.frame ep w
       g.st = .faulting ∧ g.pending = some (PFault.mk 2 (0x200000000 ||| w0.setWidth 64) f.pc false) ∧ g.pc = f.pc ∧ g.outs = f.outs ∧ sameRegisters g f) ∧
      (∀ k, k ≠ w → t.frame ep k = s.frame ep k) ∧ (∀ e, e ≠ ep → t.core e = s.core e) ∧ ({ t.core ep with wins := (s.core ep).wins } : Core) = s.core ep ∧
      t.net = s.net ++ [Msg.op (.trapEntry ep)] ∧ { t with iss := s.iss, net := s.net, cores := s.cores } = s)

/-- For every state, ISAID (CSR 0x006) reads a word with bits [63:32] zero, MAJOR 0x01 in [31:24], MINOR 0x00 in [23:16]
and bits [15:0] zero; CSRRW, CSRRS and CSRRC on it answer that word for x[rd] after two cycles, in either mode, and do
nothing else: it is read only. -/
def Obligations.IsaIdReadsItsBitMap : Prop :=
  ∀ (s : State) (a d : Reg),
    let v := s.csrRead 0x006
    v.extractLsb' 32 32 = 0 ∧ v.extractLsb' 24 8 = 0x01 ∧ v.extractLsb' 16 8 = 0x00 ∧ v.extractLsb' 0 16 = 0 ∧
    exec (.csrrw 0x006 a d) s = .next (s.fixedX d 0x01000000 2) ∧ exec (.csrrs 0x006 a d) s = .next (s.fixedX d 0x01000000 2) ∧
    exec (.csrrc 0x006 a d) s = .next (s.fixedX d 0x01000000 2) ∧
    (∀ t : State, exec (.csrrw 0x006 a d) s = .next t → t.csrRead 0x006 = v)

/-- For every state and access through a handle register of n bytes with an element size e: the first of the conditions of
steps 1 to 9 that holds (empty handle, no path, missing right, ATOM, AMO.fadd in a deterministic launch, no write
capability, beyond BOUND, misaligned, target core out of reach) gives its cause, with the handle number, the store bit
and the offset in EVAL; when none holds, a LOCAL access and a REMOTE one to the own core go to the LM of the core,
another REMOTE one to its target, HOST to the host port, and a GLOBAL one where its page translates, with cause 13 or
15 for a page fault and 5 or 7 for an address without memory, the virtual address in EVAL. -/
def Obligations.AccessChecksInTheirOrder : Prop :=
  ∀ (s : State) (det : Bool) (hn : HReg) (off : Word) (n e : Nat) (k : AccKind) (atomOk fadd : Bool),
    let h := s.cf.getH hn
    let st := k != .load
    let ev : Word := (BitVec.ofNat 64 hn.toNat <<< 61) ||| (if st then 0x1000000000000000 else 0) ||| (off &&& 0x0FFFFFFFFFFFFFFF)
    let va := h.base.toNat + off.toNat
    let bad : List (Bool × Nat) := [
      (!h.valid, 48),
      (!(h.space == 0 || h.space == 1 || (isMemCore s.iss.ep && (h.space == 2 || h.space == 4))), 26),
      (k == .load && !bitOf h.w3 0, 5),
      ((st && !bitOf h.w3 1) || (k == .atomic && (!bitOf h.w3 2 || h.space == 4)), 7),
      (bitOf h.w3 5 && k != .atomic && !atomOk, 49),
      (fadd && det, 50),
      (st && bitOf h.w3 4 && !h.cap, 27),
      (decide (h.bound.toNat < off.toNat + n), 25),
      (va % e != 0, if st then 6 else 4),
      (h.space == 1 && h.target != s.iss.ep &&
        (!epValid h.target || s.disabled h.target || (!s.cf.fm && s.cc.firewalled h.target)), if st then 7 else 5)]
    let need : Need := if k = .load then .read else if k = .store then .write else .atomic
    let w := s.translate s.cc.tlb (epSlab s.iss.ep) s.cf.asid va need
    let chk := s.check det hn off n e k atomOk fadd [0, 1, 2, 4]
    (∀ p, bad.find? (·.1) = some p → chk = .fault p.2 ev) ∧
    (bad.find? (·.1) = none →
      (h.space = 0 → chk = .ok (Target.mk 0 s.iss.ep va false false none)) ∧
      (h.space = 1 → h.target = s.iss.ep → chk = .ok (Target.mk 0 s.iss.ep va false false none)) ∧
      (h.space = 1 → h.target ≠ s.iss.ep → chk = .ok (Target.mk 1 h.target va false false none)) ∧
      (h.space = 4 → chk = .ok (Target.mk 4 (agentEp 0 0x81) va false false none)) ∧
      (h.space = 2 → (∀ pa ns, w.res = .ok pa ns → chk = .ok (Target.mk 2 (homeOf pa) pa (ns || h.policy == 1) (h.policy == 2) (some w))) ∧
        (w.res = .pageFault → chk = .fault (if st then 15 else 13) (BitVec.ofNat 64 va)) ∧
        (w.res = .unpopulated → chk = .fault (if st then 7 else 5) (BitVec.ofNat 64 va))))

/-- For every state whose byte memory has its canonical form and every load, pair load, store, pair store, AMO, CAS and
AMOG with room whose access passes the checks of R120 and goes to a target: exec answers a next state whose memory
keeps its form and in which every byte reads as before, but for the n bytes from the target address on, in the LM of
the core, when the access is LOCAL and is a store or an atomic; a load leaves every byte as it was. When a STORE
packet is served at an LM port, each of its bytes reads as stored, and every other byte reads as before; when a LOAD
is, every byte does. -/
def Obligations.StoresChangeOnlyTheirBytes : Prop :=
  ∀ (s : State) (imm : BitVec 9) (h : HReg) (sz : BitVec 2) (a b d : Reg) (t : Target) (wide : Bool) (op : AmoOp) (ord : MemOrd), memOk s →
    let off : Word := s.xr a + (if s.iss.lone then s.iss.w1.signExtend 64 else imm.signExtend 64)
    let e : Nat := 2 ^ sz.toNat
    let n : Nat := if wide then 8 else 4
    let same := fun (o : Host.Outcome State Fault Refusal) => ∃ u, o = .next u ∧ u.mem = s.mem
    let onlyAt := fun (m : Nat) (o : Host.Outcome State Fault Refusal) => ∃ u, o = .next u ∧ memOk u ∧
      ∀ k, (t.space = 0 → k < lmKey t.owner t.addr ∨ lmKey t.owner t.addr + m ≤ k) → memGet u.mem k = memGet s.mem k
    (hasRoom s 1 1 → passes s h off e e .load false t → same (exec (.lds imm h sz a d) s) ∧ same (exec (.ldz imm h sz a d) s)) ∧
    (hasRoom s 2 1 → passes s h off (2 * e) e .load false t → same (exec (.ldp imm h sz a d) s)) ∧
    (hasRoom s 0 1 → passes s h off e e .store false t → onlyAt e (exec (.st imm h sz a d) s)) ∧
    (hasRoom s 0 1 → passes s h off (2 * e) e .store false t → onlyAt (2 * e) (exec (.stp imm h sz a d) s)) ∧
    (hasRoom s 1 1 → passes s h (s.xr a) n n .atomic (op == .fadd) t → onlyAt n (exec (.amo wide op ord h b a d) s)) ∧
    (hasRoom s 1 1 → passes s h (s.xr a) n n .atomic false t →
      onlyAt n (exec (.cas wide ord h b a d) s) ∧ onlyAt n (exec (.amog wide ord h b a d) s)) ∧
    (∀ (acc : Access) (bytes : List Byte), (s.ring acc.owner).mode = 0 → (s.ring acc.owner).entries.length < 64 →
      (s.core acc.owner).portRefuses = false →
      (s.ev = some (.store acc) → acc.op = .store bytes → ∃ u, exec .store s = .next u ∧ memOk u ∧
        ∀ k, memGet u.mem k = if lmKey acc.owner acc.addr ≤ k ∧ k < lmKey acc.owner acc.addr + bytes.length
          then bytes.getD (k - lmKey acc.owner acc.addr) 0 else memGet s.mem k) ∧
      (∀ m, s.ev = some (.load acc) → acc.op = .load m → same (exec .load s)))

/-- For every state whose issuing frame holds no lanes (N = 0), with a legal FRM, and all operands: every vector
instruction of the A-space whose rounding code is not reserved and whose scalar f operand, where it has one, is below
16 raises cause 56 with the A-slot word in EVAL (VSCAN with fx[3] set is cause 2); VLD, VST, VLDX, VSTX, VSBIND and
VSFREE raise it with the C-slot word; VFREE changes nothing. (A reserved rounding code or f register of an FP tag is
cause 2 first: log entry 25.) Cause 56 for a VTAG without lanes is the model's reading of R276 beside R296 (log entry
22). -/
def Obligations.VectorInstructionsNeedLanes : Prop :=
  ∀ (s : State) (x e sat : Bool) (r : BitVec 3) (rm : Rnd) (t : Tag) (cond : VCond) (tb : BitVec 4) (fmt : BxFmt) (h : HReg) (c b a d : Reg),
    s.cf.nLanes = 0 → s.cf.fcsr.toNat / 32 % 8 ≤ 4 → r ≠ 5 → r ≠ 6 → (x = true → b.toNat < 16) → (e = true → d.toNat < 16) →
    let A : Host.Outcome State Fault Refusal := .next (s.raise 56 (s.iss.w1.setWidth 64))
    let C : Host.Outcome State Fault Refusal := .next (s.raise 56 (s.iss.w0.setWidth 64))
    (exec (.vadd x sat r b a d) s = A ∧ exec (.vsub x sat r b a d) s = A ∧ exec (.vmul x sat r b a d) s = A ∧ exec (.vmin x r b a d) s = A ∧
      exec (.vmax x r b a d) s = A ∧ exec (.vand x r b a d) s = A ∧ exec (.vor x r b a d) s = A ∧ exec (.vxor x r b a d) s = A ∧
      exec (.vshl x r b a d) s = A ∧ exec (.vshr x r b a d) s = A ∧ exec (.vcmp x cond b a d) s = A ∧ exec (.vabs sat r a d) s = A ∧
      exec (.vneg sat r a d) s = A ∧ exec (.vmov x tb a d) s = A) ∧
    (exec (.vfma c b a d) s = A ∧ exec (.vfms c b a d) s = A ∧ exec (.vsel c b a d) s = A ∧ exec (.vdot c b a d) s = A) ∧
    (exec (.vrsum e sat r a d) s = A ∧ exec (.vrmax e a d) s = A ∧ exec (.vrmin e a d) s = A ∧ exec (.vscan false r a d) s = A ∧ exec (.vscan true r a d) s = .next s.illegalA ∧ exec (.vbmax e a d) s = A) ∧
    (exec (.vexp2 rm a d) s = A ∧ exec (.vlog2 rm a d) s = A ∧ exec (.vrcp rm a d) s = A ∧ exec (.vrsq rm a d) s = A) ∧
    (exec (.vcvt t r a d) s = A ∧ exec (.vtag t a d) s = A ∧ exec (.vqnt fmt r b a d) s = A ∧ exec (.vext b a d) s = A ∧ exec (.vperm b a d) s = A) ∧
    (exec (.vld h t a d) s = C ∧ exec (.vst h a d) s = C ∧ exec (.vldx h t b a d) s = C ∧ exec (.vstx h b a d) s = C ∧
      exec (.vsbind a d) s = C ∧ exec (.vsfree d) s = C) ∧
    exec .vfree s = .next s

/-- For every state, task or memory core, window, value and result that is not for a CSR, dead or not, for a write stream
or not: after the write-back a bit of FCSR is set exactly when it was set before or it is one of NV, DZ, OF, UF, NX
(bits 4 to 0) or SAT (bit 8) and the result raised that flag; the FCSR of every other frame is as it was; the STICKY
bits of the geode of a task core are the old ones ORed with the flags. -/
def Obligations.FlagsAccrueAndStay : Prop :=
  ∀ (s : State) (ep win : Nat) (r : Result) (val : ResVal) (fl : FlagSet) (poison : Bool), win < 8 →
    (∀ n, r.dst ≠ .csr n) →
    let t := s.writeBack ep win r val fl poison
    let old := (s.frame ep win).fcsr
    let new := (t.frame ep win).fcsr
    (∀ i, new.getLsbD i = (old.getLsbD i || (decide (i < 5) && fl.getLsbD i) || (decide (i = 8) && fl.getLsbD 5))) ∧
    (∀ w, w ≠ win → (t.frame ep w).fcsr = (s.frame ep w).fcsr) ∧ (∀ e w, e ≠ ep → (t.frame e w).fcsr = (s.frame e w).fcsr) ∧
    (isMemCore ep = false → (t.geode (epGeode ep)).sticky = (s.geode (epGeode ep)).sticky ||| fl)

/-- For every state in which a bundle of two slots issues, both holding integer, immediate, bit, select, scalar FP, LI,
LPC, jump or branch instructions without poisoned sources: an outcome that ends in a fault is the state at issue with
one precise fault raised in it, so that memory, every register and every outstanding result are as they were, the pc
is that of the bundle, and the frame is FAULTING with the fault’s cause, value and pc pending. -/
def Obligations.FaultsOfRegisterFormsLeaveNoEffect : Prop :=
  ∀ (v t : State) (i j : Instr), v.iss.win < 8 → v.iss.stop = .go → v.iss.lone = false →
    decodeC v.iss.w0 false = .ok i → decodeA v.iss.w1 = .ok j → registerForm i = true → registerForm j = true →
    v.cf.poisoned i = none → v.cf.poisoned j = none → v.slots = .next t → t.iss.stop = .fault →
    ∃ order cause value, t = ({ v with iss := { v.iss with order := order } } : State).raise cause value ∧
      t.mem = v.mem ∧ sameRegisters t.cf v.cf ∧ t.cf.outs = v.cf.outs ∧ t.cf.pc = v.iss.pc ∧ t.cf.st = .faulting ∧
      t.cf.pending = some (PFault.mk (BitVec.ofNat 6 cause) value v.iss.pc false)

/-- For every state and operands: a load, pair load or atomic that would leave more than 16 results of variable latency
outstanding, whatever its operands, changes nothing but that the frame is parked before the bundle until its results
are written back; with room for its results, a load, store or atomic whose core already has 32 entries of its access
queue taken parks the frame the same way until the queue has room. Counting the result of a load for x0 (log entry
51), and the order of the two parks, before the checks of R120 (log entry 45), are the model's readings. -/
def Obligations.BundlesWithoutRoomPark : Prop :=
  ∀ (s : State) (imm : BitVec 9) (h : HReg) (sz : BitVec 2) (a b d : Reg) (wide : Bool) (op : AmoOp) (ord : MemOrd),
    let waiting := (s.cf.outs.filter (fun r => r.due.isNone)).length
    let parked := fun (why : Hold) => (.next { s.modCf (fun f => { f with st := .parked, hold := why, pc := s.iss.pc }) with
      iss := { s.iss with stop := .held } } : Host.Outcome State Fault Refusal)
    (16 < waiting + 1 → exec (.lds imm h sz a d) s = parked .results ∧ exec (.ldz imm h sz a d) s = parked .results ∧
      exec (.amo wide op ord h b a d) s = parked .results ∧ exec (.cas wide ord h b a d) s = parked .results ∧
      exec (.amog wide ord h b a d) s = parked .results) ∧
    (16 < waiting + 2 → exec (.ldp imm h sz a d) s = parked .results) ∧
    (waiting + 2 ≤ 16 → 32 < s.cc.queueDepth + 1 →
      exec (.lds imm h sz a d) s = parked .queue ∧ exec (.ldz imm h sz a d) s = parked .queue ∧ exec (.ldp imm h sz a d) s = parked .queue ∧
      exec (.st imm h sz a d) s = parked .queue ∧ exec (.stp imm h sz a d) s = parked .queue ∧ exec (.amo wide op ord h b a d) s = parked .queue ∧
      exec (.cas wide ord h b a d) s = parked .queue ∧ exec (.amog wide ord h b a d) s = parked .queue)
end

