-- ==== Sys2Proof/Laws/State.lean ====
section
/-! SUPPORT. What reading a field gives after an update: maps, vectors, and the named updates of the state. -/

namespace Sys2Proof.Machine

/-! ## Maps -/

@[simp] theorem SMap.get_put_same {α : Type} (d : α) (m : SMap α) (k : Nat) (v : α) : (m.put k v).get d k = v := by
  induction m with
  | nil => simp [SMap.put, SMap.get]
  | cons p m ih =>
    obtain ⟨i, w⟩ := p
    unfold SMap.put
    split
    · simp [SMap.get]
    · split
      · simp [SMap.get]
      · rename_i _ h
        have hne : i ≠ k := fun e => h (by simp [e])
        simp [SMap.get, hne, ih]

theorem SMap.get_put_other {α : Type} (d : α) (m : SMap α) (k j : Nat) (v : α) (h : j ≠ k) :
    (m.put k v).get d j = m.get d j := by
  induction m with
  | nil => simp [SMap.put, SMap.get, Ne.symm h]
  | cons p m ih =>
    obtain ⟨i, w⟩ := p
    unfold SMap.put
    split
    · simp [SMap.get, Ne.symm h]
    · split
      · rename_i _ e
        have hik : i ≠ j := by intro hij; exact h (by rw [← hij]; simpa using Eq.symm (by simpa using e))
        simp [SMap.get, Ne.symm h, hik]
      · by_cases hij : i = j
        · simp [SMap.get, hij]
        · simp [SMap.get, hij, ih]

/-! ## Vectors -/

@[simp] theorem vget_vset_same {α : Type} {n : Nat} (d : α) (v : Vector α n) (i : Nat) (a : α) (h : i < n) :
    vget d (vset v i a) i = a := by simp [vget, vset, h]
theorem vget_vset_other {α : Type} {n : Nat} (d : α) (v : Vector α n) (i j : Nat) (a : α) (h : j ≠ i) :
    vget d (vset v i a) j = vget d v j := by
  unfold vget vset
  split
  · split
    · exact Vector.getElem_set_ne _ _ (Ne.symm h)
    · rfl
  · rfl

/-! ## Cores, windows, geodes -/

@[simp] theorem State.core_setCore (s : State) (ep : Nat) (c : Core) : (s.setCore ep c).core ep = c := by
  simp [State.core, State.setCore]
theorem State.core_setCore_other (s : State) (ep e : Nat) (c : Core) (h : e ≠ ep) : (s.setCore ep c).core e = s.core e := by
  simp [State.core, State.setCore, SMap.get_put_other, h]
@[simp] theorem State.core_modCore (s : State) (ep : Nat) (g : Core → Core) : (s.modCore ep g).core ep = g (s.core ep) := by
  simp [State.modCore]
theorem State.core_modCore_other (s : State) (ep e : Nat) (g : Core → Core) (h : e ≠ ep) : (s.modCore ep g).core e = s.core e := by
  simp [State.modCore, State.core_setCore_other, h]
@[simp] theorem Core.win_setWin (c : Core) (w : Nat) (f : Frame) (h : w < 8) : (c.setWin w f).win w = f := by
  simp [Core.win, Core.setWin, h]
theorem Core.win_setWin_other (c : Core) (w k : Nat) (f : Frame) (h : k ≠ w) : (c.setWin w f).win k = c.win k := by
  simp [Core.win, Core.setWin, vget_vset_other, h]
@[simp] theorem State.frame_setFrame (s : State) (ep w : Nat) (f : Frame) (h : w < 8) : (s.setFrame ep w f).frame ep w = f := by
  simp [State.frame, State.setFrame, h]
theorem State.frame_setFrame_win (s : State) (ep w k : Nat) (f : Frame) (h : k ≠ w) : (s.setFrame ep w f).frame ep k = s.frame ep k := by
  simp [State.frame, State.setFrame, Core.win_setWin_other, h]
theorem State.frame_setFrame_core (s : State) (ep e w k : Nat) (f : Frame) (h : e ≠ ep) : (s.setFrame ep w f).frame e k = s.frame e k := by
  simp [State.frame, State.setFrame, State.core_setCore_other, h]
@[simp] theorem State.frame_modFrame (s : State) (ep w : Nat) (g : Frame → Frame) (h : w < 8) :
    (s.modFrame ep w g).frame ep w = g (s.frame ep w) := by simp [State.modFrame, h]
@[simp] theorem State.geode_setGeode (s : State) (k : Nat) (v : Geode) : (s.setGeode k v).geode k = v := by
  simp [State.geode, State.setGeode]

/-! ## Fields that the named updates leave -/

@[simp] theorem State.setCore_mem (s : State) (ep : Nat) (c : Core) : (s.setCore ep c).mem = s.mem := rfl
@[simp] theorem State.setCore_iss (s : State) (ep : Nat) (c : Core) : (s.setCore ep c).iss = s.iss := rfl
@[simp] theorem State.setCore_now (s : State) (ep : Nat) (c : Core) : (s.setCore ep c).now = s.now := rfl
@[simp] theorem State.setCore_net (s : State) (ep : Nat) (c : Core) : (s.setCore ep c).net = s.net := rfl
@[simp] theorem State.setCore_uid (s : State) (ep : Nat) (c : Core) : (s.setCore ep c).uid = s.uid := rfl
@[simp] theorem State.setCore_geodes (s : State) (ep : Nat) (c : Core) : (s.setCore ep c).geodes = s.geodes := rfl
@[simp] theorem State.setCore_outbox (s : State) (ep : Nat) (c : Core) : (s.setCore ep c).outbox = s.outbox := rfl
@[simp] theorem State.setCore_pkg (s : State) (ep : Nat) (c : Core) : (s.setCore ep c).pkg = s.pkg := rfl
@[simp] theorem State.setCore_ev (s : State) (ep : Nat) (c : Core) : (s.setCore ep c).ev = s.ev := rfl
@[simp] theorem State.modCore_mem (s : State) (ep : Nat) (g : Core → Core) : (s.modCore ep g).mem = s.mem := rfl
@[simp] theorem State.modCore_iss (s : State) (ep : Nat) (g : Core → Core) : (s.modCore ep g).iss = s.iss := rfl
@[simp] theorem State.modCore_now (s : State) (ep : Nat) (g : Core → Core) : (s.modCore ep g).now = s.now := rfl
@[simp] theorem State.modCore_net (s : State) (ep : Nat) (g : Core → Core) : (s.modCore ep g).net = s.net := rfl
@[simp] theorem State.modCore_uid (s : State) (ep : Nat) (g : Core → Core) : (s.modCore ep g).uid = s.uid := rfl
@[simp] theorem State.modCore_geodes (s : State) (ep : Nat) (g : Core → Core) : (s.modCore ep g).geodes = s.geodes := rfl
@[simp] theorem State.setFrame_mem (s : State) (ep w : Nat) (f : Frame) : (s.setFrame ep w f).mem = s.mem := rfl
@[simp] theorem State.setFrame_iss (s : State) (ep w : Nat) (f : Frame) : (s.setFrame ep w f).iss = s.iss := rfl
@[simp] theorem State.setFrame_now (s : State) (ep w : Nat) (f : Frame) : (s.setFrame ep w f).now = s.now := rfl
@[simp] theorem State.setFrame_net (s : State) (ep w : Nat) (f : Frame) : (s.setFrame ep w f).net = s.net := rfl
@[simp] theorem State.setFrame_uid (s : State) (ep w : Nat) (f : Frame) : (s.setFrame ep w f).uid = s.uid := rfl
@[simp] theorem State.setFrame_geodes (s : State) (ep w : Nat) (f : Frame) : (s.setFrame ep w f).geodes = s.geodes := rfl
@[simp] theorem State.modFrame_mem (s : State) (ep w : Nat) (g : Frame → Frame) : (s.modFrame ep w g).mem = s.mem := rfl
@[simp] theorem State.modFrame_iss (s : State) (ep w : Nat) (g : Frame → Frame) : (s.modFrame ep w g).iss = s.iss := rfl
@[simp] theorem State.modFrame_now (s : State) (ep w : Nat) (g : Frame → Frame) : (s.modFrame ep w g).now = s.now := rfl
@[simp] theorem State.modFrame_net (s : State) (ep w : Nat) (g : Frame → Frame) : (s.modFrame ep w g).net = s.net := rfl
@[simp] theorem State.modFrame_geodes (s : State) (ep w : Nat) (g : Frame → Frame) : (s.modFrame ep w g).geodes = s.geodes := rfl
@[simp] theorem State.setCf_mem (s : State) (f : Frame) : (s.setCf f).mem = s.mem := rfl
@[simp] theorem State.setCf_iss (s : State) (f : Frame) : (s.setCf f).iss = s.iss := rfl
@[simp] theorem State.setCf_now (s : State) (f : Frame) : (s.setCf f).now = s.now := rfl
@[simp] theorem State.setCf_net (s : State) (f : Frame) : (s.setCf f).net = s.net := rfl
@[simp] theorem State.modCf_mem (s : State) (g : Frame → Frame) : (s.modCf g).mem = s.mem := rfl
@[simp] theorem State.modCf_iss (s : State) (g : Frame → Frame) : (s.modCf g).iss = s.iss := rfl
@[simp] theorem State.modCf_now (s : State) (g : Frame → Frame) : (s.modCf g).now = s.now := rfl
@[simp] theorem State.modCf_net (s : State) (g : Frame → Frame) : (s.modCf g).net = s.net := rfl
@[simp] theorem State.modCf_uid (s : State) (g : Frame → Frame) : (s.modCf g).uid = s.uid := rfl
@[simp] theorem State.modGeode_mem (s : State) (k : Nat) (g : Geode → Geode) : (s.modGeode k g).mem = s.mem := rfl
@[simp] theorem State.modGeode_cores (s : State) (k : Nat) (g : Geode → Geode) : (s.modGeode k g).cores = s.cores := rfl
@[simp] theorem State.modGeode_iss (s : State) (k : Nat) (g : Geode → Geode) : (s.modGeode k g).iss = s.iss := rfl
@[simp] theorem State.send_mem (s : State) (c a b : Nat) (ev : Event) : (s.send c a b ev).mem = s.mem := rfl
@[simp] theorem State.send_cores (s : State) (c a b : Nat) (ev : Event) : (s.send c a b ev).cores = s.cores := rfl
@[simp] theorem State.send_iss (s : State) (c a b : Nat) (ev : Event) : (s.send c a b ev).iss = s.iss := rfl
@[simp] theorem State.send_net (s : State) (c a b : Nat) (ev : Event) : (s.send c a b ev).net = s.net ++ [s.msgAt a c a b ev] := rfl
@[simp] theorem State.later_mem (s : State) (ev : Event) : (s.later ev).mem = s.mem := rfl
@[simp] theorem State.later_cores (s : State) (ev : Event) : (s.later ev).cores = s.cores := rfl
@[simp] theorem State.later_iss (s : State) (ev : Event) : (s.later ev).iss = s.iss := rfl
@[simp] theorem State.later_net (s : State) (ev : Event) : (s.later ev).net = s.net ++ [Msg.op ev] := rfl
@[simp] theorem State.out_mem (s : State) (m : OutMsg) : (s.out m).mem = s.mem := rfl
@[simp] theorem State.out_cores (s : State) (m : OutMsg) : (s.out m).cores = s.cores := rfl
@[simp] theorem State.out_net (s : State) (m : OutMsg) : (s.out m).net = s.net := rfl

/-! ## Results -/

@[simp] theorem State.addResult_iss (s : State) (d : Dst) (due : Option Nat) (v : ResVal) (fl : FlagSet) (n : Nat) :
    (s.addResult d due v fl n).2.iss = s.iss := rfl
@[simp] theorem State.addResult_mem (s : State) (d : Dst) (due : Option Nat) (v : ResVal) (fl : FlagSet) (n : Nat) :
    (s.addResult d due v fl n).2.mem = s.mem := rfl
@[simp] theorem State.addResult_net (s : State) (d : Dst) (due : Option Nat) (v : ResVal) (fl : FlagSet) (n : Nat) :
    (s.addResult d due v fl n).2.net = s.net := rfl
@[simp] theorem State.fixed_iss (s : State) (d : Dst) (v : ResVal) (fl : FlagSet) (n : Nat) : (s.fixed d v fl n).iss = s.iss := rfl
@[simp] theorem State.fixed_mem (s : State) (d : Dst) (v : ResVal) (fl : FlagSet) (n : Nat) : (s.fixed d v fl n).mem = s.mem := rfl
@[simp] theorem State.fixed_net (s : State) (d : Dst) (v : ResVal) (fl : FlagSet) (n : Nat) : (s.fixed d v fl n).net = s.net := rfl
@[simp] theorem State.fixed_geodes (s : State) (d : Dst) (v : ResVal) (fl : FlagSet) (n : Nat) :
    (s.fixed d v fl n).geodes = s.geodes := rfl
@[simp] theorem State.fixedX_iss (s : State) (r : Reg) (v : Word) (n : Nat) : (s.fixedX r v n).iss = s.iss := by
  unfold State.fixedX; split <;> rfl
@[simp] theorem State.fixedX_mem (s : State) (r : Reg) (v : Word) (n : Nat) : (s.fixedX r v n).mem = s.mem := by
  unfold State.fixedX; split <;> rfl
@[simp] theorem State.fixedX_net (s : State) (r : Reg) (v : Word) (n : Nat) : (s.fixedX r v n).net = s.net := by
  unfold State.fixedX; split <;> rfl
@[simp] theorem State.fixedX_zero (s : State) (v : Word) (n : Nat) : s.fixedX 0 v n = s := rfl
@[simp] theorem State.fixedXF_iss (s : State) (r : Reg) (v : Word) (fl : FlagSet) (n : Nat) : (s.fixedXF r v fl n).iss = s.iss := rfl
@[simp] theorem State.fixedF_iss (s : State) (r : Reg) (v : Word) (fl : FlagSet) (n : Nat) : (s.fixedF r v fl n).iss = s.iss := rfl
@[simp] theorem State.raise_mem (s : State) (c : Nat) (v : Word) : (s.raise c v).mem = s.mem := rfl
@[simp] theorem State.raise_stop (s : State) (c : Nat) (v : Word) : (s.raise c v).iss.stop = .fault := rfl
@[simp] theorem State.hold_mem (s : State) (h : Hold) : (s.hold h).mem = s.mem := rfl
@[simp] theorem State.hold_stop (s : State) (h : Hold) : (s.hold h).iss.stop = .held := rfl

/-- An issuing frame that has a window reads back what is put in it. -/
@[simp] theorem State.cf_setCf (s : State) (f : Frame) (h : s.iss.win < 8) : (s.setCf f).cf = f := by
  simp [State.cf, State.setCf, State.frame_setFrame, h]
@[simp] theorem State.cf_modCf (s : State) (g : Frame → Frame) (h : s.iss.win < 8) : (s.modCf g).cf = g s.cf := by
  simp [State.modCf, h]

end Sys2Proof.Machine
end

