-- ==== Sys2Proof/Laws/Access.lean ====
section
/-! SUPPORT. What an access can do: reading and writing bytes, the canonical form of memory, and the fields that the access queue
leaves alone. -/

namespace Sys2Proof.Machine

/-! ## Bytes of memory -/

/-- A read after a write: the byte written at its place, the old byte elsewhere. -/
theorem memGet_memSet (m : List Host.Cell) (k j : Nat) (v : Byte) (lo : Nat) (h : memWfFrom lo m = true) :
    memGet (memSet m k v) j = if j = k then v else memGet m j := by
  induction m generalizing lo with
  | nil =>
    by_cases hv : v = 0 <;> by_cases hj : j = k
    · simp [memSet, hv, memGet]
    · simp [memSet, hv, memGet]
    · subst hj; simp only [memSet, beq_iff_eq, hv, if_false]; simp [memGet]
    · simp only [memSet, beq_iff_eq, hv, if_false]; simp [memGet, hj, Ne.symm hj]
  | cons p m ih =>
    obtain ⟨i, b⟩ := p
    simp only [memWfFrom, Bool.and_eq_true, decide_eq_true_eq] at h
    obtain ⟨⟨h1, h2⟩, h3⟩ := h
    have hlow : ∀ (n : List Host.Cell) (lo q : Nat), memWfFrom lo n = true → q < lo → memGet n q = 0 := by
      intro n
      induction n with
      | nil => intros; rfl
      | cons p n ihn =>
        obtain ⟨i', b'⟩ := p
        intro lo q hw hq
        simp only [memWfFrom, Bool.and_eq_true, decide_eq_true_eq] at hw
        have : ¬ i' = q := by omega
        simp only [memGet, beq_iff_eq, this, if_false]
        exact ihn (i' + 1) q hw.2 (by omega)
    simp only [memSet, beq_iff_eq]
    split
    · rename_i hki
      have hik : ¬ i = k := by omega
      split
      · rename_i hv
        by_cases hj : j = k
        · subst hj
          simp only [memGet, beq_iff_eq, hik, if_false, if_true, hv]
          exact hlow m (i + 1) j h3 (by omega)
        · simp [hj]
      · by_cases hj : j = k
        · subst hj; simp [memGet]
        · simp [memGet, hj, Ne.symm hj]
    · split
      · rename_i hki
        subst hki
        split
        · rename_i hv
          by_cases hj : j = k
          · subst hj; simp only [if_true, hv]; exact hlow m (j + 1) j h3 (by omega)
          · simp [memGet, hj, Ne.symm hj]
        · by_cases hj : j = k
          · subst hj; simp [memGet]
          · simp [memGet, hj, Ne.symm hj]
      · rename_i h4 h5
        by_cases hij : i = j
        · have : ¬ j = k := by omega
          simp [memGet, hij, this]
        · simp [memGet, hij, ih (i + 1) h3]

/-- Writing a byte keeps the canonical form. -/
theorem memSet_wf (m : List Host.Cell) (k : Nat) (v : Byte) (lo : Nat) (hk : lo ≤ k) (h : memWfFrom lo m = true) :
    memWfFrom lo (memSet m k v) = true := by
  induction m generalizing lo with
  | nil =>
    simp only [memSet, beq_iff_eq]
    split
    · rfl
    · rename_i hv
      simp only [memWfFrom, Bool.and_true, Bool.and_eq_true, decide_eq_true_eq]
      exact ⟨hk, bne_iff_ne.2 hv⟩
  | cons p m ih =>
    obtain ⟨i, b⟩ := p
    have h' := h
    simp only [memWfFrom, Bool.and_eq_true, decide_eq_true_eq] at h
    obtain ⟨⟨h1, h2⟩, h3⟩ := h
    simp only [memSet, beq_iff_eq]
    split
    · rename_i hki
      split
      · exact h'
      · rename_i hv
        have : k + 1 ≤ i := by omega
        simp only [memWfFrom, Bool.and_eq_true, decide_eq_true_eq]
        exact ⟨⟨hk, by simpa using hv⟩, ⟨this, h2⟩, h3⟩
    · split
      · rename_i hki; subst hki
        split
        · have : ∀ (n : List Host.Cell) (a c : Nat), c ≤ a → memWfFrom a n = true → memWfFrom c n = true := by
            intro n a c hac hn
            cases n with
            | nil => rfl
            | cons p n =>
              obtain ⟨i', b'⟩ := p
              simp only [memWfFrom, Bool.and_eq_true, decide_eq_true_eq] at hn ⊢
              exact ⟨⟨by omega, hn.1.2⟩, hn.2⟩
          exact this m (k + 1) lo (by omega) h3
        · rename_i hv
          simp only [memWfFrom, Bool.and_eq_true, decide_eq_true_eq]
          exact ⟨⟨hk, by simpa using hv⟩, h3⟩
      · rename_i h4 h5
        simp only [memWfFrom, Bool.and_eq_true, decide_eq_true_eq]
        exact ⟨⟨h1, h2⟩, ih (i + 1) (by omega) h3⟩

/-- Writing bytes keeps the canonical form. -/
theorem memWrite_wf (l : List Byte) (m : List Host.Cell) (k : Nat) (h : Memory.wf m = true) : Memory.wf (memWrite m k l) = true := by
  induction l generalizing m k with
  | nil => exact h
  | cons b l ih => exact ih _ _ (memSet_wf m k b 0 (Nat.zero_le _) h)

/-- The canonical form as the order of the places and no byte 0. -/
theorem memWfFrom_iff (m : List Host.Cell) (lo : Nat) : memWfFrom lo m = true ↔
    (∀ c ∈ m, lo ≤ c.1) ∧ m.Pairwise (fun a b => a.1 < b.1) ∧ ∀ c ∈ m, c.2 ≠ 0 := by
  induction m generalizing lo with
  | nil => simp [memWfFrom]
  | cons p m ih =>
    obtain ⟨i, b⟩ := p
    simp only [memWfFrom, Bool.and_eq_true, decide_eq_true_eq, bne_iff_ne, ih, List.forall_mem_cons, List.pairwise_cons]
    constructor
    · rintro ⟨⟨h1, h2⟩, h3, h4, h5⟩
      exact ⟨⟨h1, fun c hc => by have := h3 c hc; omega⟩, ⟨fun c hc => h3 c hc, h4⟩, h2, h5⟩
    · rintro ⟨⟨h1, -⟩, ⟨h3, h4⟩, h2, h5⟩
      exact ⟨⟨h1, h2⟩, fun c hc => h3 c hc, h4, h5⟩

/-- Moving bytes keeps the canonical form. -/
theorem memMove_wf (m : List Host.Cell) (lo hi n : Nat) (h : Memory.wf m = true) : Memory.wf (memMove m lo hi n) = true := by
  obtain ⟨-, hp, hz⟩ := (memWfFrom_iff m 0).1 h
  refine (memWfFrom_iff _ 0).2 ⟨fun _ _ => Nat.zero_le _, ?_, ?_⟩
  · simp only [memMove, List.pairwise_append, List.pairwise_map, List.mem_append, List.mem_filter, List.mem_map,
      decide_eq_true_eq, Bool.and_eq_true]
    refine ⟨⟨hp.filter _, (hp.filter _).imp_of_mem (fun ha hb hab => ?_), ?_⟩, hp.filter _, ?_⟩
    · simp only [List.mem_filter, decide_eq_true_eq, Bool.and_eq_true] at ha hb
      omega
    · rintro a ⟨-, ha⟩ b ⟨c, ⟨-, hc⟩, rfl⟩
      simp only
      omega
    · rintro a (⟨-, ha⟩ | ⟨c, ⟨-, hc⟩, rfl⟩) b ⟨-, hb⟩
      · omega
      · simp only
        omega
  · intro c hc
    simp only [memMove, List.mem_append, List.mem_filter, List.mem_map] at hc
    rcases hc with (⟨hc, -⟩ | ⟨d, ⟨hd, -⟩, rfl⟩) | ⟨hc, -⟩
    · exact hz c hc
    · exact hz d hd
    · exact hz c hc

/-- A byte after bytes were written from place `k` on: the one written there, or the old one outside. -/
theorem memGet_memWrite (l : List Byte) (m : List Host.Cell) (k j : Nat) (h : Memory.wf m = true) :
    memGet (memWrite m k l) j = if k ≤ j ∧ j < k + l.length then l.getD (j - k) 0 else memGet m j := by
  induction l generalizing m k with
  | nil =>
    have : ¬ (k ≤ j ∧ j < k + 0) := by omega
    simp only [memWrite, List.length_nil, this, if_false]
  | cons b l ih =>
    have hw := memSet_wf m k b 0 (Nat.zero_le _) h
    rw [memWrite, ih _ _ hw, memGet_memSet m k j b 0 h]
    by_cases h1 : k + 1 ≤ j ∧ j < k + 1 + l.length
    · have h2 : k ≤ j ∧ j < k + (l.length + 1) := by omega
      have h3 : j - k = (j - (k + 1)) + 1 := by omega
      simp [h1, h2, h3]
    · by_cases h2 : j = k
      · subst h2; have : ¬ (j + 1 ≤ j ∧ j < j + 1 + l.length) := by omega
        simp
      · have h3 : ¬ (k ≤ j ∧ j < k + (l.length + 1)) := by omega
        simp only [h1, h2, if_false, List.length_cons, h3]

/-! ## Fields that accesses leave -/

/-- A fold of steps that keep a field keeps it. -/
theorem foldl_keeps {α β γ : Type} (p : α → γ) (f : α → β → α) (h : ∀ a b, p (f a b) = p a) (l : List β) (a : α) :
    p (l.foldl f a) = p a := by
  induction l generalizing a with
  | nil => rfl
  | cons b l ih => exact (ih (f a b)).trans (h a b)

@[simp] theorem State.sendRelease_iss (s : State) (ep : Nat) (r : Release) : (s.sendRelease ep r).iss = s.iss := rfl
@[simp] theorem State.sendRelease_mem (s : State) (ep : Nat) (r : Release) : (s.sendRelease ep r).mem = s.mem := rfl
@[simp] theorem State.fireMonitors_iss (s : State) (ep off n : Nat) : (s.fireMonitors ep off n).iss = s.iss := by
  unfold State.fireMonitors
  dsimp only
  split
  · rfl
  · exact foldl_keeps State.iss _ (by intros; rfl) _ _
@[simp] theorem State.fireMonitors_mem (s : State) (ep off n : Nat) : (s.fireMonitors ep off n).mem = s.mem := by
  unfold State.fireMonitors
  dsimp only
  split
  · rfl
  · exact foldl_keeps State.mem _ (by intros; rfl) _ _
@[simp] theorem State.lmWrite_iss (s : State) (ep off : Nat) (b : List Byte) : (s.lmWrite ep off b).iss = s.iss := by
  simp [State.lmWrite, State.lmPoke, State.poke]
/-- A write at an LM port changes memory by its bytes. -/
@[simp] theorem State.lmWrite_mem (s : State) (ep off : Nat) (b : List Byte) :
    (s.lmWrite ep off b).mem = memWrite s.mem (lmKey ep off) b := by
  simp [State.lmWrite, State.lmPoke, State.poke]
@[simp] theorem State.freeBytes_iss (s : State) (n : Nat) : (s.freeBytes n).2.iss = s.iss := rfl
@[simp] theorem State.freeBytes_mem (s : State) (n : Nat) : (s.freeBytes n).2.mem = s.mem := rfl
@[simp] theorem State.lmPerform_iss (s : State) (ep off : Nat) (op : AccOp) : (s.lmPerform ep off op).1.iss = s.iss := by
  unfold State.lmPerform
  rcases op.apply (s.lmRead ep off op.size) with ⟨w, r⟩
  cases w <;> dsimp only <;> split <;> first | rfl | simp
/-- What an access does to memory at an LM port: the bytes it stores, if any, are written, unless what it reads holds an uncorrectable
error. -/
theorem State.lmPerform_mem (s : State) (ep off : Nat) (op : AccOp) :
    (s.lmPerform ep off op).1.mem = (if op.reads && s.lmBad ep off op.size then s.mem
      else match (op.apply (s.lmRead ep off op.size)).1 with
      | none => s.mem
      | some b => memWrite s.mem (lmKey ep off) b) := by
  unfold State.lmPerform
  rcases op.apply (s.lmRead ep off op.size) with ⟨w, r⟩
  cases w <;> dsimp only <;> split <;> first | rfl | simp
@[simp] theorem State.slabApply_iss (s : State) (sl line : Nat) : (s.slabApply sl line).iss = s.iss := rfl
@[simp] theorem State.slabApply_mem (s : State) (sl line : Nat) : (s.slabApply sl line).mem = s.mem := rfl
@[simp] theorem State.applyAll_iss (s : State) (ep : Nat) : (s.applyAll ep).iss = s.iss :=
  foldl_keeps State.iss _ (by intros; rfl) _ _
@[simp] theorem State.applyAll_mem (s : State) (ep : Nat) : (s.applyAll ep).mem = s.mem :=
  foldl_keeps State.mem _ (by intros; rfl) _ _
@[simp] theorem State.performed_iss (s : State) (ep id : Nat) : (s.performed ep id).iss = s.iss := by
  unfold State.performed
  dsimp only
  split <;> simp
@[simp] theorem State.performed_mem (s : State) (ep id : Nat) : (s.performed ep id).mem = s.mem := by
  unfold State.performed
  dsimp only
  split <;> simp
@[simp] theorem State.complete_iss (s : State) (a : Access) (b : List Byte) (p : Bool) : (s.complete a b p).iss = s.iss := by
  unfold State.complete
  dsimp only
  repeat' (first | rfl | split)
@[simp] theorem State.complete_mem (s : State) (a : Access) (b : List Byte) (p : Bool) : (s.complete a b p).mem = s.mem := by
  unfold State.complete
  dsimp only
  repeat' (first | rfl | split)
@[simp] theorem State.cacheAccess_iss (s : State) (a : Access) (x y : Bool) : (s.cacheAccess a x y).iss = s.iss := by
  unfold State.cacheAccess
  dsimp only
  repeat' (first | rfl | (simp; done) | split)
@[simp] theorem State.cacheAccess_mem (s : State) (a : Access) (x y : Bool) : (s.cacheAccess a x y).mem = s.mem := by
  unfold State.cacheAccess
  dsimp only
  repeat' (first | rfl | (simp; done) | split)
@[simp] theorem State.dispatch_iss (s : State) (a : Access) : (s.dispatch a).iss = s.iss := by
  unfold State.dispatch
  dsimp only
  split
  · exact foldl_keeps State.iss _ (by intros; rfl) _ _
  · split
    · simp
    · simp
    · rfl
    · rfl
@[simp] theorem State.leave_iss (s : State) (ep : Nat) (e : QEnt) : (s.leave ep e).iss = s.iss := by
  unfold State.leave
  split
  · simp [State.markLeft]
  · rfl
  · rw [foldl_keeps State.iss _ (by intros; split <;> rfl)]; simp
@[simp] theorem State.enqueue_iss (s : State) (ep : Nat) (e : QEnt) : (s.enqueue ep e).iss = s.iss := by
  unfold State.enqueue
  dsimp only
  split
  · rfl
  · split <;> simp
@[simp] theorem State.accessG_iss (s : State) (t : Target) (o : Nat) (r : Option Nat) (p : Nat) (op : AccOp) (m : MemOrd) (g : Nat) (q : Bool) :
    (s.accessG t o r p op m g q).iss = s.iss := by simp [State.accessG]
@[simp] theorem State.access_iss (s : State) (t : Target) (o : Nat) (r : Option Nat) (p : Nat) (op : AccOp) (m : MemOrd) :
    (s.access t o r p op m).iss = s.iss := by simp [State.access]
@[simp] theorem State.releaseThen_iss (s : State) (sc : Scope) (l : List (Nat × Nat × Nat × Event)) : (s.releaseThen sc l).iss = s.iss := by
  simp [State.releaseThen]

end Sys2Proof.Machine
end

