-- ==== Sys2Proof/Laws/Encoding.lean ====
section
/-! SUPPORT. The fields of an encoded word, and the codes of the selector fields read back. -/

namespace Sys2Proof.Laws
open Sys2Proof Sys2Proof.Machine

/-! ## Fields of a concatenation -/

theorem append_hi {n m : Nat} (x : BitVec n) (y : BitVec m) : (x ++ y).extractLsb' m n = x := by
  ext i hi; simp [BitVec.getLsbD_append, BitVec.getLsbD_eq_getElem hi]
theorem append_lo {n m : Nat} (x : BitVec n) (y : BitVec m) : (x ++ y).extractLsb' 0 m = y := by
  ext i hi; simp [BitVec.getLsbD_append, hi]
theorem append_at {n m : Nat} (x : BitVec n) (y : BitVec m) (s w : Nat) (h : m ≤ s) : (x ++ y).extractLsb' s w = x.extractLsb' (s - m) w := by
  ext i hi; simp [BitVec.getLsbD_append]; split
  · omega
  · congr 1; omega
theorem append_in {n m : Nat} (x : BitVec n) (y : BitVec m) (s w : Nat) (h : s + w ≤ m) : (x ++ y).extractLsb' s w = y.extractLsb' s w := by
  ext i hi; simp [BitVec.getLsbD_append]; omega

/-! ## Fields of a word, with and without its low bits W and L -/

theorem five_or (a : BitVec 9) (b c d : Reg) (m : BitVec 6) (k : BitVec 2) : five a b c d m ||| k.setWidth 32 = a ++ b ++ c ++ d ++ m ++ k := by
  unfold five
  apply BitVec.eq_of_getLsbD_eq
  intro i hi
  rw [BitVec.getLsbD_or, BitVec.getLsbD_append, BitVec.getLsbD_append (y := k), BitVec.getLsbD_setWidth]
  split
  · simp [hi]
  · rw [BitVec.getLsbD_of_ge k i (by omega)]; simp
theorem f9_five (a : BitVec 9) (b c d : Reg) (m : BitVec 6) (k : BitVec 2) : f9 (five a b c d m ||| k.setWidth 32) = a := by
  rw [five_or, f9, append_at _ _ _ _ (by decide), append_at _ _ _ _ (by decide), append_at _ _ _ _ (by decide), append_at _ _ _ _ (by decide), append_hi]
theorem fRs2_five (a : BitVec 9) (b c d : Reg) (m : BitVec 6) (k : BitVec 2) : fRs2 (five a b c d m ||| k.setWidth 32) = b := by
  rw [five_or, fRs2, append_at _ _ _ _ (by decide), append_at _ _ _ _ (by decide), append_at _ _ _ _ (by decide), append_at _ _ _ _ (by decide), append_lo]
theorem fRs1_five (a : BitVec 9) (b c d : Reg) (m : BitVec 6) (k : BitVec 2) : fRs1 (five a b c d m ||| k.setWidth 32) = c := by
  rw [five_or, fRs1, append_at _ _ _ _ (by decide), append_at _ _ _ _ (by decide), append_at _ _ _ _ (by decide), append_lo]
theorem fRd_five (a : BitVec 9) (b c d : Reg) (m : BitVec 6) (k : BitVec 2) : fRd (five a b c d m ||| k.setWidth 32) = d := by
  rw [five_or, fRd, append_at _ _ _ _ (by decide), append_at _ _ _ _ (by decide), append_lo]
theorem fMaj_five (a : BitVec 9) (b c d : Reg) (m : BitVec 6) (k : BitVec 2) : fMaj (five a b c d m ||| k.setWidth 32) = m := by
  rw [five_or, fMaj, append_at _ _ _ _ (by decide), append_lo]
theorem f9_word (a : BitVec 9) (b c d : Reg) (m : BitVec 6) : f9 (five a b c d m) = a := by
  rw [five, f9, append_at _ _ _ _ (by decide), append_at _ _ _ _ (by decide), append_at _ _ _ _ (by decide), append_at _ _ _ _ (by decide), append_hi]
theorem fRs2_word (a : BitVec 9) (b c d : Reg) (m : BitVec 6) : fRs2 (five a b c d m) = b := by
  rw [five, fRs2, append_at _ _ _ _ (by decide), append_at _ _ _ _ (by decide), append_at _ _ _ _ (by decide), append_at _ _ _ _ (by decide), append_lo]
theorem fRs1_word (a : BitVec 9) (b c d : Reg) (m : BitVec 6) : fRs1 (five a b c d m) = c := by
  rw [five, fRs1, append_at _ _ _ _ (by decide), append_at _ _ _ _ (by decide), append_at _ _ _ _ (by decide), append_lo]
theorem fRd_word (a : BitVec 9) (b c d : Reg) (m : BitVec 6) : fRd (five a b c d m) = d := by
  rw [five, fRd, append_at _ _ _ _ (by decide), append_at _ _ _ _ (by decide), append_lo]
theorem fMaj_word (a : BitVec 9) (b c d : Reg) (m : BitVec 6) : fMaj (five a b c d m) = m := by
  rw [five, fMaj, append_at _ _ _ _ (by decide), append_lo]
theorem low_five (a : BitVec 9) (b c d : Reg) (m : BitVec 6) : (five a b c d m).extractLsb' 0 2 = 0 := by
  rw [five, append_lo]; rfl


/-! ## Codes read back -/

theorem rndOf_code (r : Rnd) : rndOf (rndCode r) = some r := by cases r <;> rfl
theorem sgnOf_code (r : SgnForm) : sgnOf (sgnCode r) = some r := by cases r <;> rfl
theorem cvtOf_code (r : CvtForm) : cvtOf (cvtCode r) = some r := by cases r <;> rfl
theorem vcondOf_code (r : VCond) : vcondOf (vcondCode r) = some r := by cases r <;> rfl
theorem bxfOf_code (r : BxFmt) : bxfOf (bxfCode r) = some r := by cases r <;> rfl
theorem amoOf_code (r : AmoOp) : amoOf (amoCode r) = some r := by cases r <;> rfl
theorem ordOf_code (r : MemOrd) : ordOf (ordCode r) = r := by cases r <;> rfl
theorem scopeOf_code (r : Scope) : scopeOf (scopeBits r) = some r := by cases r <;> rfl
theorem fenceOf_code (r : FenceKind) : fenceOf (fenceCode r) = some r := by cases r <;> rfl
theorem watchOf_code (r : WatchCond) : watchOf (vwCode r) = some r := by cases r <;> rfl
theorem tagOf_bits (r : Tag) : tagOf (tagBits r).toNat = some r := by cases r <;> rfl
/-- The codes of `CAS` and `AMOG` are no `AMO` code. -/
theorem amo_not (r : AmoOp) : (amoCode r == 10) = false ∧ (amoCode r == 11) = false := by cases r <;> exact ⟨rfl, rfl⟩

/-! ## Immediates put together again -/

theorem join_two {n k : Nat} (i : BitVec (k + n)) : i.extractLsb' n k ++ i.extractLsb' 0 n = i := by
  apply BitVec.eq_of_getLsbD_eq
  intro j hj
  rw [BitVec.getLsbD_append]
  split
  · simp [*]
  · simp [show n + (j - n) = j by omega, show j - n < k by omega]
theorem join_14 (i : BitVec 14) : i.extractLsb' 5 9 ++ i.extractLsb' 0 5 = i := join_two (n := 5) (k := 9) i
theorem join_18 (i : BitVec 18) : i.extractLsb' 9 9 ++ i.extractLsb' 4 5 ++ i.extractLsb' 0 4 = i := by
  rw [show i.extractLsb' 9 9 ++ i.extractLsb' 4 5 = i.extractLsb' 4 14 from by
    have h := join_two (n := 5) (k := 9) (i.extractLsb' 4 14)
    rw [← h]; congr 1 <;> (ext j hj; simp [← Nat.add_assoc]; intro _; omega)]
  exact join_two (n := 4) (k := 14) i
theorem join_19 (i : BitVec 19) : i.extractLsb' 10 9 ++ i.extractLsb' 5 5 ++ i.extractLsb' 0 5 = i := by
  rw [show i.extractLsb' 10 9 ++ i.extractLsb' 5 5 = i.extractLsb' 5 14 from by
    have h := join_two (n := 5) (k := 9) (i.extractLsb' 5 14)
    rw [← h]; congr 1 <;> (ext j hj; simp [← Nat.add_assoc]; intro _; omega)]
  exact join_two (n := 5) (k := 14) i

end Sys2Proof.Laws
end

