-- ==== Sys2Proof/Laws/Host.lean ====
section
/-! SUPPORT. What handing over a packet can do (16_host_port.md R502, R504, R506). -/

namespace Sys2Proof.Machine

/-- A packet with a reserved field set completes with 32. -/
theorem handOver_malformed (s : State) (q kind n : Nat) (w : List Word) (go : State → Nat → List Word → BitVec 16 → State)
    (hc : (s.queue q).cur = some (n, w)) (hk : pkKind (w.getD 0 0) = kind) (ho : pkOk w = false) :
    s.handOver q kind go = (((s.modQueue q (fun x => { x with cur := none })).hostDone (some (q, n)) 32 0).queueStep q) := by
  unfold State.handOver; simp only [hc, hk, ho]; simp
/-- A packet of an ASID without an entry completes with 33. -/
theorem handOver_badAsid (s : State) (q kind n : Nat) (w : List Word) (go : State → Nat → List Word → BitVec 16 → State)
    (hc : (s.queue q).cur = some (n, w)) (hk : pkKind (w.getD 0 0) = kind) (ho : pkOk w = true) (h8 : kind ≠ 8)
    (ha : (s.modQueue q (fun x => { x with cur := none })).asidOk (s.queue q).asid = false) :
    s.handOver q kind go = (((s.modQueue q (fun x => { x with cur := none })).hostDone (some (q, n)) 33 0).queueStep q) := by
  unfold State.handOver; simp only [hc, hk, ho, ha]; simp [h8]
/-- Every other packet is handed over, and the queue goes on. -/
theorem handOver_go (s : State) (q kind n : Nat) (w : List Word) (go : State → Nat → List Word → BitVec 16 → State)
    (hc : (s.queue q).cur = some (n, w)) (hk : pkKind (w.getD 0 0) = kind) (ho : pkOk w = true)
    (ha : kind = 8 ∨ (s.modQueue q (fun x => { x with cur := none })).asidOk (s.queue q).asid = true) :
    s.handOver q kind go = ((go (s.modQueue q (fun x => { x with cur := none })) n w (s.queue q).asid).queueStep q) := by
  unfold State.handOver; simp only [hc, hk, ho]
  rcases ha with h | h
  · subst h; simp
  · simp [h]

end Sys2Proof.Machine
end

