-- ==== Sys2Proof/Laws/Vector.lean ====
section
/-! SUPPORT. What the guards of a vector instruction come to. -/

namespace Sys2Proof.Machine
open Sys2Proof.Safety

/-- A vector instruction whose guards pass has its effect, then consumes its streams. -/
theorem State.vGuard_ready (s : State) (v : VIn) (go : State → State) (hr : vReady s v.srcs v.dst v.pairs v.rtag)
    (hb : v.bad = false) (ho : v.ok = true) (hg : (go s).iss.stop = .go) : s.vGuard v go = (go s).consume v.srcs := by
  obtain ⟨h1, h2, h3, h4, h5, -⟩ := hr
  have hp : (s.cf.nLanes == 0 || (v.pairs && s.cf.nLanes % 2 == 1)) = false := by
    cases hv : v.pairs
    · simpa using h1
    · have := h2 hv
      simp [h1, this]
  unfold State.vGuard
  simp only [hb, hp, h3, ho, h4, hg, h5]
  simp

end Sys2Proof.Machine
end

