-- ==== Sys2Proof/Tests/Slice0.lean ====
section
/-! SUPPORT. Tests: words decode to the instructions that the encoding tables of 02_bundles.md R49 to R57 give them, ill-formed
instructions are refused, and for every statement a concrete state and operands that meet its hypotheses. -/

namespace Sys2Proof.Tests
set_option Elab.async false
open Sys2Proof Sys2Proof.Machine Sys2Proof.Safety

/-! ## Decoding: words written out from the field tables of 02_bundles.md -/

/-- Whether a word is read as an instruction in the A-slot, in the C-slot of a full bundle, in a lone bundle. -/
def readsA (w : Half) (i : Instr) : Bool := (decodeA w).toOption == some i
def readsC (w : Half) (i : Instr) : Bool := (decodeC w false).toOption == some i
def readsLone (w : Half) (i : Instr) : Bool := (decodeC w true).toOption == some i
theorem test_decode_alu : ([readsA 0x00316604 (.add false 12 11 6),
    readsA 0x10B16604 (.sub true 12 11 6),
    readsA 0x20316604 (.and false 12 11 6),
    readsA 0x30B16604 (.or true 12 11 6),
    readsA 0x40316604 (.xor false 12 11 6),
    readsA 0x50B16604 (.andn true 12 11 6),
    readsA 0x60316604 (.sll false 12 11 6),
    readsA 0x70B16604 (.srl true 12 11 6),
    readsA 0x80316604 (.sra false 12 11 6),
    readsA 0x90B16604 (.slt true 12 11 6),
    readsA 0xA0316604 (.sltn false 12 11 6),
    readsA 0xB0B16604 (.min true 12 11 6),
    readsA 0xC0316604 (.max false 12 11 6),
    readsA 0xD0B16604 (.minn true 12 11 6),
    readsA 0xE0316604 (.maxn false 12 11 6)].all id) = true := by decide +kernel
theorem test_decode_muldiv : ([readsA 0x00B16608 (.mul true 12 11 6),
    readsA 0x10316608 (.mulh 12 11 6),
    readsA 0x20316608 (.mulhn 12 11 6),
    readsA 0x30B16608 (.div true 12 11 6),
    readsA 0x40B16608 (.divn true 12 11 6),
    readsA 0x50B16608 (.rem true 12 11 6),
    readsA 0x60B16608 (.remn true 12 11 6)].all id) = true := by decide +kernel
theorem test_decode_bit : ([readsA 0x0001660C (.clz false 11 6),
    readsA 0x1001660C (.ctz false 11 6),
    readsA 0x2001660C (.popc false 11 6),
    readsA 0x3001660C (.bswap false 11 6),
    readsA 0x4101660C (.sextOp 1 11 6),
    readsA 0x5201660C (.zextOp 2 11 6),
    readsA 0x04B16610 (.csel 9 12 11 6)].all id) = true := by decide +kernel
theorem test_decode_fp : ([readsA 0x02B16620 (.fadd .rdn true 12 11 6),
    readsA 0x12B16620 (.fsub .rdn true 12 11 6),
    readsA 0x22B16620 (.fmul .rdn true 12 11 6),
    readsA 0x32B16620 (.fdiv .rdn true 12 11 6),
    readsA 0x47016620 (.fsqrt .dyn false 11 6),
    readsA 0x50B16620 (.fmin true 12 11 6),
    readsA 0x60316620 (.fmax false 12 11 6),
    readsA 0x72B16620 (.fsgnj .x true 12 11 6),
    readsA 0x80B16620 (.feq true 12 11 6),
    readsA 0x90316620 (.flt false 12 11 6),
    readsA 0xA0B16620 (.fle true 12 11 6),
    readsA 0xB0816620 (.fclass true 11 6),
    readsA 0xC0016620 (.fmvx false 11 6),
    readsA 0xD0816620 (.fmvf true 11 6)].all id) = true := by decide +kernel
theorem test_decode_fma : ([readsA 0x44B16624 (.fmadd true 9 12 11 6),
    readsA 0x54B16624 (.fmsub true 9 12 11 6),
    readsA 0x64B16624 (.fnmadd true 9 12 11 6),
    readsA 0x74B16624 (.fnmsub true 9 12 11 6),
    readsA 0x00816628 (.fcvt .s_d false .rtz 11 6),
    readsA 0x10816628 (.fcvt .d_s false .rtz 11 6),
    readsA 0x24816628 (.fcvt .s_i true .rtz 11 6),
    readsA 0x34816628 (.fcvt .s_n true .rtz 11 6),
    readsA 0x44816628 (.fcvt .d_i true .rtz 11 6),
    readsA 0x54816628 (.fcvt .d_n true .rtz 11 6),
    readsA 0x64816628 (.fcvt .i_s true .rtz 11 6),
    readsA 0x74816628 (.fcvt .n_s true .rtz 11 6),
    readsA 0x84816628 (.fcvt .i_d true .rtz 11 6),
    readsA 0x94816628 (.fcvt .n_d true .rtz 11 6)].all id) = true := by decide +kernel
theorem test_decode_imm : ([readsC 0xFE814504 (.addi false 0x1FD 10 5),
    readsC 0x03A14504 (.addi true 7 10 5),
    readsC 0xFE854504 (.andi 0x1FD 10 5),
    readsC 0xFE894504 (.ori 0x1FD 10 5),
    readsC 0xFE8D4504 (.xori 0x1FD 10 5),
    readsC 0xFE9D4504 (.slti 0x1FD 10 5),
    readsC 0x1F914504 (.slli false 63 10 5),
    readsC 0x0FB14504 (.slli true 31 10 5),
    readsC 0x1F954504 (.srli false 63 10 5),
    readsC 0x0FB54504 (.srli true 31 10 5),
    readsC 0x1F994504 (.srai false 63 10 5),
    readsC 0x0FB94504 (.srai true 31 10 5),
    readsC 0xA9694708 (.li 0x2A5A5 7)].all id) = true := by decide +kernel
theorem test_decode_lone : ([readsLone 0x00002709 (.liH 7),
    readsLone 0x00000709 (.li 0 7)].all id) = true := by decide +kernel
theorem test_decode_jump : ([readsC 0x54B4A70C (.lpc 0x2A5A5 7),
    readsC 0xFFFFA110 (.jal 0x7FFFD 1),
    readsC 0x02014514 (.jalr 4 10 5),
    readsC 0xFF80BD18 (.beq 0x3FFD 0 5),
    readsC 0xFF80BD1C (.bne 0x3FFD 0 5),
    readsC 0xFF80BD20 (.blt 0x3FFD 0 5),
    readsC 0xFF80BD24 (.bge 0x3FFD 0 5),
    readsC 0xFF80BD28 (.bltn 0x3FFD 0 5),
    readsC 0xFF80BD2C (.bgen 0x3FFD 0 5)].all id) = true := by decide +kernel
theorem test_decode_mem : ([readsC 0xFC394530 (.lds 0x1F8 3 2 10 5),
    readsC 0xFC394534 (.ldz 0x1F8 3 2 10 5),
    readsC 0xFC394538 (.st 0x1F8 3 2 10 5),
    readsC 0x083D463C (.ldp 16 3 3 10 6),
    readsC 0x083D4640 (.stp 16 3 3 10 6),
    readsC 0x08314044 (.pf 16 3 10)].all id) = true := by decide +kernel
theorem test_decode_atomic : ([readsC 0x0DB16648 (.amo false .add .ar 3 12 11 6),
    readsC 0x1DB1664C (.amo true .andOp .ar 3 12 11 6),
    readsC 0x2DB16648 (.amo false .orOp .ar 3 12 11 6),
    readsC 0x3DB1664C (.amo true .xorOp .ar 3 12 11 6),
    readsC 0x4DB16648 (.amo false .min .ar 3 12 11 6),
    readsC 0x5DB1664C (.amo true .max .ar 3 12 11 6),
    readsC 0x6DB16648 (.amo false .minn .ar 3 12 11 6),
    readsC 0x7DB1664C (.amo true .maxn .ar 3 12 11 6),
    readsC 0x8DB16648 (.amo false .swap .ar 3 12 11 6),
    readsC 0x9DB1664C (.amo true .fadd .ar 3 12 11 6),
    readsC 0xA5B1664C (.cas true .acq 3 12 11 6),
    readsC 0xB9B16648 (.amog false .rel 3 12 11 6)].all id) = true := by decide +kernel
theorem test_decode_system : ([readsC 0x44000050 (.fence .slab .rel),
    readsC 0x8C000050 (.fence .system .sc),
    readsC 0x11256654 (.csrrw 0x112 11 6),
    readsC 0x11296654 (.csrrs 0x112 11 6),
    readsC 0x112D6654 (.csrrc 0x112 11 6),
    readsC 0x14016058 (.hld 5 11),
    readsC 0x22816658 (.hgive 5 11 6),
    readsC 0x42816658 (.hqry 5 11 6)].all id) = true := by decide +kernel
theorem test_decode_frame : ([readsC 0x00316080 (.post 12 11),
    readsC 0x08000080 (.endTask),
    readsC 0x10316080 (.ends 12 11),
    readsC 0x18016080 (.claim 11),
    readsC 0x20016080 (.unclaim 11),
    readsC 0x28000080 (.ecall),
    readsC 0x30000080 (.ebreak),
    readsC 0x40000080 (.eret),
    readsC 0x48016080 (.fkill 11),
    readsC 0x50316680 (.migr 12 11 6),
    readsC 0x72316684 (.watch 3 .ltn true 12 11 6)].all id) = true := by decide +kernel
theorem test_decode_message : ([readsC 0x00316690 (.send 12 11 6),
    readsC 0x08016690 (.reply 11 6),
    readsC 0x10316690 (.bindH 12 11 6),
    readsC 0x18016690 (.unbind 11 6),
    readsC 0x20316690 (.swaph 12 11 6)].all id) = true := by decide +kernel
theorem test_decode_vmem : ([readsC 0x4080A4A0 (.vld 2 .fp32 5 4),
    readsC 0x4800A4A0 (.vst 2 5 4),
    readsC 0x56B0A4A0 (.vldx 2 .bx4 12 5 4),
    readsC 0x5830A4A0 (.vstx 2 12 5 4),
    readsC 0x009CC5A4 (.vclaim true 7 6 5),
    readsC 0x080000A4 (.vfree),
    readsC 0x1000DCA4 (.vsbind 6 28),
    readsC 0x18001CA4 (.vsfree 28)].all id) = true := by decide +kernel
theorem test_decode_vec : ([readsA 0x0B8C4140 (.vadd true false 7 3 2 1),
    readsA 0x1B8C4140 (.vsub true false 7 3 2 1),
    readsA 0x2B8C4140 (.vmul true false 7 3 2 1),
    readsA 0x310C4140 (.vmin false 2 3 2 1),
    readsA 0x410C4140 (.vmax false 2 3 2 1),
    readsA 0x510C4140 (.vand false 2 3 2 1),
    readsA 0x610C4140 (.vor false 2 3 2 1),
    readsA 0x710C4140 (.vxor false 2 3 2 1),
    readsA 0x810C4140 (.vshl false 2 3 2 1),
    readsA 0x910C4140 (.vshr false 2 3 2 1),
    readsA 0xAA8C4140 (.vcmp true .ge 3 2 1),
    readsA 0xB7804140 (.vabs true 7 2 1),
    readsA 0xC3804140 (.vneg false 7 2 1),
    readsA 0xDD004140 (.vmov true 10 2 1),
    readsA 0x020C4144 (.vfma 4 3 2 1),
    readsA 0x120C4144 (.vfms 4 3 2 1),
    readsA 0x220C4144 (.vsel 4 3 2 1),
    readsA 0x320C4144 (.vdot 4 3 2 1),
    readsA 0x08010248 (.vrsum true false 0 8 2),
    readsA 0x18010248 (.vrmax true 8 2),
    readsA 0x20010248 (.vrmin false 8 2),
    readsA 0x36010248 (.vscan true 4 8 2),
    readsA 0x48010248 (.vbmax true 8 2),
    readsA 0x0181024C (.vexp2 .rup 8 2),
    readsA 0x1181024C (.vlog2 .rup 8 2),
    readsA 0x2181024C (.vrcp .rup 8 2),
    readsA 0x3181024C (.vrsq .rup 8 2),
    readsA 0x01850250 (.vcvt .bf16 1 8 2),
    readsA 0x15010250 (.vtag .n8 8 2),
    readsA 0x24F42250 (.vqnt .bx8 1 29 1 2),
    readsA 0x300D0250 (.vext 3 8 2),
    readsA 0x400D0250 (.vperm 3 8 2)].all id) = true := by decide +kernel
theorem test_decode_census : ([readsC 0x007100B0 (.solicit 28 8 0),
    readsC 0x0803A0B0 (.respond 29),
    readsC 0x100166B0 (.cbar 11 6),
    readsC 0x180166B0 (.tilereg 11 6),
    readsC 0x200166B0 (.tiledel 11 6),
    readsC 0x283166B0 (.tilemove 12 11 6),
    readsC 0x300166B0 (.censq 11 6)].all id) = true := by decide +kernel
theorem test_decode_matrix : ([readsC 0x000160C0 (.mcfg 11),
    readsC 0x013166C0 (.mbld 12 11 6),
    readsC 0x0AB166C0 (.mgang 1 true 12 11 6),
    readsC 0x131CC5C0 (.mdrain 2 false 7 6 5),
    readsC 0x040166C0 (.mstat 11 6),
    readsC 0x050166C0 (.mcancel 11 6),
    readsC 0x068166C0 (.mzero true 11 6)].all id) = true := by decide +kernel
theorem test_decode_copy : ([readsC 0x000100D0 (.cpy false 8 0),
    readsC 0x080166D0 (.cpyst 11 6),
    readsC 0x100166D0 (.cpoll 11 6),
    readsC 0x183166D0 (.bseal 12 11 6),
    readsC 0x203166D0 (.bopen 12 11 6),
    readsC 0x280166D0 (.llcfg 11 6),
    readsC 0x053166E0 (.cflush true 2 12 11 6),
    readsC 0x0D3166E0 (.cclean true 2 12 11 6),
    readsC 0x153166E0 (.cinv true 2 12 11 6)].all id) = true := by decide +kernel
theorem test_decode_graph : ([readsC 0x000100E8 (.grrun 8 0),
    readsC 0x080100E8 (.grsig 8 0),
    readsC 0x100100E8 (.grcan 8 0),
    readsC 0x180100E8 (.grqry 8 0),
    readsC 0x033166F0 (.spawn true 2 12 11 6),
    readsC 0x080166F0 (.joini 11 6),
    readsC 0x103166F0 (.join 12 11 6),
    readsC 0x180166F0 (.termq 11 6),
    readsC 0x000160F8 (.xpost 11),
    readsC 0x080166F8 (.xqry 11 6)].all id) = true := by decide +kernel

/-! ## Ill-formed instructions, one for each check (R50, R53 to R57) -/

theorem test_illFormed_refused : ([
    .slli false 64 1 2, .slli true 32 1 2, .srli false 64 1 2, .srai true 32 1 2, .sextOp 3 1 2, .zextOp 3 1 2, .ldp 0 0 3 1 5, .ldp 0 0 1 1 4, .stp 0 0 2 1 5, .hld 1 2, .fadd .rne false 16 1 2, .fsub .rne false 1 16 2, .fmul .rne true 1 2 16, .fdiv .rne true 16 2 1, .fsqrt .rne false 16 1, .fmin false 16 1 2, .fmax false 1 16 2, .fsgnj .n false 1 2 16, .feq false 16 1 2, .flt false 1 16 2, .fle false 16 1 2, .fclass false 16 1, .fmvx false 16 1, .fmvf false 1 16, .fmadd false 16 1 2 3, .fmsub false 1 16 2 3, .fnmadd false 1 2 16 3, .fnmsub false 1 2 3 16, .fcvt .i_s false .rne 16 1, .fcvt .s_i false .rne 1 16, .fcvt .s_d true .rne 1 2, .vmov true 11 1 2, .vmov false 1 1 2, .vbmax true 1 16, .vcvt .fp32 5 1 2, .cflush false 1 2 1 3, .cclean false 0 2 1 3, .cinv false 0 1 1 3, .mgang 1 false 1 2 3, .mgang 16 true 1 2 3, .mdrain 16 false 1 2 3] : List Instr).all (fun i => !i.wellFormed) = true := by decide +kernel
theorem test_illFormed_words_refused : decodeC (encode (.slli false 64 1 2)) false = .error .badField ∧
    decodeA (encode (.fadd .rne false 16 1 2)) = .error .badField ∧ decodeC (encode (.ldp 0 0 3 1 5)) false = .error .badField ∧
    decodeC (encode (.hld 1 2)) false = .error .badField ∧ decodeA 0x10000010 = .error .reserved ∧ decodeC 0 true = .error .unassigned := by
  decide +kernel
/-- The worked example of R48: 6 x 7, latency 3, and the literal of R35 with `LI.h` after it. -/
theorem test_mul_of_the_spec : (match exec (.mul false 8 7 6) (({ State.reset with iss := Issue.mk 0 2 0 0 0 false 0 .go }).modCf
      (fun f => (f.putX 7 6).putX 8 7)) with
    | .next t => t.cf.outs.map (fun r => (r.dst, r.due, r.val))
    | _ => []) = [(dstX 6, some 3, .word 42)] := by decide +kernel
theorem test_liH_of_the_spec : (match exec (.liH 7) (({ State.reset with iss := Issue.mk 0 2 0 0x2709 0xAB true 0 .go }).modCf
      (fun f => f.putX 7 0x12345678)) with
    | .next t => t.cf.outs.map (fun r => r.val)
    | _ => []) = [.word 0xAB12345678] := by decide +kernel
theorem test_placed_word_runs : (match step (State.reset.withFetchWord 32 0xFE814504) with
    | .next t => (t.frame 0 0).pc == 8 && (t.frame 0 0).outs.length == 1
    | _ => false) = true := by decide +kernel

/-! ## States that meet the hypotheses of the statements -/

/-- A small state: a running frame of level 2 and ASID 1 in window 2 of core 0, with its own LM in h0 and an SW handle in h3. -/
def tb : State :=
  { State.reset.setFrame 0 2 { Frame.free with
      st := .running, level := 2, asid := 1
      h := vset (vset Frame.free.h 0 handleH0) 3 (Handle.mk 0 0x40 0 0x197 1 4) } with
    iss := Issue.mk 0 2 0x100 0 0 false 0 .go }
/-- The same on a memory core, with a GLOBAL handle in h2 and the translation of its page at hand. -/
def tm : State :=
  { State.reset.setCore 4096 ({ Core.reset with tlb := [TlbEntry.mk 1 0x1000 12 0x100D] }.setWin 2
      { Frame.free with st := .running, level := 2, asid := 1, h := vset Frame.free.h 2 (Handle.mk 0x1000 0x1000 2 0x187 1 4) }) with
    iss := Issue.mk 4096 2 0x100 0 0 false 0 .go }
/-- The target of an access of `tm` at offset `o` of its GLOBAL handle. -/
def tmTarget (o : Nat) : Target := Target.mk 2 12321 (0x1000 + o) false false (some (Walk.mk none (.ok (0x1000 + o) false) []))
/-- `tb` with four lanes of group 0 and every vector register of one tag. -/
def tv (t : Tag) : State := tb.modCf (fun f => { f with vlen := 0x10004, tags := Vector.replicate 32 t })
/-- `tv` with the tag of v3 another. -/
def tv3 (t u : Tag) : State := (tv t).modCf (fun f => f.putTag 3 u)
/-- `tb` on a geode with an array: set 0 tagged for the frame, slice 0 live, a pass descriptor taken; x1 holds a NONE successor word,
x2 a pass word of one BF16 row, x3 an MBLD word's offset, x4 an MSTAT selector 1. -/
def ta : State :=
  ({ tb.modCf (fun f => { (((f.putX 1 0x80000000000000).putX 3 0x200).putX 4 1) with mdesc := some [0x100, 0x200020, 0, 0] }) with
    mem := memWrite [] (lmKey 0 0x100) ([0x4000001000, 0x200020, 0, 0].flatMap (toBytes 8)) }).modGeode 0 (fun g => { g with
      array := g.array.modSet 0 (fun e => { e with tag := some (2, 1), live := 1 }) })
theorem test_wit_LoadsAndStoresIssue_local :
    passes tb 0 0x40 8 8 .load false (Target.mk 0 0 0x40 false false none) ∧ hasRoom tb 2 1 ∧ hasRoom tb 1 1 ∧ hasRoom tb 0 1 ∧
    passes tb 0 0x7FFF0 16 8 .store false (Target.mk 0 0 0x7FFF0 false false none) ∧
    passes tb 0 0x7FFF8 8 8 .store false (Target.mk 0 0 0x7FFF8 false false none) ∧
    passes tb 0 0x7FFF0 16 8 .load false (Target.mk 0 0 0x7FFF0 false false none) := by decide +kernel
theorem test_wit_LoadsAndStoresIssue_global :
    passes tm 2 0x40 16 8 .load false (tmTarget 0x40) ∧ (tmTarget 0x40).space = 2 ∧ hasRoom tm 2 1 ∧
    passes (tm.noteCheck (tmTarget 0x40).walk) 2 0x48 8 8 .load false (tmTarget 0x48) ∧
    passes tm 2 0x40 16 8 .store false (tmTarget 0x40) ∧
    passes (tm.noteCheck (tmTarget 0x40).walk) 2 0x48 8 8 .store false (tmTarget 0x48) := by decide +kernel
theorem test_wit_PrefetchCompletes :
    tb.check tb.det 0 0 1 1 .load false false [2] = .fault 26 0 ∧ tm.check tm.det 2 0 1 1 .load false false [2] = .ok (tmTarget 0) ∧
    hasRoom tm 0 1 ∧ (tm.core 4096).dcache.lines.find 0x1000 = none ∧ (tm.core 4096).dcache.pend = [] := by decide +kernel
theorem test_wit_AtomicsIssue : hasRoom tb 1 1 ∧ passes tb 0 0 8 8 .atomic true (Target.mk 0 0 0 false false none) ∧
    passes tb 0 0 4 4 .atomic false (Target.mk 0 0 0 false false none) := by decide +kernel
theorem test_wit_CsrAccesses : csrOk tb.cf.fm 1 = true ∧ tb.det = false ∧ csrOk tb.cf.fm 0x103 = false ∧ csrRw 1 = true ∧ csrRw 3 = false := by
  decide +kernel
def tbHandles : State :=
  { tb.modCf (fun f => { f with answer := some [4, 0x1000, 0x1000, 2, 0x87] }) with mem := [(dramKey 32, 1), (dramKey 40, 5)] }
def tbIndex : State := tbHandles.modCf (fun f => f.putX 1 4)
theorem test_wit_HandleInstructions : (tbIndex.xr 1).toNat < tbIndex.htCount tbIndex.cf.asid ∧
    handleAnswer tbIndex.cf.answer 4 = some [0x1000, 0x1000, 2, 0x87] ∧ handleOk [0x1000, 0x1000, 2, 0x87] = true ∧ tbIndex.det = false ∧
    hasRoom tbIndex 1 1 ∧ hasRoom tbIndex 1 0 ∧ (tbIndex.cf.getH 3).valid = true ∧ bitOf (tbIndex.cf.getH 3).w3 4 = true ∧
    (tbIndex.cf.getH 3).cap = true ∧ tbIndex.disabled (tbIndex.xr 1).toNat = false := by decide +kernel
theorem test_wit_FloatArithmetic : tb.mode (rndCode .rup) = some 3 ∧ tb.mode 7 = some 0 ∧ tb.cf.fcsr.toNat / 32 % 8 ≤ 4 ∧
    5 ≤ (tb.modCf (fun f => { f with fcsr := 0xA0 })).cf.fcsr.toNat / 32 % 8 := by decide +kernel
theorem test_wit_ReleaseInstructions : tb.postChecks (tb.xr 1) (tb.xr 2) = .ok (tb.mkRelease 0 0 none) ∧ hasRoom tb 0 1 ∧
    tb.cc.claims = [] ∧ (tb.xr 3).toNat < 256 ∧ tb.cc.recbusy.getLsbD 0 = false ∧ fld (tb.recWord 0 0) 0 3 < 6 ∧
    tb.check tb.det 0 (tb.xr 1) 8 8 .load true false [0, 1, 2] = .ok (Target.mk 0 0 0 false false none) := by decide +kernel
/-- Slot 5 of core 0: valid, ceiling 4, ASID 1; the frame declares it and has its resource id in x1. -/
def tbCeil : State :=
  (tb.modCore 0 (fun c => { c with ceiling := vset c.ceiling 5 0x1000C })).modCf (fun f => { f.putX 1 5 with desc := [0, 0, 0x20, 0] })
theorem test_wit_Claim : tbCeil.xr 1 = resourceId tbCeil.iss.ep 5 ∧ tbCeil.iss.ep < 8192 ∧ bitOf (vget 0 tbCeil.cc.ceiling 5) 3 = true ∧
    fld (vget 0 tbCeil.cc.ceiling 5) 16 16 = tbCeil.cf.asid.toNat ∧ bitOf (vget 0 tbCeil.cc.ceiling 5) 11 = false ∧
    tbCeil.cf.level.toNat ≤ fld (vget 0 tbCeil.cc.ceiling 5) 0 3 ∧ bitOf (tbCeil.cf.desc.getD 2 0) 5 = true := by decide +kernel
def tbHeld : State := tbCeil.modCore 0 (fun c => { c with ceiling := vset c.ceiling 5 0x10A0C, claims := [5] })
theorem test_wit_Unclaim : tbHeld.xr 1 = resourceId tbHeld.iss.ep 5 ∧ tbHeld.cc.claims.getLast? = some 5 ∧
    fld (vget 0 tbHeld.cc.ceiling 5) 8 3 = tbHeld.iss.win := by decide +kernel
/-- A trap frame in window 7 above a trapped frame in window 2 of core 0; core 9 is FREE-RESERVED. -/
def tbTrap : State :=
  { ((tb.modCf (fun f => { f with st := .trapped, epc := 0x200 })).setFrame 0 7
      { Frame.free with st := .running, level := 7, trapFrame := true, x := vset Frame.free.x 1 9 }).modCore 9 (fun c => { c with noplace := true }) with
    iss := Issue.mk 0 7 0x100 0 0 false 0 .go }
theorem test_wit_TrapReturns : tbTrap.cf.trapFrame = true ∧ tbTrap.cc.trappedWin = some 2 ∧ tb.cf.trapFrame = false := by decide +kernel
theorem test_wit_Migration : tbTrap.cf.level = 7 ∧ (tbTrap.xr 1).toNat = 9 ∧ (tbTrap.core 9).reserved = true ∧ (tbTrap.xr 2).toNat < 256 ∧
    tbTrap.cc.recbusy.getLsbD 0 = false ∧ tbTrap.targetOk (tbTrap.xr 2) true = some (0, none) ∧ tb.cf.level.toNat < 6 := by decide +kernel
theorem test_wit_VectorElementwise :
    [Tag.fp32, .fp64, .i32, .raw].all (fun t => decide (vReady (tv t) [1, 2] (some 3) (t == .fp64) t ∧ vReady (tv t) [1] (some 3) (t == .fp64) t
      ∧ vReady (tv t) [1, 2] (some 3) (t == .fp64) .raw ∧ (tv t).vt 1 = t ∧ (tv t).vt 2 = t)) = true ∧
    isArith .fp64 = true ∧ isArith .i32 = true ∧ isIntTag .i32 = true ∧ tagFmt .fp32 = some .f32 ∧ ((tv .fp32).mode 0).isSome = true := by
  decide +kernel
theorem test_wit_VectorMoves : vReady (tv .fp64) [] (some 3) true .fp64 ∧ tagOf 4 = some .fp64 ∧
    [Tag.fp32, .fp64, .i32, .raw].all (fun t => decide (vReady (tv t) [1, 2, 3] (some 4) (t == .fp64) t ∧ vReady (tv t) [1] none (t == .fp64) t ∧
      vReady (tv t) [1] (some 3) false t)) = true ∧
    vReady (tv3 .fp16 .fp32) [1, 2, 3] (some 4) false .fp32 ∧ dotTag ((tv3 .fp16 .fp32).vt 1) = some ((tv3 .fp16 .fp32).vt 3) ∧
    ((tv .fp32).mode 7).isSome = true := by decide +kernel
theorem test_wit_VectorFunctions : vReady (tv .fp32) [1] (some 3) false .fp32 ∧ (tv .fp32).mode (rndCode .rtz) = some 1 ∧
    vReady (tv .bx8) [1] (some 3) false .fp32 ∧ vReady (tv .i16) [1] (some 3) true .fp64 ∧ isBx .fp32 = false ∧
    vReady (tv .fp32) [1] (some 3) false .bx4 ∧ vReady (tv .i32) [1, 2] (some 3) false .i32 ∧ indexTag .i32 = true := by decide +kernel
theorem test_wit_Vclaim : tb.cf.nLanes = 0 ∧ tb.cf.outs.all (fun r => match r.dst with | .lanes _ => false | _ => true) = true ∧ tb.det = false ∧
    hasRoom tb 1 0 := by decide +kernel
/-- A stream descriptor at LM offset 0: one step of i32 lanes at offset 0x100, for reading. -/
def tvDesc : State := { tv .i32 with mem := memWrite [] (lmKey 0 0) ([0x500000100, 0, 0x100000001, 0].flatMap (toBytes 8)) }
theorem test_wit_Vsbind : tvDesc.cf.nLanes ≠ 0 ∧ (tvDesc.cf.stream 1).bound = false ∧
    (List.range 4).map (fun i => tvDesc.lmWordInOrder ((tvDesc.xr 1).toNat + 8 * i)) = [0x500000100, 0, 0x100000001, 0] ∧
    streamOk [0x500000100, 0, 0x100000001, 0] tvDesc.cf.nLanes = true := by decide +kernel
def tvBound (w : Bool) : State := tvDesc.modCf (fun f => f.putStream 1 (Stream.mk true w (if w then 0x1500000100 else 0x500000100) 0 0x100000001 0 [] 7))
theorem test_wit_Vsfree : [false, true].all (fun w => ((tvBound w).cf.stream 1).bound && ((tvBound w).cf.stream 1).write == w) = true ∧
    (tvBound true).cf.nLanes ≠ 0 := by decide +kernel
theorem test_wit_VectorAccess : (tv .i32).check false 0 ((tv .i32).xr 1) 16 4 .load false false [0, 1] = .ok (Target.mk 0 0 0 false false none) ∧
    (tv .i32).check false 0 ((tv .i32).xr 1) 16 4 .store false false [0, 1] = .ok (Target.mk 0 0 0 false false none) ∧
    imageBytes .i32 (tv .i32).cf.nLanes = 16 ∧ vecAlign .i32 = 4 ∧ (tv .i32).det = false ∧ hasRoom (tv .i32) 1 1 ∧
    vReady (tv .i32) [] (some 3) false .i32 ∧ vReady (tv .i32) [3] none false .i32 ∧ vReady (tv .i32) [2] (some 3) false .i32 ∧
    vReady (tv .i32) [3, 2] none false .i32 := by decide +kernel
theorem test_wit_Gather : (tv .i32).laneTargets 0 4 .load ((tv .i32).laneOffs false 2 1) = .ok (List.replicate 4 (Target.mk 0 0 0 false false none)) ∧
    (tv .i32).laneTargets 0 4 .store ((tv .i32).laneOffs false 2 1) = .ok (List.replicate 4 (Target.mk 0 0 0 false false none)) := ⟨rfl, rfl⟩
theorem test_wit_MatrixGuards : ta.noArray = false ∧ ta.det = false ∧ ta.succWord (ta.xr 1) = .none ∧ ta.sliceOn = true ∧ hasRoom ta 1 1 ∧ hasRoom ta 0 1 ∧
    hasRoom ta 0 0 ∧ ta.myTag (ta.ca.set 0) = true ∧ (ta.ca.sliceView 0 ta.slice) = (true, false) := by decide +kernel
theorem test_wit_Mcfg : mdOk ((List.range 4).map (fun k => ta.lmWordInOrder (0x100 + 8 * k))) = true := by decide +kernel
theorem test_wit_Mbld : zeroField (ta.lmWordInOrder 0x208) 23 41 = true ∧ zeroField (ta.lmWordInOrder 0x208) 11 5 = true ∧
    zeroField (ta.lmWordInOrder 0x208) 3 5 = true ∧ ta.loadSource 0 (ta.lmWordInOrder 0x200) (64 * cb 0) = .inl (.lm 0 0) ∧ ta.ca.loadCount < 4 := by decide +kernel
theorem test_wit_Mgang : ta.cf.mdesc = some [0x100, 0x200020, 0, 0] ∧ pwBad (ta.xr 2) true = false ∧ pwSet (ta.xr 2) = 0 ∧ pwA (ta.xr 2) = 0 ∧
    aOk [0x100, 0x200020, 0, 0] (ta.xr 2) = true ∧ (ta.ca.regs.filter (fun r => r.core == ta.slice)).length < 4 := by decide +kernel
theorem test_wit_Mgang_drain : cOk [0x4000001000, 0x200020, 0, 0] 0 = true ∧ acOverlap [0x4000001000, 0x200020, 0, 0] 0 = false ∧
    aOk [0x4000001000, 0x200020, 0, 0] 0 = true ∧ pwBad 0 false = false ∧ pwSlot 0 = 0 ∧ pwB 0 = 0 := by decide +kernel
theorem test_wit_Mstat : zeroField (ta.xr 4) 15 49 = true ∧ zeroField (ta.xr 4) 4 4 = true ∧ (ta.xr 4).toNat % 16 = 1 ∧
    zeroField (ta.xr 2) 32 32 = true ∧ zeroField (ta.xr 2) 3 13 = true := by decide +kernel
theorem test_wit_Array_full :
    (let a := (ta.ca.modSlot 1 (fun t => { t with loads := List.replicate 4 (SlotLoad.mk 0 0 (.lm 0 0) none false false) })); 4 ≤ a.loadCount) ∧
    (let r := Registration.mk 0 0 0 [] 2 1 false 0 none 2 1 true none
      let s := ta.modArr 0 (fun a => { a with regs := List.replicate 4 r, drains := List.replicate 8 (DrainJob.mk 0 none 0 false [r]) })
      4 ≤ (s.ca.regs.filter (fun r => r.core == s.slice)).length ∧ 8 ≤ s.ca.queuedDrains ∧ s.noArray = false) := by decide +kernel
/-- `tb` with a request block of a copy of 8 bytes by `h0` in LM at 0x300, its offset in x1, and a live launch of the ASID. -/
def tcp : State :=
  { tb.modCf (fun f => { ((f.putX 1 0x300).putX 2 1).putX 3 0x1 with answer := some [0] }) with
    mem := memWrite [] (lmKey 0 0x300) ([0x400, 0x500, 0x800000000, 0x80000000000000].flatMap (toBytes 8))
    launches := [Launch.mk 3 1 2 5] }
theorem test_wit_Cpy : tcp.det = false ∧ (tcp.xr 1).toNat = 0x300 ∧
    (let w := (List.range 4).map (fun k => tcp.lmWordInOrder (0x300 + 8 * k))
     cqOk w = true ∧ tcp.cqFault w = none ∧ tcp.cqSucc w = .none ∧ tcp.cc.copy.barFull (cqBar w) = false) ∧ tcp.cc.copy.fifo.length < 4 ∧
    hasRoom tcp (resultsOf 5) 1 := by decide +kernel
theorem test_wit_Cpyst : zeroField (tcp.xr 2) 56 8 = true ∧ zeroField (tcp.xr 2) 53 1 = true ∧ zeroField (tcp.xr 2) 32 32 = true ∧ hasRoom tcp (resultsOf 5) 0 := by decide +kernel
theorem test_wit_Bseal : zeroField (tcp.xr 3) 18 46 = true ∧ BitVec.ofNat 16 (fld (tcp.xr 3) 0 16) ≠ 0 ∧
    (maskGroups (BitVec.ofNat 16 (fld (tcp.xr 3) 0 16))).any (fun k => (tcp.group (fld (tcp.xr 3) 16 2) k).disabled) = false ∧
    tcp.succWord 0x80000000000000 = .none ∧ tcp.cf.answer = some [0] := by decide +kernel
theorem test_wit_Llcfg : zeroField (tcp.xr 2) 12 52 = true ∧ zeroField 0x201 12 52 = true ∧ zeroField 0x201 4 4 = true ∧ fld 0x201 0 4 ≤ fld 0x201 8 4 ∧
    fld 0x201 8 4 ≤ 12 ∧ tcp.launches.filter (fun l => l.asid == tcp.cf.asid) = [Launch.mk 3 1 2 5] := by decide +kernel
theorem test_wit_CacheMaintenance : (tm.cf.getH 2).valid = true ∧ (tm.cf.getH 2).space = 2 ∧ isMemCore tm.iss.ep = true ∧ bitOf (tm.cf.getH 2).w3 0 = true ∧
    bitOf (tm.cf.getH 2).w3 1 = true ∧ (tm.xr 0).toNat + 1 ≤ (tm.cf.getH 2).bound.toNat ∧ tm.det = false ∧ hasRoom tm (resultsOf 5) 1 ∧
    pagesOf 0x1000 1 = [0x1000] ∧ tm.translated 0x1000 = true ∧
    (tm.translate tm.cc.tlb (epSlab tm.iss.ep) tm.cf.asid 0x1000 .write).res = .ok 0x1000 false := by decide +kernel
theorem test_wit_Cpoll : (let s := tcp.modCopy 0 (fun p => { p with bars := vset p.bars 0 ⟨0, true, false⟩ })
    ((List.range 32).map (fun k => (s.cc.copy.rot + k) % 32)).find? (fun k => (s.xr 2).getLsbD k && (vget (CopyBar.mk 0 false false) s.cc.copy.bars k).done)) = some 0 := by
  decide +kernel
theorem test_wit_Cpy_first : (let s := tcp.modCf (fun f => { f with answer := none })
    s.cf.answer = none ∧ s.cc.copy.fifo.length < 4 ∧ hasRoom s (resultsOf 5) 1) ∧
    (let s := tcp.hold .copyFifo; s.cf.latch.isSome = true ∧ s.cf.answer = some [0] ∧ s.keptSucc = .none) := by decide +kernel
theorem test_wit_Bseal_again : (let s := tcp.hold .answer; s.keptSucc = .none ∧ s.cf.latch.isSome = true) := by decide +kernel
/-- A solicit of one geode, of one payload word, ADD, with its result at 0x1000. -/
def solBlock : List Word := [7, 0, 0x100000000111, 0, 0, 0, 0, 0]
/-- `tb` with a solicit, a barrier block and a tile block in LM, a resident tile, and an open row whose responder the frame is. -/
def tcen : State :=
  ({ tb.modCf (fun f => { ((((f.putX 1 0x600).putX 2 0x680).putX 3 0x6C0).putX 4 0x10000) with responder := some ⟨5, 0, 3, false⟩ }) with
    mem := memWrite (memWrite (memWrite [] (lmKey 0 0x600) (solBlock.flatMap (fun (w : Word) => toBytes 8 w.toNat))) (lmKey 0 0x680)
      ([0x10011, 0, 0x80000000000000, 0].flatMap (toBytes 8))) (lmKey 0 0x6C0) ([9, 0x4000000000, 2, 0].flatMap (toBytes 8)) }).modPort 0 (fun p => { p with
        dir := [(0, Tile.mk 1 9 1 0 64 2 0 0 false 0 false 0 0 none)]
        rows := [OpenRow.mk 0 (Solicit.mk solBlock 1 0 2 0 none none none 5 none) 3 0 0 0 1 []] })
theorem test_wit_Solicit : isMemCore tcen.iss.ep = false ∧ blockOk (tcen.xr 1) 64 = true ∧ tcen.lmWords 0x600 8 = solBlock ∧ solReservedOk solBlock = true ∧
    tcen.solOk solBlock = true ∧ tcen.succWord 0x80000000000000 = .none ∧ tcen.det = false ∧ hasRoom tcen (resultsOf 5) 1 := by decide +kernel
theorem test_wit_Respond : tcen.cf.responder = some ⟨5, 0, 3, false⟩ ∧ ((tcen.port 0).rows.find? (fun y => y.q.id == 5 && y.asId == 3)).isSome = true ∧
    solP solBlock = 1 ∧ hasRoom tcen 0 1 := by decide +kernel
theorem test_wit_Cbar : tcen.noPort false = false ∧ blockOk (tcen.xr 2) 32 = true ∧ tcen.lmWords 0x680 4 = [0x10011, 0, 0x80000000000000, 0] ∧
    zeroField 0x10011 44 20 = true ∧ zeroField 0x10011 28 4 = true ∧ zeroField 0x10011 3 1 = true ∧ fld 0x10011 0 3 = 1 ∧ fld 0x10011 4 4 = 1 ∧
    fld 0x10011 16 12 = 1 ∧ tcen.disabled 0 = false := by decide +kernel
theorem test_wit_Tilereg : tcen.noPort true = false ∧ blockOk (tcen.xr 3) 32 = true ∧ tcen.lmWords 0x6C0 4 = [9, 0x4000000000, 2, 0] ∧
    zeroField 0x4000000000 51 13 = true ∧ zeroField 0x4000000000 19 13 = true ∧ fld 0x4000000000 32 19 = 64 ∧ fld 0x4000000000 0 19 = 0 ∧
    zeroField 2 57 7 = true ∧ zeroField 2 3 2 = true ∧ fld 2 0 3 < 6 ∧
    (List.range 128).find? (fun n => ((tcen.port 0).dir.find n).isNone) = some 1 := by decide +kernel
theorem test_wit_Tilereg_full : (let s := tcen.modPort 0 (fun p => { p with dir := (List.range 128).map (fun k => (k, Tile.mk 1 9 1 0 64 2 0 0 false 0 false 0 0 none)) })
    (List.range 128).find? (fun n => ((s.port 0).dir.find n).isNone)) = none := by decide +kernel
theorem test_wit_Tiledel : (tcen.port 0).dir.find (tcen.xr 0).toNat = some (Tile.mk 1 9 1 0 64 2 0 0 false 0 false 0 0 none) ∧ zeroField (tcen.xr 0) 7 57 = true ∧
    (tcen.port 0).dir.find 1 = none ∧ tcen.cf.asid = 1 := by decide +kernel
theorem test_wit_Tilemove : zeroField (tcen.xr 4) 17 47 = true ∧ zeroField (tcen.xr 4) 7 1 = true ∧ zeroField 1 31 33 = true ∧ fld (tcen.xr 4) 0 7 = 0 ∧
    bitOf (tcen.xr 4) 16 = true ∧ tcen.disabled 1 = false ∧ tcen.cc.firewalled 1 = false := by decide +kernel
theorem test_wit_Censq : zeroField (tcen.xr 0) 16 48 = true ∧ tcen.census.slots.find? (fun c => c.q.id == 0) = none ∧
    [2, 3].all (fun st => let s := { tcen with census := { tcen.census with slots := [CensusSlot.mk 0 st (Solicit.mk solBlock 1 0 2 0 none none none 5 none) ⟨0, 0, 0, 0, []⟩ 0 0 4] } }
     (s.census.slots.find? (fun c => c.q.id == 5 && (s.cf.fm || c.q.asid == s.cf.asid))).map CensusSlot.st == some st) = true := by decide +kernel
theorem test_wit_Tilemove_codes : (tcen.port 0).dir.find 5 = none ∧ tcen.cf.asid ≠ 7 ∧ tcen.cf.fm = false ∧ hasRoom tcen (resultsOf 5) 0 ∧
    (∀ t ∈ [Tile.mk 1 9 7 0 64 2 0 0 false 0 false 0 0 none, Tile.mk 2 9 1 0 64 2 0 0 false 0 false 0 0 none, Tile.mk 1 9 1 0 64 2 0 0 false 0 true 0 0 none],
      ((tcen.modPort 0 (fun p => { p with dir := [(0, t)] })).port 0).dir.find 0 = some t) := by decide +kernel
/-- `tb` with a message of no word to handler 5 and a bind block in LM, handler 2 bound for the ASID, and a message to reply to. -/
def tmsg : State :=
  ({ tb.modCf (fun f => { ((((f.putX 1 0x300).putX 2 0x340).putX 3 5).putX 4 2) with reply := some (tb.srcDev, 1, 5) }) with
    mem := memWrite (memWrite [] (lmKey 0 0x300) (toBytes 8 5)) (lmKey 0 0x340) (toBytes 8 2 ++ toBytes 8 0x1000) }).setHandler 0 2
      { Handler.empty with kind := 2, asid := 1, state := 1, rxbase := 0x2000 }
theorem test_wit_Send : zeroField (tmsg.xr 1) 19 45 = true ∧ (tmsg.xr 1).toNat % 8 = 0 ∧ ctlOk (tmsg.lmWordInOrder 0x300) = true ∧
    ctlWords (tmsg.lmWordInOrder 0x300) = 0 ∧ tmsg.det = false ∧ hasRoom tmsg (resultsOf 5) 1 ∧ tmsg.destWord 1 = some (Dest.mk 1 none false) ∧
    tmsg.destOk (Dest.mk 1 none false) 5 = true := by decide +kernel
theorem test_wit_Reply : tmsg.cf.reply = some (tmsg.srcDev, 1, 5) := by decide +kernel
theorem test_wit_Bind : tmsg.handlerOk (tmsg.xr 3) = true ∧ zeroField (tmsg.xr 2) 19 45 = true ∧ tmsg.lmWordInOrder 0x340 = 2 ∧
    tmsg.lmWordInOrder 0x348 = 0x1000 ∧ tmsg.kindOk 2 = true ∧ fld 0x1000 0 32 % 512 = 0 ∧ (tmsg.cc.handler 5).state = 0 ∧ hasRoom tmsg (resultsOf 5) 0 := by
  decide +kernel
theorem test_wit_Unbind : tmsg.handlerOk (tmsg.xr 4) = true ∧ (tmsg.cc.handler 2).state ≠ 0 ∧ tmsg.ownsHandler (tmsg.cc.handler 2) = true ∧
    (let s := tmsg.setHandler 0 2 { Handler.empty with state := 1, asid := 2 }; s.ownsHandler (s.cc.handler 2) = false) := by decide +kernel
/-- An instance of ASID 1 in slot 1, of generation 3, with one SIGNAL node in a state. -/
def tinst (st : Nat) : Inst :=
  { Inst.reset with st := 1, gen := 3, asid := 1, hdr := [0x10000], recs := [(0, [0xA000000000000000, 0, 1])]
                    nodes := [(0, NodeEnt.mk st 0 0 false false 0 0 0 [] [] 0 false false false none)] }
/-- `tb` with a run block in LM, an instance of one node in a state, an open join counter 1, a spawn record 4 and a guest socket. -/
def tgr (st : Nat) : State :=
  (({ tb.modCf (fun f => { (((f.putX 1 0x3000000000001).putX 2 0x600).putX 3 4).putX 4 1 with fcsr := f.fcsr }) with
    mem := memWrite (memWrite [] (lmKey 0 0x600) ([0, 0, 0, 0x80000000000000, 0, 0, 0, 0].flatMap (toBytes 8))) (lmKey 0 0x680)
      ([0, 0x80000000000000, 0, 0, 0, 0, 0, 0].flatMap (toBytes 8))
    insts := [(1, tinst st)] }).modJoin 0 1 (fun _ => { JoinCtr.free with st := 1, asid := 1 })).modGuest (fun g => { g with en := true })
/-- The same with record 4 of a core, of level 2. -/
def tsp : State := { tgr 2 with mem := memWrite [] (lmKey 0 0x7C100) (toBytes 8 2) }
theorem test_wit_Grrun : (let s := tgr 2; let b := s.lmWords 0x600 8
    blockOk (s.xr 2) 64 = true ∧ runAddrOk b = true ∧ zeroField (b.getD 7 0) 16 48 = true ∧ s.succWord (b.getD 3 0) = .none ∧ s.det = false ∧
      (s.inst (fld (b.getD 6 0) 0 8)).st = 0 ∧ hasRoom s (resultsOf 5) 1) := by decide +kernel
theorem test_wit_Grsig : (let s := tgr 2; let v := (s.newResult 5).2
    selectorOk (s.xr 1) true false = true ∧ hasRoom s (resultsOf 5) 0 ∧ v.selectorCode (s.xr 1) false = 0 ∧ fld (s.xr 1) 36 4 = 0 ∧
      ((v.inst 1).ent 0).st = 2 ∧ nKind ((v.inst 1).nrec 0) = 5 ∧ bitOf (nPay ((v.inst 1).nrec 0) 2) 0 = true ∧
      v.selectorCode (s.xr 0) false = 2) := by decide +kernel
theorem test_wit_Grsig_held : (let s := (tgr 6).modCf (fun f => f.putX 1 0x3001000000001); let v := (s.newResult 5).2
    selectorOk (s.xr 1) true false = true ∧ v.selectorCode (s.xr 1) false = 0 ∧ fld (s.xr 1) 36 4 = 1 ∧ ((v.inst 1).ent 0).st = 6) := by decide +kernel
theorem test_wit_Grcan : (let s := tgr 6; let v := (s.newResult 5).2
    selectorOk (s.xr 1) false true = true ∧ v.selectorCode (s.xr 1) false = 0 ∧ bitOf (s.xr 1) 32 = false ∧ ((v.inst 1).ent 0).st = 6 ∧
      v.selectorCode (s.xr 0) false = 2) := by decide +kernel
theorem test_wit_Grqry_all : (let s := (tgr 2).modCf (fun f => f.putX 1 0x3000100000001); let v := (s.newResult 5).2
    selectorOk (s.xr 1) false true = true ∧ v.selectorCode (s.xr 1) true = 0 ∧ v.selectorCode (s.xr 1) false = 0 ∧ bitOf (s.xr 1) 32 = true) := by decide +kernel
theorem test_wit_Xpost : (let s := (tgr 2).modCf (fun f => f.putX 2 0x680); s.guest.en = true ∧ blockOk (s.xr 2) 64 = true ∧
    (let p := s.lmWords 0x680 8; zeroField (p.getD 0 0) 0 48 = true ∧ s.succWord (p.getD 1 0) = .none) ∧ hasRoom s 0 1) := by decide +kernel
theorem test_wit_Xqry : zeroField ((tgr 2).xr 4) 2 62 = true ∧ fld ((tgr 2).xr 4) 0 2 = 1 ∧ fld ((tgr 2).xr 0) 0 2 = 0 := by decide +kernel
theorem test_wit_Spawn : zeroField (tsp.xr 3) 8 56 = true ∧ controlOk (tsp.xr 4) false 0 = true ∧ tsp.cc.recbusy.getLsbD 4 = false ∧
    recordOk (tsp.recWord 4 0) (tsp.recWord 4 1) = true ∧ fld (tsp.recWord 4 0) 0 3 = tsp.cf.level.toNat ∧ bitOf (tsp.xr 4) 6 = false ∧
    (tsp.cc.join (fld (tsp.xr 4) 0 6)).st = 1 ∧ (tsp.cc.join 1).asid = tsp.cf.asid ∧ (tsp.cc.join 1).pending ≠ 65535 ∧ tsp.det = false ∧
    tsp.dequeFull 0 = false ∧ hasRoom tsp (resultsOf 5) 1 := by decide +kernel
theorem test_wit_Spawn_hashed : (tsp.hashedCore 1 0 (childPath tsp.cf.path 0)).isSome = true ∧ controlOk (tsp.xr 4) true 1 = true := by decide +kernel
theorem test_wit_Joini : zeroField (tsp.xr 4) 15 49 = true ∧ zeroField (tsp.xr 4) 6 2 = true ∧ fld (tsp.xr 4) 8 4 ≤ 8 ∧ fld (tsp.xr 4) 12 3 ≤ 4 ∧
    (tsp.cc.join (fld (tsp.xr 4) 0 6)).st ≠ 0 ∧ (tsp.cc.join (fld (tsp.xr 3) 0 6)).st = 0 ∧ zeroField (tsp.xr 3) 15 49 = true := by decide +kernel
theorem test_wit_Join : zeroField (tsp.xr 4) 6 58 = true ∧ tsp.succWord 0x80000000000000 = .none := by decide +kernel
theorem test_wit_Termq : zeroField (tsp.xr 4) 4 60 = true ∧ (vget TSlot.free tsp.term.slots 1).asid ≠ tsp.cf.asid ∧ tsp.cf.fm = false ∧
    (let s := tsp.modCf (fun f => { f with level := 6 }); s.cf.fm = true ∧ s.det = false) := by decide +kernel
theorem test_wit_Unread : (let s : State := { tgr 2 with insts := [(1, { tinst 2 with hdr := [], recs := [], nodes := [] })] }; s.unread 1 = true ∧
    selectorOk (s.xr 1) false true = true) ∧ (tgr 2).unread 1 = false ∧ (tgr 2).unread 0 = false := by decide +kernel
/-- A release of record 4 of core 1 to core 0, at level 2 of ASID 1. -/
def relA : Release := Release.mk 0 1 4 0 none 2 1 0 0 0 false
/-- A store of one byte to LM of core 0 by core 1, and a load of it. -/
def accSt : Access := Access.mk 1 2 0 1 0 0 0 0x100 none 1 false false (.store [7]) 2
def accLd : Access := { accSt with op := .load 1 }
/-- `tb` with an event. -/
def te (ev : Event) : State := { tb with ev := some ev }
/-- `tb` with an outstanding result of x5 due in cycle 0, and one of variable latency of x6. -/
def tres : State := tb.modCf (fun f => { f with outs := [Result.mk 90 0 (dstX 5) (some 0) (.word 9) 0 [] 1 false false 0, Result.mk 91 1 (dstX 6) none (.word 0) 0 [] 1 false false 0] })
theorem test_wit_Results : ((tres.frame 0 2).outs.find? (fun r => r.uid == 90)).map Result.due = some (some 0) ∧
    ((tres.frame 0 2).outs.find? (fun r => r.uid == 91)).isSome = true ∧ ((tb.spillTurn 0).lacking 0 2).isEmpty = true := by decide +kernel
theorem test_wit_Leave : (let e := QEnt.mk 5 1 2 (.access accLd .rlx) false 5 false; let s := tb.modCore 0 (fun c => { c with oq := [e] })
    (s.core 0).oq.find? (fun e => e.id == 5 && !e.left) = some e ∧ (s.core 0).canLeave 0 e = true) := by decide +kernel
theorem test_wit_Data : accLd.core ≠ hostEp ∧ epClass accLd.core < 2 ∧ accLd.win < 8 := by decide +kernel
theorem test_wit_Ports : (tb.ring 0).mode = 0 ∧ (tb.ring 0).entries.length < 64 ∧ (tb.core 0).portRefuses = false ∧ accSt.owner = 0 := by decide +kernel
theorem test_wit_Arm : (let q := ArmReq.mk 0 0 0x100 false .eq 0 relA; q.space ≠ 2 ∧ (tb.core 0).monitors.length < 16 ∧ tb.armHoldsLm 0 q = true) ∧
    (let q := ArmReq.mk 0 0 0x100 false .eq 1 relA; tb.armHoldsLm 0 q = false) := by decide +kernel
theorem test_wit_CodeFill : ((tb.modSlab 0 (fun b => { b with walks := [(0, 0, 0x8001), (0, 0x8000, 0xE000000000000003)] })).fillCode 0 0 0).1 = 0 := by decide +kernel
theorem test_wit_Pair : ({ accSt with op := .store [1, 2], part := 1 } : Access).pair? = some ([1], [2]) ∧ accSt.pair? = none := by decide +kernel
theorem test_wit_Arm_global : (ArmReq.mk 0 2 0x1000 false .eq 0 relA).space = 2 := by decide +kernel
/-- The entry of that release, of a record of zeros, its descriptor read. -/
def entA : Entry := Entry.mk relA (List.replicate 16 0) 0 0 0 0 0 0 none none none 0 0
theorem test_wit_Release : (tb.core 0).refuses = false ∧ (tb.core 0).ringFull = false ∧ (tb.core 0).levelFull 2 = false := by decide +kernel
theorem test_wit_Pull : tb.pullRefused relA = false ∧ tb.lmBad relA.srcEp (0x7C000 + 64 * relA.recIdx.toNat) 64 = false := by decide +kernel
theorem test_wit_FramePush : (let s := tb.modCore 0 (fun c => { c with push := [{ entA with rel := { relA with prio := 3 } }] })
    (s.core 0).push = { entA with rel := { relA with prio := 3 } } :: [] ∧ (s.core 0).code = 0 ∧ entA.descStat ≠ 3) := by decide +kernel
theorem test_wit_FifoRingMove : (let s := tb.modCore 0 (fun c => { c with ring := vset c.ring 2 [entA] })
    vget [] (s.core 0).ring 2 = [entA] ∧ (vget [] (s.core 0).fifo 2).length < 32 ∧ s.lmBad 0 ((s.core 0).ringSlot 2 0) 128 = false ∧
      ({ s with bad := [lmKey 0 ((s.core 0).ringSlot 2 0) / 8] } : State).lmBad 0 ((s.core 0).ringSlot 2 0) 128 = true) := by decide +kernel
theorem test_wit_FramePop : (let s := (tb.modCf (fun f => { f with st := .ending })).settle 0
    (s.core 0).top = some 2 ∧ (s.frame 0 2).st = .ending ∧ (s.core 0).code = 0 ∧ (s.frame 0 2).outs = [] ∧ (s.core 0).push = []) := by decide +kernel
theorem test_wit_TrapEntry : (let s := (tb.modCf (fun f => { f with st := .faulting, pending := some (PFault.mk 2 0 0x100 false) })).settle 0
    (s.core 0).top = some 2 ∧ (s.frame 0 2).st = .faulting ∧ (s.frame 0 2).pending = some (PFault.mk 2 0 0x100 false) ∧ (s.core 0).code = 0 ∧
      (s.frame 0 2).outs = [] ∧ (s.core 0).push = []) := by decide +kernel
/-- `tv` spilled. -/
def tspill : State := (tv .raw).modCf (fun f => { f with spilled := true })
theorem test_wit_RefillComplete : (tspill.core 0).top = some 2 ∧ (tspill.frame 0 2).spilled = true ∧ (tspill.frame 0 2).nLanes ≠ 0 ∧
    tspill.reserveBad 0 2 = false ∧ ceilDiv (tspill.frame 0 2).nLanes 16 ≤ (groupsOf (tspill.frame 0 2).gmap).length ∧
    (tspill.takeBanks 0 2 (groupsOf (tspill.frame 0 2).gmap)).2.isSome = true := by decide +kernel
theorem test_wit_RefillComplete_bad :
    ({ tspill with bad := [lmKey 0 ((tspill.frame 0 2).spillOff 0 0) / 8] } : State).reserveBad 0 2 = true := by decide +kernel
theorem test_wit_FrameLost : (let s := tb.setFrame 0 1 { Frame.free with st := .preempted }
    ((s.core 0).win 1).st = .preempted ∧ (s.core 0).top ≠ some 1) := by decide +kernel
theorem test_wit_MigrationCommit : (let s := (tb.modCore 0 (fun c => { c with code := 2, mig := some ⟨9, relA, false⟩ })).settle 0
    (s.core 0).mig = some ⟨9, relA, false⟩ ∧ (s.core 0).code = 2 ∧ s.streamDone 0 9 = true) := by decide +kernel
theorem test_wit_ForwardPacket : (let m := Msg.mk 0 1 0 0 .eject 0 0 (.load accLd)
    let s := { tb.modCore 0 (fun c => { c with code := 3, fwd := 0x8000000000000009 }) with net := [m] }
    s.net[0]? = some m ∧ (s.core 0).code = 3 ∧ bitOf (s.core 0).fwd 63 = true ∧ m.ch = .eject) := by decide +kernel
theorem test_wit_StarvationReport : (let s := tb.modCore 0 (fun c => { c with starve := 1, fifo := vset c.fifo 3 [entA] })
    (s.core 0).starve ≠ 0 ∧ (s.core 0).hasWork 3 = true ∧ ((s.core 0).win 3).st = .free) := by decide +kernel
theorem test_wit_Starved_top : (let s := tb.modCore 0 (fun c => { c with starve := 1, fifo := vset c.fifo 3 [entA] })
    (s.core 0).starve ≠ 0 ∧ (s.core 0).hasWork 3 = true ∧ (s.core 0).top ≠ some 3) := by decide +kernel
/-- A read stream over four raw lanes, two entries to come. -/
def strR : Stream := { Stream.unbound with bound := true, w0 := 0x200, w1 := 0x10, w2 := 0x200000000 }
/-- A registration of core 0 for set 0, and its pass. -/
def regA : Registration := Registration.mk 3 0 0 [0x100, 0x200020, 0, 0] 2 1 false 0 none 2 1 true none
def passA (st step : Nat) : Pass := Pass.mk 5 0 st 1 step [regA] false
def drainA : DrainJob := DrainJob.mk 6 none 1 false [regA]
/-- A load of slot 0 from LM, and one from bedrock. -/
def ldLm : SlotLoad := SlotLoad.mk 4 0 (.lm 0 0) none true false
def ldBed : SlotLoad := SlotLoad.mk 4 0 (.bedrock 0) none true true
/-- `tv` with that stream bound to `v28`. -/
def tstr : State := (tv .raw).modCf (fun f => f.putStream 0 strR)
theorem test_wit_Streams : (tstr.frame 0 2).nLanes = 4 ∧ (tstr.frame 0 2).spilled = false ∧ (tstr.core 0).top = some 2 ∧ strR.buf.length < 4 ∧
    strR.pos + strR.buf.length < strR.steps ∧ strR.bound = true ∧ strR.write = false ∧ (tstr.frame 0 2).stream 0 = strR ∧
    tstr.lmBad 0 (strR.off 0) (imageBytes strR.tag (tstr.frame 0 2).nLanes) = false := by decide +kernel
theorem test_wit_StreamWrite : (let w : Machine.Stream := { strR with write := true, buf := [StreamEnt.mk 0 [1, 2] false], sid := 9 }
    let s := (tv .raw).modCf (fun f => f.putStream 0 w)
    (s.core 0).writing 2 0 = some ((s.frame 0 2).fid, w) ∧ (s.core 0).streamReady 0 2 (s.frame 0 2).fid w = true) ∧
    (let w : Machine.Stream := { strR with write := true, buf := [StreamEnt.mk 0 [1, 2] false], sid := 9 }
    let s := (tv .raw).modCore 0 (fun c => { c with closing := [Closing.mk 0 2 w false 0] })
    (s.core 0).writing 2 4 = some (0, w) ∧ (s.core 0).streamReady 0 2 0 w = true) := by decide +kernel
theorem test_wit_SlotLoad : (let s := (tb.modArr 0 (fun a => a.modSlot 0 (fun t => { t with loads := [ldLm] })));
      ((s.arr 0).slot 0).loads = [ldLm] ∧ ldLm.seq = 4 ∧ (s.arr 0).readers 0 4 = [] ∧ ldLm.src = .lm 0 0) ∧
    (let s := ({ (tb.modArr 0 (fun a => a.modSlot 0 (fun t => { t with loads := [ldBed] }))) with sched := 100 } : State);
      ((s.arr 0).slot 0).loads = [ldBed] ∧ ldBed.src = .bedrock 0 ∧ ldBed.started = true ∧ (s.arr 0).readers 0 4 = [] ∧ (groupsTouched 0 (64 * cb 0)).any (inWindow s.sched) = false) := by decide +kernel
theorem test_wit_PassStart : (let s := tb.modArr 0 (fun a => (({ a with passes := [passA 1 0] } : MArray).modSlot 0 (fun t => { t with full := true })));
    (s.arr 0).running = none ∧ (s.arr 0).choose = some (passA 1 0) ∧ ((s.arr 0).slot (pwSlot (passA 1 0).word)).bfmt = pwB (passA 1 0).word) := by decide +kernel
theorem test_wit_PassStep : (let s := tb.modArr 0 (fun a => ({ a with passes := [passA 2 0] } : MArray))
    (s.arr 0).running = some (passA 2 0) ∧ (passA 2 0).stepFrom 0 < (passA 2 0).steps ∧ (passA 2 0).steps ≤ (passA 2 0).stepFrom 1) ∧
    (let p := { passA 3 0 with mask := 0xFF }; p.stepFrom 1 < p.steps) := by decide +kernel
theorem test_wit_Drain : (let s := tb.modArr 0 (fun a => { a with dready := [drainA] }); (s.arr 0).draining = none ∧ (s.arr 0).dready = drainA :: []) ∧
    (let s := tb.modArr 0 (fun a => { a with draining := some drainA }); (s.arr 0).draining = some drainA) := by decide +kernel
/-- A solicit with an id, a census of it that is WRITING, and a tile on its way from core 0 to core 9. -/
def solQ : Solicit := Solicit.mk solBlock 1 0 2 0 none none none 5 none
def slotQ (st : Nat) : CensusSlot := CensusSlot.mk 0 st solQ ⟨0, 0, 0, 0, []⟩ 0 0 0
def moveT (d : Option Nat) : TileMove := TileMove.mk 0 0 9 0 d 9 1 64 2 0 none 3 2
theorem test_wit_Census_live : (let s := { tcen with census := { tcen.census with queue := [solQ] } }
    s.census.queue = solQ :: [] ∧ s.census.mayLive = true ∧ s.census.queue.length < 48) := by decide +kernel
theorem test_wit_Census_queue : (let s := { tcen with census := { tcen.census with slots := (List.range 16).map (fun k => { slotQ 2 with slot := k }) } }
    s.census.mayLive = false ∧ s.census.queue.length < 48) := by decide +kernel
theorem test_wit_Epoch : (tcen.core 0).code ≠ 2 ∧ (tcen.core 0).code ≠ 4 ∧ ((tcen.modCore 0 (fun c => { c with code := 2 })).core 0).code = 2 := by decide +kernel
theorem test_wit_Census_core : (let s := tcen.modPort 0 (fun p => { p with rows := [OpenRow.mk 0 solQ 3 0 0 0 0 []] })
    (s.port 0).rows.find? (fun r => r.q.id == 5 && r.asId == 3) = some (OpenRow.mk 0 solQ 3 0 0 0 0 []) ∧ (s.port 0).defers solQ = false ∧
      (s.core 0).respondPending (OpenRow.mk 0 solQ 3 0 0 0 0 []) = false) := by decide +kernel
theorem test_wit_Census_fold : (let s := { (tcen.modNode 7 (fun c => { c with under := [NodeCensus.mk 5 [0, 1] []] })) with
      census := { tcen.census with slots := [slotQ 2] } }
    (s.node 7).under.find? (fun u => u.id == 5) = some (NodeCensus.mk 5 [0, 1] []) ∧ [0, 1].contains 0 = true ∧
      (SMap.find ([] : SMap Answer) 0).isNone = true ∧ s.census.slots.find? (fun c => c.q.id == 5) = some (slotQ 2) ∧
      (SMap.put ([] : SMap Answer) 0 ⟨1, 0, 0, 0, [7]⟩).length < 2) := by decide +kernel
theorem test_wit_Census_fold_last : (let u := NodeCensus.mk 5 [0] []; u.need.length ≤ (u.got.put 0 ⟨1, 0, 0, 0, [7]⟩).length) := by decide +kernel
theorem test_wit_Census_end : ({ tcen with census := { tcen.census with slots := [slotQ 3] } } : State).census.slots.find? (fun c => c.q.id == 5 && c.st == 3) =
    some (slotQ 3) := by decide +kernel
theorem test_wit_Tile_reserve : (tcen.core 9).code ≠ 4 ∧ (List.range 128).find? (fun n => ((tcen.port 9).dir.find n).isNone) = some 0 ∧
    (let s := tcen.modPort 9 (fun p => { p with dir := (List.range 128).map (fun k => (k, Tile.mk 1 9 1 0 64 2 0 0 false 0 false 0 0 none)) });
      (List.range 128).find? (fun n => ((s.port 9).dir.find n).isNone) = none) := by decide +kernel
/-- The tile of that move, with bytes sent and responders LIVE. -/
def tileT (moved live : Nat) : Tile := Tile.mk 2 9 1 0 64 2 0 0 false live false 0 moved (some (moveT none))
theorem test_wit_Tile_commit : (moveT (some 1)).dentry = some 1 ∧ (tcen.core 9).code ≠ 4 ∧ tcen.disabled 9 = false ∧
    (∀ t ∈ [tileT 0 0, tileT 64 1, tileT 64 0], ((tcen.modPort 0 (fun p => { p with dir := p.dir.put 0 t })).port 0).moving (moveT (some 1)) = some t) := by
  decide +kernel
theorem test_wit_Barrier : (let b := BarReq.mk 7 1 0x20011 3 0 0 none 2 0 none; let c := tcen.node 7
    c.bars.find? (fun x => x.asid == b.asid && fld x.word0 8 8 == fld b.word0 8 8) = none ∧ c.bars.length < nodeBars b.node) ∧
    (let b := BarReq.mk 7 1 0x20011 3 0 0 none 2 0 none; let x := Barrier.mk 0 1 0x20011 [{ b with core := 1 }]
      let c := (tcen.modNode 7 (fun c => { c with bars := [x] })).node 7
      c.bars.find? (fun x => x.asid == b.asid && fld x.word0 8 8 == fld b.word0 8 8) = some x ∧ x.joined.any (fun y => y.core == b.core) = false) := by decide +kernel
theorem test_wit_Tile_reserve_free : tcen.scanOwed (moveT none) = false ∧ (tcen.core 9).refuses = false ∧
    (tcen.send 0 0 0 (.solicitScan 0 0 { solQ with words := [7, 0, 0, 9, 0, 0, 0, 0] })).net ≠ [] := by decide +kernel
/-- A request of agent 0 for the line at 0x1000, of a kind, to the home of the line. -/
def reqL (k : HomeKind) : HomeReq := HomeReq.mk k 0 4096 1 (homeOf 0x1000) 0x1000 false 0 0 false 0 0 false false 0 false 2 false
/-- A transaction of that request that waits for agent 1. -/
def txnL : Txn := Txn.mk (reqL .rdo) [(1, 0x1000)] [] false none false [0x1000] none
theorem test_wit_Home_take : (let q := reqL .rds; q.agent ≠ 256 ∧ (tb.ring q.home).mode = 0 ∧ (tb.ring q.home).entries.length < 64 ∧ claimHolds (tb.home q.home) q = false ∧
    (tb.home q.home).canTake q = true ∧ (tb.home q.home).behind (tb.home q.home).buf q = false) := by decide +kernel
theorem test_wit_Home_take_claim : (∀ k ∈ [HomeKind.rdo, .upg, .wb, .claim, .cmo .flush], (tb.home (reqL k).home).canTake (reqL k) = true) ∧
    (∀ k ∈ [HomeKind.claimWrite, .claimEnd], (let q := { reqL k with tid := 3, limit := 0x1080 }
      let s := tb.modHome q.home (fun h => { h with claims := [ClaimRec.mk 0x1000 0x1080 0x1000 0 3 true] }); (s.home q.home).canTake q = true)) := by decide +kernel
theorem test_wit_Home_next : (let s := tb.modHome (homeOf 0x1000) (fun h => { h with buf := [reqL .rds] }); let h := s.home (homeOf 0x1000)
    h.buf.zipIdx.find? (fun p => h.canTake p.1 && !claimHolds h p.1 && !h.behind (h.buf.take p.2) p.1) = some (reqL .rds, 0)) := by decide +kernel
theorem test_wit_Snoop : epClass (agentEpOf 0) = 1 ∧ epSlab (homeOf 0x1000) = epSlab (agentEpOf 0) ∧ epSlab (homeOf 0x1000) ≠ epSlab (agentEpOf 32) ∧ (tm.core 4096).dcache.held 0x1000 = none ∧
    ({ (tm.core 4096).dcache with wbuf := [(0x1000, CLine.mk .m 0 false false false)] } : DCache).held 0x1000 = some (CLine.mk .m 0 false false false) := by decide +kernel
theorem test_wit_Snoop_apply : (let s := tm.modCore 4096 (fun c => { c with dcache := { c.dcache with snoops := [(0x1000, .snpInv)] } })
    (s.core 4096).dcache.snoops = (0x1000, .snpInv) :: []) := by decide +kernel
theorem test_wit_Snpresp : (let s := tm.modHome (homeOf 0x1000) (fun h => { h with txns := [txnL] })
    (s.home (homeOf 0x1000)).txns.find? (fun t => t.waiting.contains (1, 0x1000)) = some txnL ∧ txnL.victim = none ∧ txnL.waiting.erase (1, 0x1000) = [] ∧
    ({ txnL with waiting := [(1, 0x1000), (2, 0x1000)] } : Txn).waiting.erase (1, 0x1000) ≠ []) := by decide +kernel
theorem test_wit_Home_answers : epClass (reqL .upg).src ≠ 2 ∧ (reqL .wb).once = false ∧ ({ reqL .wb with once := true, tag := 1 } : HomeReq).tag ≠ 0 ∧ (reqL (.cmo .clean)).kind = .cmo .clean ∧ (reqL .upg).agent ≠ 256 := by decide +kernel
theorem test_wit_Line_drop : (let s := tm.modCore 4096 (fun c => { c with dcache := { c.dcache with lines := [(0x1000, CLine.mk .s 0 false false false)] } })
    (s.core 4096).dcache.lines.find 0x1000 = some (CLine.mk .s 0 false false false)) := by decide +kernel
theorem test_wit_Home_room : (tb.ring (homeOf 0x1000)).full = false ∧ (tb.home (homeOf 0x1000)).recallq = [] ∧ hostlike (reqL .wb) = false ∧
    (tm.core 4096).dcache.pend.any (fun p => lineOf p.1.addr == 0x1000) = false := by decide +kernel
/-- A copy request of core 0 to engine 8192, and a transfer of it. -/
def cqA : CopyReq := CopyReq.mk 0 8192 [0x400, 0x500, 0x800000000, 0x80000000000000] handleH0 handleH0 1 none 2 0 none none 7 none none 2
def xferA (active begun : Bool) (stop : Option (Nat × Nat)) : Transfer := Transfer.mk 0 4 active begun cqA 0 [] [] [] 0 false stop
def txf (t : Transfer) : State := tb.modEngine 8192 (fun e => { e with xfers := [t] })
/-- A bedrock request of core 0 for group 0 of slab 0. -/
def bedA (go : Bool) : BedReq := BedReq.mk true 0 1 true 1 none 0 2 0 0 go none 0
theorem test_wit_Copy_request : (tb.engine cqA.engine).xfers.length < 64 ∧ epClass cqA.src ≠ 3 ∧
    64 ≤ (List.replicate 64 (xferA false false none)).length := by decide +kernel
theorem test_wit_Transfer : ((txf (xferA true false none)).engine 8192).find 4 = some (xferA true false none) ∧ (xferA true false none).dmap = [] ∧
    cqSlot cqA.words = false ∧ ((txf (xferA true true (some (0, 0)))).engine 8192).find 4 = some (xferA true true (some (0, 0))) := by decide +kernel
theorem test_wit_Bedrock : (maskGroups 1).any (fun g => (tb.group 0 g).st == 1 || (tb.group 0 g).st == 3) = false ∧ (bedA false).fm = true ∧
    (tb.frame 0 2).fid = (bedA true).fid ∧ (let s := tb.modGroup 0 0 (fun b => { b with st := 1 }); (s.group 0 0).st = 1 ∧ (s.group 0 0).begun = 0 ∧ (s.group 0 0).disabled = false) ∧
    (let s := tb.modGroup 0 0 (fun b => { b with st := 3 }); (s.group 0 0).st = 3 ∧ (s.group 0 0).loads = 0 ∧ (s.group 0 0).disabled = false) := by decide +kernel
/-- A packet of class 0 from core 0 to core 1024 that has waited 32 cycles to leave router 0, and a delivery. -/
def msgE : Msg := Msg.mk 0 0 1024 0 .inject 0 32 (.load accLd)
def msgD : Msg := Msg.mk 1 1 0 0 .inject 0 0 (.delivery (ActiveMsg.mk 0 0 1 none 1 2 false 0 [] 2 0 none) 0)
theorem test_wit_Packet : (let s := { tb with net := [msgE, msgD] }
    s.net[0]? = some msgE ∧ s.net[1]? = some msgD ∧ msgE.cls < 3 ∧ msgD.cls = 1 ∧ msgE.cls ≠ 1 ∧ msgE.ch ≠ .eject ∧ msgE.rt = 0 ∧ s.escapes msgE = true ∧
      s.atHead 0 msgE = true ∧ s.canHop 0 msgE true = true) ∧ (match msgE.hop true with | .ring _ _ _ => true | _ => false) = true := by decide +kernel
theorem test_wit_Fjarlink : (let p := FjPacket.release { relA with dstDev := some 9 }; let s := { tb with didv := true, devId := 8, pkg := { tb.pkg with localrt := [(9, 2)] } }
    fjTo s.srcDev p ≠ s.devId ∧ s.fjPort (fjTo s.srcDev p) = some 2) ∧
    (let p := FjPacket.release { relA with dstDev := some 8 }; let s := { tb with didv := true, devId := 8 }; fjTo s.srcDev p = s.devId) ∧
    (let p := FjPacket.release { relA with dstDev := some 9 }; let s := { tb with didv := true, devId := 8 }; s.fjPort (fjTo s.srcDev p) = none) ∧
    (let p := FjPacket.release { relA with dstDev := some 9 }; let s := { tb with didv := true, devId := 8, pkg := { tb.pkg with localrt := [(9, 2)] } }; s.fjPort (fjTo s.srcDev p) = some 2 ∧ 2 ≠ 31) ∧
    (let q := LinkReq.mk 8 9 8192 4 1 0 8 .read false; let s := { tb with didv := true, devId := 8 }; fjTo s.srcDev (.linkAnswer q 0 []) = s.devId) := by decide +kernel
theorem test_wit_Replay : (let s := tb.setRing 0 { TraceRing.reset with ctl := 0x200000000, rob := [(0, .load accLd)] }
    (s.ring 0).mode = 2 ∧ (s.ring 0).rob ≠ []) := by decide +kernel
theorem test_wit_Fjarlink_class : fjCls (.release relA) ≠ 3 ∧ fjCls (.other 3 9 0 0 0 0) = 3 ∧ epClass 1 ≠ 3 := by decide +kernel
/-- `tgr` with ASID 1 of one handle mapped by a page of 16 GiB, and a table of one SIGNAL node at 0x10000. -/
def ttab : State :=
  { (tgr 2).modSlab 0 (fun b => { b with walks := [(1, 0, 0x8001), (1, 0x8000, 0xE000000000000007)] }) with
    insts := [(1, { tinst 2 with words := [0x10000, 0x20000, 0x30000, 0, 0, 0, 1, 1], acks := [0], owners := [0] })]
    mem := memWrite (memWrite [] (dramKey 0x10000) ([0x1000000010000, 0, 64, 128].flatMap (toBytes 8))) (dramKey 0x10040)
      ([0xA000000000010000, 0, 1].flatMap (toBytes 8)) }
def tabA : Table := Table.mk [0x1000000010000, 0, 64, 128, 0, 0, 0, 0] [[0xA000000000010000, 0, 1, 0, 0, 0, 0, 0]] []
theorem test_wit_Graph_table : ttab.liveInst 1 3 = true ∧ (ttab.inst 1).broken = false ∧ ttab.readTable 0 (ttab.inst 1) = some tabA ∧
    ttab.tableOk 0 (ttab.inst 1) tabA = true ∧ ttab.tableOk 0 { ttab.inst 1 with words := [0x10000, 0x3FFFFFFFFFFFFFF] } tabA = false := by decide +kernel
theorem test_wit_Graph_fire : (let s := (tgr 1).modGraph 0 (fun g => { g with ready := [(1, 3, 0)] })
    (s.graph 0).ready = (1, 3, 0) :: [] ∧ ((s.inst 1).ent 0).st = 1 ∧ s.mustWait 1 0 = false) := by decide +kernel
/-- An instance with a gang node that runs and a watchdog. -/
def tgang : State := { tb with insts := [(1, { tinst 2 with hdr := [0x10000, 0, 0, 0, 100], recs := [(0, [0x4080000000010000])] })] }
theorem test_wit_Graph_go : (ttab.inst 1).fresh = false ∧ (ttab.inst 1).broken = false := by decide +kernel
theorem test_wit_Gang_watchdog : (let f := Firing.mk 12288 1 3 0 0 0; let j := tgang.inst 1; tgang.liveInst 1 3 = true ∧ nKind (j.nrec 0) = 2 ∧ (j.ent 0).st = 2 ∧
    (j.ent 0).tries = f.tries ∧ (j.ent 0).formed = false ∧ (j.ent 0).fault = none ∧ fld (j.hdr.getD 4 0) 0 32 ≠ 0) := by decide +kernel
theorem test_wit_Census_resubmit : ({ solQ with fire := some (Firing.mk 12288 1 3 0 0 0) } : Solicit).fire = some (Firing.mk 12288 1 3 0 0 0) ∧ (tgr 2).liveInst 1 3 = true := by
  decide +kernel
theorem test_wit_Instance_end : (let s := { tb with insts := [(1, { tinst 3 with st := 2 })] }; (s.inst 1).gen = 3 ∧ (s.inst 1).st = 2 ∧ s.endFree 1 = true) := by decide +kernel
/-- A child of core 1, stealable in its module. -/
def childA : Child := Child.mk relA (List.replicate 16 0) 0 0 0 1 false 3 false 0
theorem test_wit_Deque : (tb.core 0).spawn.full = false ∧ (let s := (tb.modSpawn 1 (fun u => { u with deque := [(childA, none)] })).dequeLost 1
    (s.core 1).spawn.deque.findIdx? (fun d => childStealable d.1 1 0 && d.1.rel.prio.toNat == 2) = some 0 ∧
      ((s.core 1).spawn.deque.filter (fun d => childStealable d.1 1 0)).foldl (fun n d => Nat.max n d.1.rel.prio.toNat) 0 = 2) := by decide +kernel
theorem test_wit_Join_message : ((tsp.core 0).join 1).asid = 1 ∧ ((tsp.core 0).join 1).st ≠ 0 ∧ (tsp.core 0).refuses = false ∧
    (let s := tsp.modJoin 0 1 (fun x => { x with st := 2 }); ((s.core 0).join 1).st = 2) := by decide +kernel
theorem test_wit_Steal : (let s := (State.reset.modPkg (fun p => p)); s.steals 0 = true ∧ (s.core 0).spawn.victims = []) := by decide +kernel
theorem test_wit_Wave : slabTerm (epSlab (slabTerm 1)) = slabTerm 1 ∧ slabTerm 1 ≠ termRoot ∧ tb.term.waves.find termRoot = none ∧ (0 : Nat) ≠ slabTerm (epSlab 0) ∧
    (let w := Wave.mk [9] 0 [] []; (tb.setWave 5 w).term.waves.find 5 = some w ∧ w.left.erase 9 = [] ∧ ({ w with left := [9, 10] } : Wave).left.erase 9 ≠ []) := by decide +kernel
theorem test_wit_Wave_child : (9 : Nat) ∈ (Wave.mk [9] 0 [] []).left ∧ (tgr 2).liveInst 1 3 = true := by decide +kernel
/-- Core 0 with an OPEN handler 1 of ASID 1 with a ring of 4 slots, and handler 0. -/
def tmh : State :=
  (tb.setHandler 0 1 { Handler.empty with asid := 1, state := 1, rxlog2 := 2, rxbase := 0x1000 }).setHandler 0 0 { Handler.empty with state := 1, rxbase := 0x2000 }
def msgA (h : Nat) : ActiveMsg := ActiveMsg.mk 0 1 0 none 1 2 false (BitVec.ofNat 64 h) [] 2 0 none
theorem test_wit_Active : (tmh.core 0).portRefuses = false ∧ (tmh.core 0).code = 0 ∧ ((tmh.core 0).handler 1).state = 1 ∧ ((tmh.core 0).handler 1).busy.getLsbD 0 = false ∧
    fld (msgA 1).control 0 6 = 1 ∧ (msgA 1).asid = ((tmh.core 0).handler 1).asid ∧ ((tmh.core 0).handler 5).state = 0 ∧ ((tmh.core 0).handler 0).state ≠ 0 := by decide +kernel
theorem test_wit_Active_busy : (let s := tmh.setHandler 0 1 { (tmh.core 0).handler 1 with busy := 1 }; ((s.core 0).handler 1).busy.getLsbD 0 = true) ∧
    (let s := tmh.setHandler 0 1 { (tmh.core 0).handler 1 with state := 2 }; ((s.core 0).handler 1).state = 2) := by decide +kernel
theorem test_wit_Handle_read : (tb.slab 0).hcache.find? (fun e => e.1 == 1 && e.2.1 == 4) = none ∧
    ((tb.modSlab 0 (fun b => { b with hcache := [(1, 4, [])] })).slab 0).hcache.find? (fun e => e.1 == 1 && e.2.1 == 4) = some (1, 4, []) := by decide +kernel
/-- A guest job of ASID 1, and a socket in a state with it. -/
def jobG (st : Nat) : GuestJob := GuestJob.mk 0 0 0 st 2 1 [] 0 none none false false
def tgu (state : Nat) (j : GuestJob) : State := tb.modGuest (fun g => { g with state := state, credits := 8, jobs := [j] })
theorem test_wit_Guest_submission : (List.range 256).find? (fun e => !tb.guest.jobs.any (fun x => x.entry == e)) = some 0 ∧ tb.guest.state ≠ 3 ∧ tb.guest.state ≠ 4 := by decide +kernel
theorem test_wit_Job_delivery : (let g := (tgu 2 (jobG 1)).guest; g.state = 2 ∧ (g.jobs.filter (fun j => j.st == 1)).find? (fun j => j.prio == 2) = some (jobG 1) ∧
    (g.jobs.filter (fun j => j.st == 2)).length + (7 - 2) < g.credits) := by decide +kernel
theorem test_wit_Guest_completion : (tgu 2 (jobG 2)).guest.jobs.find? (fun j => j.st == 2 && jobId j == 0) = some (jobG 2) ∧ (jobG 2).cancelled = false ∧
    ([(5, GuestFault.mk 0 1 1 0x1000)] : SMap GuestFault).find? (fun f => f.2.job == 0 && f.2.va == 0x1000) = some (5, GuestFault.mk 0 1 1 0x1000) := by decide +kernel
theorem test_wit_Translation : (let s := (tgu 2 (jobG 2)).modSlab 3 (fun b => { b with walks := [(1, 0, 0x8001), (1, 0x8000, 0xE000000000000007)] })
    (s.walk 3 1 0x1000 .write).res = .ok 0x1000 false ∧ (s.walk 3 1 0x1000 .write).leaf = some (TlbEntry.mk 1 0 34 0xE000000000000007)) ∧
    (let s := (tgu 2 (jobG 2)).modSlab 3 (fun b => { b with walks := [(1, 0, 0xFFFFFFFF8001)] })
    (s.walk 3 1 0x1000 .read).res = .unpopulated) := by decide +kernel
theorem test_wit_Invalidation : (tb.modGuest (fun g => { g with state := 2, grants := [Grant.mk 3 0 7 0 true true 1 true false] })).guest.grants.any (fun x => x.idx == 3 && x.inval) =
    true := by decide +kernel
theorem test_wit_Poison : paPopulated (lineOf 0x1000) = true ∧ tb.guest.credits = 0 ∧ (tb.modGuest (fun g => { g with state := 2, preempt := some 3 })).dutyOpen 1 = true := by decide +kernel
theorem test_wit_Guest_identity : (let g := (tb.modGuest (fun g => { g with state := 1 })).guest; g.state = 1 ∧ g.credits = 0 ∧ g.grants.length < 4096) ∧
    (tgu 2 (jobG 2)).guest.preempt = none ∧ (tgu 3 (jobG 1)).guest.state = 3 := by decide +kernel
theorem test_wit_Guest_corners : (jobG 2).faulted = false ∧ ({ jobG 2 with faulted := true } : GuestJob).faulted = true ∧ tb.fe.boot ≠ 2 ∧
    (tb.modGuest (fun g => { g with state := 1 })).guest.state = 1 ∧ ({ tb with fe := { tb.fe with boot := 2 } } : State).fe.boot = 2 := by decide +kernel
/-- `tb` with queue 4 in a state, its descriptor of ASID 1 in DRAM, and a packet of a KIND in dispatch. -/
def tqu (st : Nat) (w : List Word) : State :=
  ({ tb with mem := memWrite [] (dramKey 32) ([1, 2].flatMap (toBytes 8)), fe := { tb.fe with boot := 3 } } : State).modQueue 4 (fun x => { x with
    qbase := 0x10000, cbase := 0x20000, en := true, asid := 1, st := st, vState := st, tail := 1, cur := some (0, w) })
theorem test_wit_Doorbell : ahead 3 ((tqu 3 []).queue 4).written ≤ 2 ^ ((tqu 3 []).queue 4).log2 - 1 ∧ ahead 0 ((tqu 3 []).queue 4).chead ≤
    ahead ((tqu 3 []).queue 4).written ((tqu 3 []).queue 4).chead ∧ ¬ (ahead 16 0 ≤ 2 ^ 4 - 1) ∧ ¬ (ahead 1 0 ≤ ahead 0 0) ∧ ((tqu 3 []).queue 4).vState ≠ 0 := by decide +kernel
theorem test_wit_Queue_enable : (tqu 0 []).fe.boot = 3 ∧ (((tqu 0 []).modQueue 4 (fun x => { x with en := true })).queue 4).st = 0 := by decide +kernel
theorem test_wit_Queue_read : (let s := (tqu 3 []).modQueue 4 (fun x => { x with cur := none }); let x := s.queue 4; let w := s.paWords 0x10000 8
    x.st = 3 ∧ x.undispatched ≠ 0 ∧ x.evict = false ∧ x.en = true ∧ s.reading 4 = false ∧ s.pkHeld x w = false ∧ pkEvent 4 (pkKind (w.getD 0 0)) = none) := by decide +kernel
theorem test_wit_Queue_read_kinds : (∀ k ∈ [1, 2, 3, 4, 5, 6, 7, 8], (pkEvent 4 k).isSome = true) ∧
    (let s := (tqu 3 []).modQueue 4 (fun x => { x with cur := none, waits := some (0, 1, 1) }); s.pkHeld (s.queue 4) [] = true) := by decide +kernel
theorem test_wit_Completion : (let s := (tqu 3 []).modQueue 4 (fun x => { x with inflight := [(9, 5)] })
    (s.queue 4).inflight.find? (fun p => p.1 == 9) = some (9, 5)) := by decide +kernel
theorem test_wit_Bar2 : rangePopulated 0x1000 8 = true ∧ rangePopulated (2 ^ 51) 8 = false := by decide +kernel
/-- The packets of each kind, and one whose reserved bits are not zero. -/
def pkRoot : List Word := [0x100000000000000, 0, 0x10000000000, 0, 0, 0, 0, 0]
def pkGraph : List Word := [0x200000000000000, 0x10000, 0x20000, 0x30000, 0, 0, 3, 0]
def pkCopy : List Word := [0x300000000000000, 0, 0x100, 0x800000000, 0x10000, 0, 0, 0]
def pkSignal : List Word := [0x400000000000000, 1, 8, 77, 0, 0, 0, 0]
theorem test_wit_Packets : pkOk pkRoot = true ∧ pkOk pkGraph = true ∧ pkOk pkCopy = true ∧ pkOk pkSignal = true ∧ pkOk [0x500000000000000, 2, 1, 0, 0, 0, 0, 0] = true ∧
    pkOk [0x600000000000000, 1, 0, 0, 0, 0, 0, 0] = true ∧ pkOk [0x700000000000000, 1, 0, 0, 0, 0, 0, 0] = true ∧ pkOk [0x800000000000000, 1, 0, 0, 0, 0, 0, 0] = true ∧
    pkOk [0x800100000000000, 1, 0, 0, 0, 0, 0, 0] = false := by decide +kernel
theorem test_wit_Asid : ((tqu 3 pkRoot).modQueue 4 (fun x => { x with cur := none })).asidOk 1 = true ∧ (tqu 3 pkRoot).asidOk 2 = false ∧
    ((tqu 3 pkRoot).queue 4).cur = some (0, pkRoot) := by decide +kernel
theorem test_wit_Launch_root : (let w := pkRoot.getD 2 0; carvePairOk (fld w 32 4) (fld w 40 4) = true ∧ (tqu 3 pkRoot).rootTarget (fld w 48 14) = true ∧
    carvePairOk (fld 0x700000000 32 4) (fld 0x700000000 40 4) = false ∧ (tqu 3 pkRoot).rootTarget 13000 = false) := by decide +kernel
theorem test_wit_Launch_graph : (let w := pkGraph; runAddrOk [w.getD 1 0, w.getD 2 0, w.getD 3 0, 0x80000000000000, w.getD 4 0, w.getD 5 0, w.getD 6 0, 1] = true ∧
    ((tqu 3 w).inst 3).st = 0 ∧ carvePairOk 0 0 = true) := by decide +kernel
/-- Memory with a handle table at 0x40000: entry 0 a word of LM of core 3, entry 1 GLOBAL at 0x1000. -/
def memH : List Host.Cell :=
  memWrite (memWrite [] (dramKey 32) ([0x40001, 2].flatMap (toBytes 8))) (dramKey 0x40000)
    ([0, 0x1000, 0xC0000001, 0x87, 0x1000, 0x1000, 2, 0x87].flatMap (toBytes 8))
/-- `tqu` with that table, its pages mapped. -/
def tqh (w : List Word) : State :=
  ({ tqu 3 w with mem := memH } : State).modSlab 0 (fun b => { b with walks := [(1, 0, 0x8001), (1, 0x8000, 0xE000000000000007)] })
def pkCopyH : List Word := [0x300000000000000, 0, 0x100, 0x800000000, 0x10001, 0, 0, 0]
theorem test_wit_Queue_copy : (let s := tqh pkCopyH; let w := pkCopyH; let r := [w.getD 1 0, w.getD 2 0, w.getD 3 0, BitVec.ofNat 64 (2 ^ 55)]
    cqOp r = 0 ∧ cqOk r = true ∧ zeroField (w.getD 3 0) 18 6 = true ∧ zeroField (w.getD 3 0) 10 8 = true ∧
    (s.engineHandle 1 1).map (fun h => h.space != 0 && (State.copyCheck h 0 false 0 (cqLen r)).isNone && (State.copyCheck h 0 true 0x100 (cqLen r)).isNone && cqAligned r h h) =
      some true) := by decide +kernel
theorem test_wit_Signal : (let s := tqh pkSignal; (s.engineHandle 1 1).map (fun h => h.space == 2 && (State.copyCheck h 0 true 8 8).isNone && (h.base.toNat + 8) % 8 == 0) = some true ∧
    (s.engineHandle 1 0).map (fun h => h.space == 1 && (State.copyCheck h 0 true 8 8).isNone && !s.disabled h.target) = some true ∧
    (s.walk 0 1 0x1008 .write).res = .ok 0x1008 false) := by decide +kernel
/-- ONCE accesses of the host port under way for a use, and the request that is answered. -/
def onceA (use : OnceUse) (todo : List HomeReq) : OnceOp := OnceOp.mk 6 hostEp todo [] false use
def onceQ : HomeReq := { homeReq .wb hostEp (lineOf 0x1000) 0 false false with once := true, tag := 6 }
theorem test_wit_Once : hostlike onceQ = true ∧ onceQ.agent ≠ 256 ∧ (∀ u ∈ [OnceUse.hostWrite, .signal 4 9, .completion 4 9, .hostRead 0x1000, .packet 4 9],
    ({ tb with once := [onceA u []] } : State).once.find? (fun o => o.id == onceQ.tag) = some (onceA u [])) ∧
    (({ tb with once := [onceA (.packet 4 9) []] } : State).slabApply (routerOf onceQ.src / 128) onceQ.line).once = [onceA (.packet 4 9) []] ∧
    (onceA .hostWrite [onceQ]).todo = [onceQ] := by decide +kernel
theorem test_wit_Launch_held : (let s := tqu 3 pkRoot; s.launchHeld 1 = false) ∧
    (let s := tqu 3 pkRoot; let t : State := { s with term := { s.term with slots := vset s.term.slots 0 { TSlot.free with st := 1, asid := 1 } } }; t.launchHeld 1 = true) := by
  decide +kernel
theorem test_wit_Bedrock_packets : (let m := BitVec.ofNat 16 (fld 1 0 16); m ≠ 0 ∧ (maskGroups m).any (fun k => (tb.group 0 k).disabled) = false) ∧ BitVec.ofNat 16 (fld 0x10000 0 16) = 0 := by
  decide +kernel
theorem test_wit_Prefetch : (let s := (tqu 3 []).modQueue 4 (fun x => { x with cur := none, waits := some (0, 1, 1) }); let x := s.queue 4
    x.st = 3 ∧ 0 < x.undispatched ∧ s.asidOk x.asid = true ∧ s.peekPoison (lineOf 0x10000) = false ∧ s.pkHeld x (s.paWords 0x10000 8) = true) := by decide +kernel
theorem test_wit_Enable_again : ((tqu 0 []).queue 4).vState = 0 := by decide +kernel
/-- A key, and signatures under it of a marker copy of SEQ 4 and slot 0 and of an image of one byte. -/
def keyA : List Byte := bytesBE 32 113042684653775552617586342594182756080025019985341994663622957232395718069349 ++
  bytesBE 32 50989382965619796173862140211412875962104512190605617615950617265300572962542
def sigM : List Byte := bytesBE 32 34092382651828523794907714766670096298687862227384366497897623220016331831671 ++
  bytesBE 32 28319937238427776694856720914825948834499198225797260577774699781643182724089
def sigI : List Byte := bytesBE 32 101185041835926428040576346424133754270437294239532133083593897407343513745133 ++
  bytesBE 32 13021319565257317809333735272924155187024269419936743405357298045741036686892
/-- Flash with that marker copy and image, the hash of the key fused. -/
def flashA : Flash := { Flash.blank with
  keyHash := bytesBE 32 81708426601779402229052054488005531297887407800004344248746401167487442518289
  marker0 := toBytes 8 0x4D524B ++ toBytes 4 4 ++ List.replicate 48 0 ++ toBytes 4 2397077187 ++ sigM
  imageA := Image.mk keyA sigI 0 0x10000 7 false [(0x10000, [1])] }
theorem test_crc32 : crc32 [0x61, 0x62, 0x63] = 0x352441C2 := by decide +kernel
theorem test_sha256 : ofBytesBE (sha256 [0x61, 0x62, 0x63]) = 0xba7816bf8f01cfea414140de5dae2223b00361a396177a9cb410ff61f20015ad := by decide +kernel
theorem test_wit_Boot : flashA.choose = .inl (Marker.mk 4 0) ∧ Flash.blank.choose = .inr 1 ∧ ({ flashA with imageA := Image.blank } : Flash).choose ≠ .inl (Marker.mk 4 0) ∧
    tb.didv = false := by decide +kernel
theorem test_wit_Reset : State.reset.fe.boot ≠ 1 ∧ ({ tb with fe := { tb.fe with boot := 1 } } : State).net.any (fun m => m.ev == .moduleReset) = false := by decide +kernel
/-- A window operation on a word. -/
def wop (cls inst off : Nat) (data : Word) : WinOp := WinOp.mk 8 1 0 (BitVec.ofNat 64 (cls * 2 ^ 37 + inst * 2 ^ 23 + off)) data
def thereW (s : State) (q : WinOp) : Bool := (s.opWord q).isSome && (2 < winCls q || !s.disabled (winInst q))
theorem test_wit_Window_words : ([wop 0 0 0x40 0, wop 0 0 0x400 0, wop 3 0 0 0, wop 4 0 0 0, wop 4 0 0x400 0, wop 4 0 8 0, wop 2 0 0x2300 0, wop 10 516 0x1100 0].all
    (thereW tb)) = true := by decide +kernel
theorem test_wit_Window_words2 : ([wop 10 7 0x1300 0, wop 6 8192 0x20 0, wop 9 0 0x48 0, wop 0 0 0x7000 0, wop 11 0 0x2000 0, wop 12 0 8 0, wop 12 0 0x20 0,
    wop 0 0 0x700 0, wop 0 0 0x718 0, wop 0 0 0x720 0, wop 7 12320 0x100 0, wop 7 12320 0x118 0, wop 7 12320 0x120 0].all (thereW tb)) = true := by decide +kernel
theorem test_wit_Window_none : tb.opWord (wop 15 0 0 0) = none ∧ tb.opWord (wop 0 0 0x98 0) = some 0 ∧ winRc 0 0x98 = true := by decide +kernel
theorem test_wit_Window_effects :
    (let s := tb.modCore 0 (fun c => { c with monitors := [Monitor.mk 0 (ArmReq.mk 0 0 0x100 false .eq 0 relA)] }); (s.core 0).monitors.find? (fun x => x.idx == 0) =
      some (Monitor.mk 0 (ArmReq.mk 0 0 0x100 false .eq 0 relA))) ∧
    (tb.core 3).code = 0 ∧ (ta.arr 0).setIdle 0 = true ∧ (tb.arr 0).slotIdle 0 = true ∧
    ((tb.modArr 0 (fun a => { a with drains := [drainA] })).arr 0).setIdle 0 = false ∧ (tgr 2).inst 1 = tinst 2 ∧ (tinst 2).st = 1 ∧
    (let s : State := { tb with term := { tb.term with slots := vset tb.term.slots 0 { TSlot.free with st := 2 } } }; (vget TSlot.free s.term.slots 0).st = 2) := by decide +kernel
theorem test_wit_Svclear : (tcen.port 0).dir.find 0 = some (Tile.mk 1 9 1 0 64 2 0 0 false 0 false 0 0 none) := by decide +kernel
theorem test_wit_Rings : (tb.ring 0).mode = 0 ∧ ({ TraceRing.reset with ctl := 0x100000000 } : TraceRing).mode = 1 ∧
    ({ TraceRing.reset with ctl := 0x200000000 } : TraceRing).mode = 2 ∧ fld 0x100000001 32 2 = 1 := by decide +kernel
theorem test_wit_Tlbinv : (tm.dropXlate 1 0 0).asidBusy 1 = false ∧
    (let s := tm.modCore 4096 (fun c => { c with oq := [QEnt.mk 5 1 2 (.access { accLd with space := 2 } .rlx) false 5 false] }); (s.dropXlate 1 0 0).asidBusy 1 = true) ∧
    ((tb.modGuest (fun g => { g with state := 2, grants := [Grant.mk 3 0 7 0 true true 1 false false] })).guest.grants.filter (fun g => g.asid == 1 && pageHit 0 0 g.page (pageBits g.size))) ≠ [] := by
  decide +kernel
theorem test_wit_Corereset : ((tb.modCore 0 (fun c => { c with code := 3 })).core 0).code = 3 ∧ (tb.core 0).code ≠ 3 ∧ (tb.core 0).code ≠ 4 := by decide +kernel
theorem test_wit_Slotend : (tgr 2).unread 1 = false ∧ (let s : State := { tgr 2 with insts := [(1, { tinst 2 with hdr := [], recs := [], nodes := [] })] }; s.unread 1 = true) ∧
    (∀ k < 8, fld 0 (8 * k) 5 = 0) := by decide +kernel
theorem test_wit_Decode : (Instr.add false 12 11 6).wellFormed = true ∧ aForm (.add false 12 11 6) = true ∧ (Instr.liH 7).wellFormed = true ∧
    cForm (.liH 7) = true ∧ Instr.wellFormed (.slli true 31 1 2) = true ∧ cForm (.slli true 31 1 2) = true := by decide +kernel
/-- `tb` about to issue: a bundle's line held, the frame's pc at 0x100, a turn for core 0 named. -/
def tgo (w0 w1 : Half) : State :=
  let c := ((tb.core 0).setWin 2 { tb.cf with pc := 0x100 }).putCode 1 0x100 (w1 ++ w0)
  { tb.setCore 0 c with agenda := [.issue 0] }
theorem test_wit_Steps : (let s := tgo 0xFE814504 0x00316604; let u := s.turnOf.2.settleAll.netTick
    s.turnOf.1 = .issue 0 ∧ s.pkg.tripped = false ∧ u.canIssue 0 = true ∧ (u.core 0).top = some 2 ∧ (u.frame 0 2).spilled = false ∧
      (u.core 0).fetch (u.frame 0 2) = some (0xFE814504, 0x00316604) ∧ bundleFault 0xFE814504 0x00316604 = false ∧ s.agenda = [.issue 0]) ∧
    (let s := tgo 0x00000709 0x12345678; let u := s.turnOf.2.settleAll.netTick
    u.canIssue 0 = true ∧ (u.core 0).fetch (u.frame 0 2) = some (0x00000709, 0x12345678) ∧ bundleFault 0x00000709 0x12345678 = false) := by decide +kernel
theorem test_wit_Steps_deliver : (let m := Msg.mk 1 1 0 0 .eject 0 0 (.copyDeferral cqA)
    let s : State := { tb with net := [m], agenda := [.deliver 0] }
    let u := s.turnOf.2.settleAll.netTick
    s.turnOf.1 = .deliver 0 ∧ u.net[0]? = some m ∧ m.ch = .eject ∧ u.servable 0 m = true ∧ u.redirects m.dst = false) ∧
    (let s : State := { tb with agenda := [.input (.powerReport 9)] }
    s.turnOf.1 = .input (.powerReport 9) ∧ s.pkg.tripped = false ∧ hostRequest (.powerReport 9) = false ∧ external (.powerReport 9) = true) := by decide +kernel
theorem test_wit_Slots : (let s : State := { tb with iss := Issue.mk 0 2 0x100 0xFE814504 0x00316604 false 0 .go }
    decodeC s.iss.w0 s.iss.lone = .ok (.addi false 0x1FD 10 5) ∧ s.cf.poisoned (.addi false 0x1FD 10 5) = none ∧
      decodeA s.iss.w1 = .ok (.add false 12 11 6) ∧ (s.modCf (fun f => { f with poisonX := 1 <<< 10 })).cf.poisoned (.addi false 0x1FD 10 5) ≠ none) ∧
    decodeC 0 false = .error .unassigned ∧ decodeA 0 = .error .unassigned := by decide +kernel
theorem test_wit_Tripped : (let s : State := { tb with pkg := { tb.pkg with tripped := true }, agenda := [.tick] }
    s.pkg.tripped = true ∧ Turn.input .moduleReset ∉ s.agenda) := by decide +kernel
theorem test_wit_RegisterForms : tb.iss.win < 8 ∧ registerForm (.jal 5 1) = true ∧ (∃ t, exec (.jal 5 1) tb = .next t) := by
  refine ⟨by decide, by decide, ?_⟩
  exact ⟨_, rfl⟩
theorem test_wit_Csel : (0x04316610 : Half).extractLsb' 0 2 = 0 ∧ (0x04316610 : Half).extractLsb' 2 6 = 0x04#6 ∧ (0x04316610 : Half).extractLsb' 28 4 = 0 ∧
    (0x10000010 : Half).extractLsb' 28 4 ≠ 0 := by decide +kernel
theorem test_wit_Companions : decodeC 0x08000080 false = .ok .endTask ∧ decodeC 0x08000081 true = .ok .endTask ∧ decodeC 0x10048080 false = .ok (.ends 1 4) ∧
    decodeC 0x40000080 false = .ok .eret ∧ decodeC 0x48008080 false = .ok (.fkill 4) ∧ decodeC 0x50048580 false = .ok (.migr 1 4 5) := by decide +kernel
/-- `tb` with h5 a HOST handle, h6 REMOTE to core 1 and h7 REMOTE to the own core. -/
def th : State := tb.modCf (fun f => { f with h := vset (vset (vset f.h 5 (Handle.mk 0 0x100 4 0x183 1 4)) 6 (Handle.mk 0 0x100 0x40000001 0x187 1 4)) 7 (Handle.mk 0 0x100 1 0x187 1 4) })
theorem test_wit_Checks : th.check false 4 0 8 8 .load false false [0, 1, 2, 4] = .fault 48 (4 <<< 61) ∧
    th.check false 5 0 8 8 .load false false [0, 1, 2, 4] = .fault 26 (5 <<< 61) ∧
    th.check false 0 8 8 8 .store false false [0, 1, 2, 4] = .ok (Target.mk 0 0 8 false false none) ∧
    th.check false 6 8 8 8 .store false false [0, 1, 2, 4] = .ok (Target.mk 1 1 8 false false none) ∧
    th.check false 7 8 8 8 .store false false [0, 1, 2, 4] = .ok (Target.mk 0 0 8 false false none) ∧
    th.check false 7 4 8 8 .store false false [0, 1, 2, 4] = .fault 6 0xF000000000000004 ∧
    th.check false 7 0xFC 8 4 .load false false [0, 1, 2, 4] = .fault 25 0xE0000000000000FC := by decide +kernel
theorem test_wit_ChecksOnMemoryCores :
    (tm.modCf (fun f => { f with h := vset f.h 5 (Handle.mk 0 0x100 4 0x183 1 4) })).check false 5 0 8 8 .load false false [0, 1, 2, 4]
      = .ok (Target.mk 4 (agentEp 0 0x81) 0 false false none) ∧
    tm.check false 2 8 8 8 .load false false [0, 1, 2, 4] = .ok (tmTarget 8) := by decide +kernel
theorem test_wit_Stores : Memory.wf tb.mem = true ∧ tb.room 2 1 = none ∧ passes tb 0 0x108 8 8 .store false (Target.mk 0 0 0x108 false false none) ∧
    passes tb 0 0x108 16 8 .load false (Target.mk 0 0 0x108 false false none) ∧
    passes tb 0 0x108 8 8 .atomic false (Target.mk 0 0 0x108 false false none) ∧
    accSt.op = .store [7] ∧ accLd.op = .load 1 := by decide +kernel
theorem test_wit_NoLanes : tb.cf.nLanes = 0 ∧ tb.cf.fcsr.toNat / 32 % 8 ≤ 4 := by decide +kernel
theorem test_wit_Flags : (let r := Result.mk 90 0 (dstX 5) (some 0) (.word 9) 0 [] 1 false false 0
    (tb.frame 0 2).writeStreamOf r.dst = none ∧ isMemCore 0 = false ∧
      ((tb.writeBack 0 2 r (.word 9) 0x21 false).frame 0 2).fcsr = 0x101 ∧ ((tb.writeBack 0 2 r (.word 9) 0x21 false).geode 0).sticky = 0x21) := by decide +kernel
/-- A bundle of JALR to a misaligned address and ADD. -/
def tjr : State := ({ tb with iss := Issue.mk 0 2 0x100 (encode (.jalr 0 3 1)) 0x00316604 false 0 .go } : State).modCf (fun f => f.putX 3 4)
theorem test_wit_FaultForms : decodeC tjr.iss.w0 false = .ok (.jalr 0 3 1) ∧ decodeA tjr.iss.w1 = .ok (.add false 12 11 6) ∧
    tjr.cf.poisoned (.jalr 0 3 1) = none ∧ tjr.cf.poisoned (.add false 12 11 6) = none ∧
    (match tjr.slots with | .next t => t.iss.stop == .fault && t.cf.pending == some (PFault.mk 0 4 0x100 false) | _ => false) = true := by decide +kernel
/-- `tb` with 16 results outstanding, and with 32 entries queued. -/
def tfull : State := tb.modCf (fun f => { f with outs := List.replicate 16 (Result.mk 91 1 (dstX 6) none (.word 0) 0 [] 1 false false 0) })
def tqueue : State := tb.modCore 0 (fun c => { c with oq := (List.range 32).map (fun k => QEnt.mk k 1 2 (.access { accLd with id := k, part := 0 } .rlx) false k false) })
theorem test_wit_Room : 16 < (tfull.cf.outs.filter (fun r => r.due.isNone)).length + 1 ∧
    (tqueue.cf.outs.filter (fun r => r.due.isNone)).length + 2 ≤ 16 ∧ 32 < tqueue.cc.queueDepth + 1 := by decide +kernel
theorem test_wit_Latch : ((tgo 0xFE814504 0x00316604).core 0 |>.win 2).latch = none ∧ (tb.frame 0 2).latch = none ∧
    ((tb.hold .answer).frame 0 2).latch.isSome = true := by decide +kernel
theorem test_wit_Firmware : (let u : State := { tb with fe := { tb.fe with boot := 3 }, pkg := { tb.pkg with flash := flashA } }
    u.fe.boot = 3 ∧ u.fe.bslot = 0 ∧ u.portHolds (u.pkg.regionrt.get 31 4095) (fun d => d / 1024 == 4095 && 4095 != u.devId.toNat / 1024) = false ∧
    u.portHolds (u.pkg.localrt.get 31 1023) (fun d => d / 1024 == u.devId.toNat / 1024 && d % 1024 == 1023) = false ∧
    u.pkg.flash.markers = [Marker.mk 4 0] ∧ u.pkg.flash.nextCopy 4 = 1 ∧ u.pkg.flash.mayMark (Marker.mk 4 0) 0 [] = true ∧
    u.pkg.flash.mayMark (Marker.mk 4 0) 0 flashA.marker0 = true) ∧
    ({ tb with agenda := [.firmware (.region 0 3)] } : State).turnOf.1 = .firmware (.region 0 3) := by decide +kernel
theorem wit_ImmediateForms : (Instr.slli true 31 1 2).wellFormed = true ∧ (Instr.srli false 63 1 2).wellFormed = true ∧
    (Instr.srai false 0 1 2).wellFormed = true := by decide
theorem wit_BranchesAndJumps : ((State.reset.xr 1) + 8 * (5 : BitVec 9).signExtend 64).toNat % 8 = 0 := by decide
def witMis : State := State.reset.modCf (fun f => f.putX 1 4)
theorem wit_BranchesAndJumps2 : (witMis.xr 1 + 8 * (5 : BitVec 9).signExtend 64).toNat % 8 ≠ 0 := by decide

end Sys2Proof.Tests
end

section
/-! The state-access window: the rule of each shared operation, and what its reads and writes do (17_package.md R525, R526). -/

namespace Sys2Proof.Machine

/-! ## The event of a window step is the one that its effect reads -/

section
variable {s : State} {q : WinOp}

theorem exec_sawRead_of_ev (h : s.ev = some (.sawRead q)) : exec .sawRead s = execSawRead q s := by
  rw [show exec .sawRead s = runSawRead s from rfl, runSawRead, h]
theorem exec_sawDone_of_ev {err : Nat} (h : s.ev = some (.sawDone q err)) : exec .sawDone s = execSawDone q err s := by
  rw [show exec .sawDone s = runSawDone s from rfl, runSawDone, h]
theorem exec_clearOnRead_of_ev {r : RegRead} (h : s.ev = some (.clearOnRead r)) : exec .clearOnRead s = execClearOnRead r s := by
  rw [show exec .clearOnRead s = runClearOnRead s from rfl, runClearOnRead, h]
theorem exec_registerWrite_of_ev {r : RegWrite} (h : s.ev = some (.registerWrite r)) :
    exec .registerWrite s = execRegisterWrite r s := by
  rw [show exec .registerWrite s = runRegisterWrite s from rfl, runRegisterWrite, h]
theorem exec_recbusyClear_of_ev (h : s.ev = some (.recbusyClear q)) : exec .recbusyClear s = execRecbusyClear q s := by
  rw [show exec .recbusyClear s = runRecbusyClear s from rfl, runRecbusyClear, h]
theorem exec_monitorFree_of_ev (h : s.ev = some (.monitorFree q)) : exec .monitorFree s = execMonitorFree q s := by
  rw [show exec .monitorFree s = runMonitorFree s from rfl, runMonitorFree, h]
theorem exec_lquotaWrite_of_ev (h : s.ev = some (.lquotaWrite q)) : exec .lquotaWrite s = execLquotaWrite q s := by
  rw [show exec .lquotaWrite s = runLquotaWrite s from rfl, runLquotaWrite, h]
theorem exec_cmaskWrite_of_ev (h : s.ev = some (.cmaskWrite q)) : exec .cmaskWrite s = execCmaskWrite q s := by
  rw [show exec .cmaskWrite s = runCmaskWrite s from rfl, runCmaskWrite, h]
theorem exec_slotstEmpty_of_ev (h : s.ev = some (.slotstEmpty q)) : exec .slotstEmpty s = execSlotstEmpty q s := by
  rw [show exec .slotstEmpty s = runSlotstEmpty s from rfl, runSlotstEmpty, h]
theorem exec_settagFree_of_ev (h : s.ev = some (.settagFree q)) : exec .settagFree s = execSettagFree q s := by
  rw [show exec .settagFree s = runSettagFree s from rfl, runSettagFree, h]
theorem exec_svclear_of_ev (h : s.ev = some (.svclear q)) : exec .svclear s = execSvclear q s := by
  rw [show exec .svclear s = runSvclear s from rfl, runSvclear, h]
theorem exec_censend_of_ev (h : s.ev = some (.censend q)) : exec .censend s = execCensend q s := by
  rw [show exec .censend s = runCensend s from rfl, runCensend, h]
theorem exec_barfree_of_ev (h : s.ev = some (.barfree q)) : exec .barfree s = execBarfree q s := by
  rw [show exec .barfree s = runBarfree s from rfl, runBarfree, h]
theorem exec_cancel_of_ev (h : s.ev = some (.cancel q)) : exec .cancel s = execCancel q s := by
  rw [show exec .cancel s = runCancel s from rfl, runCancel, h]
theorem exec_slotend_of_ev (h : s.ev = some (.slotend q)) : exec .slotend s = execSlotend q s := by
  rw [show exec .slotend s = runSlotend s from rfl, runSlotend, h]
theorem exec_joinctrFree_of_ev (h : s.ev = some (.joinctrFree q)) : exec .joinctrFree s = execJoinctrFree q s := by
  rw [show exec .joinctrFree s = runJoinctrFree s from rfl, runJoinctrFree, h]
theorem exec_tslotFree_of_ev (h : s.ev = some (.tslotFree q)) : exec .tslotFree s = execTslotFree q s := by
  rw [show exec .tslotFree s = runTslotFree s from rfl, runTslotFree, h]
theorem exec_gctlFence_of_ev (h : s.ev = some (.gctlFence q)) : exec .gctlFence s = execGctlFence q s := by
  rw [show exec .gctlFence s = runGctlFence s from rfl, runGctlFence, h]
theorem exec_gctlRetrain_of_ev (h : s.ev = some (.gctlRetrain q)) : exec .gctlRetrain s = execGctlRetrain q s := by
  rw [show exec .gctlRetrain s = runGctlRetrain s from rfl, runGctlRetrain, h]
theorem exec_jobcancel_of_ev (h : s.ev = some (.jobcancel q)) : exec .jobcancel s = execJobcancel q s := by
  rw [show exec .jobcancel s = runJobcancel s from rfl, runJobcancel, h]

end

/-! ## An action on a word of the window -/

/-- A window operation names a word that reads as `w`, of a block whose core, if it has one, is not disabled (R526). -/
def State.opThere (s : State) (q : WinOp) (w : Word) : Prop :=
  s.opWord q = some w ∧ (winCls q ≤ 2 → s.disabled (winInst q) = false)

/-- No block of a disabled core is named, so neither `winAct` nor a read that clears turns away. -/
theorem State.opThere.enabled {s : State} {q : WinOp} {w : Word} (h : s.opThere q w) :
    (decide (winCls q ≤ 2) && s.disabled (winInst q)) = false := by
  by_cases hc : winCls q ≤ 2
  · simp [h.2 hc]
  · simp [hc]

theorem State.winAct_noWord {s : State} {q : WinOp} (act : State → Nat × State) (h : s.opWord q = none) :
    s.winAct q act = s.sawEnd q 2 none := by
  simp only [State.winAct, h]

/-- Where the word is there, the operation has the action's effect and ends as the action says. -/
theorem State.winAct_there {s t : State} {q : WinOp} {w : Word} {act : State → Nat × State} {e : Nat}
    (h : s.opThere q w) (hact : act s = (e, t)) : s.winAct q act = t.sawEnd q e none := by
  simp [State.winAct, h.1, h.enabled, hact]

/-- As `winAct_there`, for a step that consists of such an action. -/
theorem next_winAct_there {s t : State} {q : WinOp} {w : Word} {act : State → Nat × State} {e : Nat}
    (h : s.opThere q w) (hact : act s = (e, t)) : (.next (s.winAct q act) : Out) = .next (t.sawEnd q e none) :=
  congrArg _ (State.winAct_there h hact)

/-! ## Reads -/

theorem execSawRead_word {s : State} {q : WinOp} {w : Word} (h : s.opWord q = some w) :
    execSawRead q s = .next { s.sawEnd q 0 (some w) with fv := s.fv + 1 } := by
  simp only [execSawRead, h]
theorem execSawRead_noWord {s : State} {q : WinOp} (h : s.opWord q = none) :
    execSawRead q s = .next (s.sawEnd q 2 (some 0)) := by
  simp only [execSawRead, h]
theorem execClearOnRead_noWord {s : State} {q : WinOp} (h : s.opWord q = none) :
    execClearOnRead (.window q) s = .next (s.sawEnd q 2 (some 0)) := by
  simp only [execClearOnRead, h]
theorem execClearOnRead_there {s : State} {q : WinOp} {w : Word} (h : s.opThere q w) :
    execClearOnRead (.window q) s = .next ((s.clearRc (winCls q) (winInst q) (winOff q)).sawEnd q 0 (some w)) := by
  simp [execClearOnRead, h.1, h.enabled]

/-! ## Writes whose effect depends on the state -/

/-- No bit of a written CMASK is refused when each was set before or belongs to a core of state 0 (R331). -/
theorem cmask_refuses_none {s : State} {g : Nat} {m : BitVec 8}
    (h : ∀ c < 8, m.getLsbD c = true → (s.arr g).cmask.getLsbD c = true ∨ (s.core (8 * g + c)).code = 0) :
    (List.range 8).any (fun c => m.getLsbD c && !(s.arr g).cmask.getLsbD c && (s.core (8 * g + c)).code != 0) = false := by
  rw [List.any_eq_false]
  intro c hc
  cases hm : m.getLsbD c with
  | false => simp
  | true =>
    rcases h c (List.mem_range.1 hc) hm with hset | hcode
    · simp [hset]
    · simp [hcode]

/-- A write of zeros to eight slots without readers empties all of them (R309). -/
theorem execSlotstEmpty_idle {s : State} {q : WinOp} {w : Word} (ht : s.opThere q w)
    (hz : ∀ k < 8, fld q.data (8 * k) 5 = 0)
    (hi : ∀ k < 8, (s.arr (winInst q)).slotIdle (winOff q - 0x400 + k) = true) :
    execSlotstEmpty q s = .next ((((List.range 8).foldl (fun t k => t.emptySlot (winInst q) (winOff q - 0x400 + k)) s).arrayKick
      (winInst q)).sawEnd q 0 none) := by
  have hp : ∀ k ∈ List.range 8, (fld q.data (8 * k) 5 == 0 && (s.arr (winInst q)).slotIdle (winOff q - 0x400 + k)) = true := by
    intro k hk
    simp [hz k (List.mem_range.1 hk), hi k (List.mem_range.1 hk)]
  refine next_winAct_there ht ?_
  simp only [List.all_eq_true.2 hp, List.filter_eq_self.2 hp, if_true]

theorem execMonitorFree_found {s : State} {q : WinOp} {w : Word} {x : Monitor} (ht : s.opThere q w) (h0 : q.data = 0)
    (hx : (s.core (winInst q)).monitors.find? (fun x => x.idx == (winOff q - 0x400) / 16) = some x) :
    execMonitorFree q s = .next (((s.modCore (winInst q) (fun c => { c with
      monitors := c.monitors.filter (fun y => y.idx != (winOff q - 0x400) / 16) })).countRecv x.q.rel.srcEp x.q.rel.asid).sawEnd q 0 none) := by
  refine next_winAct_there ht ?_
  simp [h0, hx]

theorem execSvclear_found {s : State} {q : WinOp} {w : Word} {t : Tile} (ht : s.opThere q w)
    (hf : (s.port (winInst q)).dir.find q.data.toNat = some t) :
    execSvclear q s = .next ((s.modTile (winInst q) q.data.toNat (fun t => { t with sv := false })).sawEnd q 0 none) := by
  refine next_winAct_there ht ?_
  simp only [hf]

/-- SLOTEND of a slot whose header the master has still to read comes again later (R456). -/
theorem execSlotend_unread {s : State} {q : WinOp} (hn : q.data.toNat < 256) (hu : s.unread q.data.toNat = true) :
    execSlotend q s = .next (s.later (.slotend q)) := by
  simp [execSlotend, hn, hu]
theorem execSlotend_live {s : State} {q : WinOp} {w : Word} (ht : s.opThere q w) (hn : q.data.toNat < 256)
    (hu : s.unread q.data.toNat = false) (hl : (s.inst q.data.toNat).st = 1) :
    execSlotend q s = .next ((s.slotEndWrite q.data.toNat).sawEnd q 0 none) := by
  rw [execSlotend, hu, Bool.and_false, if_neg Bool.false_ne_true]
  refine next_winAct_there ht ?_
  simp [hn, hl]

/-- Settles O43: each step is the effect of its event, and a write is an action on the word that is there. -/
theorem windowAccessesComplete : Obligations.WindowAccessesComplete := by
  unfold Obligations.WindowAccessesComplete
  intro s q off size err v w i o there ends
  refine ⟨?sawRead, ?sawDone, ?clearNoWord, ?clearWord, ?clearBar0, ?writeWord, ?writeBar0, ?recbusy, ?monitor, ?lquota, ?cmask,
    ?slotst, ?settag, ?sv, ?censend, ?barfree, ?cancel, ?slotendUnread, ?slotendLive, ?joinctr, ?tslot, ?fence, ?retrain, ?jobcancel⟩
  case sawRead =>
    intro he
    rw [exec_sawRead_of_ev he]
    exact ⟨execSawRead_word, execSawRead_noWord⟩
  case sawDone => exact fun he => exec_sawDone_of_ev he
  case clearNoWord => exact fun he hn => (exec_clearOnRead_of_ev he).trans (execClearOnRead_noWord hn)
  case clearWord => exact fun he ht => (exec_clearOnRead_of_ev he).trans (execClearOnRead_there ht)
  case clearBar0 =>
    intro he t
    rw [exec_clearOnRead_of_ev he]
    simp only [execClearOnRead, beq_iff_eq, t]
  case writeWord =>
    intro he
    exact ⟨fun ht => (exec_registerWrite_of_ev he).trans (next_winAct_there ht rfl),
      fun hn => (exec_registerWrite_of_ev he).trans (congrArg _ (State.winAct_noWord _ hn))⟩
  case writeBar0 => exact fun he => exec_registerWrite_of_ev he
  case recbusy => exact fun he ht => (exec_recbusyClear_of_ev he).trans (next_winAct_there ht rfl)
  case monitor => exact fun x he ht h0 hx => (exec_monitorFree_of_ev he).trans (execMonitorFree_found ht h0 hx)
  case lquota =>
    intro sum he ht
    exact ⟨fun hle => (exec_lquotaWrite_of_ev he).trans (next_winAct_there ht (if_neg (Nat.not_lt.2 hle))),
      fun hlt => (exec_lquotaWrite_of_ev he).trans (next_winAct_there ht (if_pos hlt))⟩
  case cmask =>
    intro m he ht hm
    exact (exec_cmaskWrite_of_ev he).trans (next_winAct_there ht (if_neg (Bool.eq_false_iff.1 (cmask_refuses_none hm))))
  case slotst => exact fun he ht hz hi => (exec_slotstEmpty_of_ev he).trans (execSlotstEmpty_idle ht hz hi)
  case settag =>
    intro k he ht
    exact ⟨fun hk => (exec_settagFree_of_ev he).trans (next_winAct_there ht (if_neg (Bool.eq_false_iff.1 (congrArg not hk)))),
      fun hk => (exec_settagFree_of_ev he).trans (next_winAct_there ht (if_pos (congrArg not hk)))⟩
  case sv => exact fun t he ht hf => (exec_svclear_of_ev he).trans (execSvclear_found ht hf)
  case censend => exact fun he ht => (exec_censend_of_ev he).trans (next_winAct_there ht rfl)
  case barfree => exact fun he ht => (exec_barfree_of_ev he).trans (next_winAct_there ht rfl)
  case cancel => exact fun he ht => (exec_cancel_of_ev he).trans (next_winAct_there ht rfl)
  case slotendUnread => exact fun he hn hu => (exec_slotend_of_ev he).trans (execSlotend_unread hn hu)
  case slotendLive => exact fun he ht hn hu hl => (exec_slotend_of_ev he).trans (execSlotend_live ht hn hu hl)
  case joinctr => exact fun he ht => (exec_joinctrFree_of_ev he).trans (next_winAct_there ht rfl)
  case tslot =>
    rintro k rfl he ht h0 hst
    exact (exec_tslotFree_of_ev he).trans (next_winAct_there ht (if_pos (Bool.and_eq_true_iff.2 ⟨beq_iff_eq.2 h0, beq_iff_eq.2 hst⟩)))
  case fence => exact fun he ht => (exec_gctlFence_of_ev he).trans (next_winAct_there ht rfl)
  case retrain => exact fun he ht => (exec_gctlRetrain_of_ev he).trans (next_winAct_there ht rfl)
  case jobcancel => exact fun he ht => (exec_jobcancel_of_ev he).trans (next_winAct_there ht rfl)

end Sys2Proof.Machine
end

section
/-! Decoding inverts encoding (02_bundles.md R49 to R57). -/

namespace Sys2Proof.Laws
open Sys2Proof Sys2Proof.Machine Sys2Proof.Safety

/-! ## The fields of an assembled word -/

section
variable {w : Half} {a : BitVec 9} {b c d : Reg} {m : BitVec 6} {k : BitVec 2}

theorem fields_of_five (h : w = five a b c d m) :
    w.extractLsb' 0 2 = 0 ∧ f9 w = a ∧ fRs2 w = b ∧ fRs1 w = c ∧ fRd w = d ∧ fMaj w = m := by
  subst h
  exact ⟨low_five .., f9_word .., fRs2_word .., fRs1_word .., fRd_word .., fMaj_word ..⟩
/-- The bits W and L are in no field. -/
theorem fields_of_five_or (h : w = five a b c d m ||| k.setWidth 32) :
    f9 w = a ∧ fRs2 w = b ∧ fRs1 w = c ∧ fRd w = d ∧ fMaj w = m := by
  subst h
  exact ⟨f9_five .., fRs2_five .., fRs1_five .., fRd_five .., fMaj_five ..⟩
end

/-! ## Three fields side by side, and flag bits -/

section
variable {n m l : Nat} (x : BitVec n) (y : BitVec m) (z : BitVec l)

theorem append3_hi : (x ++ y ++ z).extractLsb' (m + l) n = x := by
  rw [append_at _ _ _ _ (Nat.le_add_left l m), Nat.add_sub_cancel, append_hi]
theorem append3_mid : (x ++ y ++ z).extractLsb' l m = y := by
  rw [append_at _ _ _ _ (Nat.le_refl l), Nat.sub_self, append_lo]
end

@[simp] theorem bw_getElem (p : Bool) : (bw p)[0] = p := by cases p <;> rfl

/-! ## The fields of the A-space formats (R55, R56) -/

section
variable {w : Half} {fx : Reg} {op t : BitVec 4} {r : BitVec 3} {f g : BitVec 2} {e s : BitVec 1}

theorem aFields (h : f9 w = op ++ fx) : fF4 w = op ∧ fFx w = fx :=
  ⟨by rw [fF4, h, append_hi], by rw [fFx, h, append_lo]⟩
/-- fx of a form with one flag in bit 0. -/
theorem fx_flag (h : fFx w = t ++ s) : hi4 w = t ∧ fx0 w = s.getLsbD 0 :=
  ⟨by rw [hi4, h, append_hi], by rw [fx0, h, BitVec.getLsbD_append]; rfl⟩
/-- fx of a scalar FP form: a code in bits 3 to 1, a flag in bit 0. -/
theorem fx_code (h : fFx w = e ++ r ++ s) :
    (fFx w).extractLsb' 4 1 = e ∧ (fFx w).extractLsb' 1 3 = r ∧ fx0 w = s.getLsbD 0 := by
  refine ⟨?_, ?_, ?_⟩
  · rw [h]; exact append3_hi e r s
  · rw [h]; exact append3_mid e r s
  · rw [fx0, h, BitVec.getLsbD_append]; rfl
/-- fx of a size operation. -/
theorem fx_size (h : fFx w = f ++ g ++ s) : (fFx w).extractLsb' 3 2 = f ∧ (fFx w).extractLsb' 1 2 = g ∧ fx0 w = s.getLsbD 0 := by
  refine ⟨?_, ?_, ?_⟩
  · rw [h]; exact append3_hi f g s
  · rw [h]; exact append3_mid f g s
  · rw [fx0, h, BitVec.getLsbD_append]; rfl
/-- fx of a vector form: two flags over a code. -/
theorem fx_flags (h : fFx w = e ++ s ++ r) : fx4 w = e.getLsbD 0 ∧ fx3 w = s.getLsbD 0 ∧ fxr w = r :=
  ⟨by rw [fx4, h, BitVec.getLsbD_append, BitVec.getLsbD_append]; rfl, by rw [fx3, h, BitVec.getLsbD_append, BitVec.getLsbD_append]; rfl,
    by rw [fxr, h, append_lo]⟩
/-- fx of a form with one flag over four bits. -/
theorem fx_wide (h : fFx w = e ++ t) : fx4 w = e.getLsbD 0 ∧ (fFx w).extractLsb' 0 4 = t :=
  ⟨by rw [fx4, h, BitVec.getLsbD_append]; rfl, by rw [h, append_lo]⟩
/-- fx of two bits over a code. -/
theorem fx_pair (h : fFx w = f ++ r) : (fFx w).extractLsb' 3 2 = f ∧ (fFx w).extractLsb' 0 3 = r ∧ fxr w = r :=
  ⟨by rw [h, append_hi], by rw [h, append_lo], by rw [fxr, h, append_lo]⟩
/-- rs2 of `VCVT`, which holds its rounding code. -/
theorem rs2_code (h : fRs2 w = f ++ r) : (fRs2 w).extractLsb' 3 2 = f ∧ (fRs2 w).extractLsb' 0 3 = r :=
  ⟨by rw [h, append_hi], by rw [h, append_lo]⟩
/-- funct4 of a fused form: a flag in bit 2 over the operation. -/
theorem f4_fused (h : fF4 w = e ++ s ++ f) :
    (fF4 w)[3] = e[0] ∧ (fF4 w)[2] = s[0] ∧ (fF4 w).extractLsb' 0 2 = f := by
  simp only [← BitVec.getLsbD_eq_getElem, h, BitVec.getLsbD_append]
  exact ⟨rfl, rfl, append_lo ..⟩
end

/-- One case per decoder of the A-space and format of fx. -/
theorem rawA_encode {w : Half} {i : Instr} (h : aForm i = true) (hw : w = encode i) : rawA w = .ok i := by
  cases i with
  | add | sub | and | or | xor | andn | sll | srl | sra | slt | sltn | min | max | minn | maxn =>
    obtain ⟨h0, h9, h2, h1, hd, hm⟩ := fields_of_five hw
    obtain ⟨h4, hx⟩ := aFields h9
    simp [rawA, mbz, h0, hm, decInt, h4, fx_flag hx, h2, h1, hd]
  | mul | div | divn | rem | remn =>
    obtain ⟨h0, h9, h2, h1, hd, hm⟩ := fields_of_five hw
    obtain ⟨h4, hx⟩ := aFields h9
    simp [rawA, mbz, h0, hm, decMulDiv, h4, fx_flag hx, h2, h1, hd]
  | mulh | mulhn =>
    obtain ⟨h0, h9, h2, h1, hd, hm⟩ := fields_of_five hw
    simp [rawA, mbz, h0, hm, decMulDiv, aFields h9, h2, h1, hd]
  | clz | ctz | popc | bswap =>
    obtain ⟨h0, h9, h2, h1, hd, hm⟩ := fields_of_five hw
    obtain ⟨h4, hx⟩ := aFields h9
    simp [rawA, mbz, h0, hm, decBit, h4, fx_flag hx, h2, h1, hd]
  | sextOp | zextOp =>
    obtain ⟨h0, h9, h2, h1, hd, hm⟩ := fields_of_five hw
    obtain ⟨h4, hx⟩ := aFields h9
    simp [rawA, mbz, h0, hm, decBit, h4, fx_size hx, h2, h1, hd]
  | csel =>
    obtain ⟨h0, h9, h2, h1, hd, hm⟩ := fields_of_five hw
    simp [rawA, mbz, h0, hm, decCsel, aFields h9, h2, h1, hd]
  | fadd | fsub | fmul | fdiv | fsqrt | fsgnj =>
    obtain ⟨h0, h9, h2, h1, hd, hm⟩ := fields_of_five hw
    obtain ⟨h4, hx⟩ := aFields h9
    simp [rawA, mbz, h0, hm, decFp, h4, fx_code hx, rnd, needs, rndOf_code, sgnOf_code, h2, h1, hd]
  | fmin | fmax | feq | flt | fle | fclass | fmvx | fmvf =>
    obtain ⟨h0, h9, h2, h1, hd, hm⟩ := fields_of_five hw
    obtain ⟨h4, hx⟩ := aFields h9
    simp [rawA, mbz, h0, hm, decFp, h4, fx_flag hx, h2, h1, hd]
  | fmadd | fmsub | fnmadd | fnmsub =>
    obtain ⟨h0, h9, h2, h1, hd, hm⟩ := fields_of_five hw
    obtain ⟨h4, hx⟩ := aFields h9
    simp [rawA, mbz, h0, hm, decFma, f4_fused h4, hx, h2, h1, hd]
  | fcvt =>
    obtain ⟨h0, h9, h2, h1, hd, hm⟩ := fields_of_five hw
    obtain ⟨h4, hx⟩ := aFields h9
    simp [rawA, mbz, h0, hm, decFcvt, h4, fx_flags hx, both, needs, cvtOf_code, rndOf_code, h2, h1, hd]
  | vadd | vsub | vmul | vmin | vmax | vand | vor | vxor | vshl | vshr | vcmp | vabs | vneg =>
    obtain ⟨h0, h9, h2, h1, hd, hm⟩ := fields_of_five hw
    obtain ⟨h4, hx⟩ := aFields h9
    simp [rawA, mbz, h0, hm, decVElem, h4, fx_flags hx, needs, vcondOf_code, h2, h1, hd]
  | vmov =>
    obtain ⟨h0, h9, h2, h1, hd, hm⟩ := fields_of_five hw
    obtain ⟨h4, hx⟩ := aFields h9
    simp [rawA, mbz, h0, hm, decVElem, h4, fx_wide hx, h2, h1, hd]
  | vfma | vfms | vsel | vdot =>
    obtain ⟨h0, h9, h2, h1, hd, hm⟩ := fields_of_five hw
    simp [rawA, mbz, h0, hm, decVThree, aFields h9, h2, h1, hd]
  | vrsum | vscan =>
    obtain ⟨h0, h9, h2, h1, hd, hm⟩ := fields_of_five hw
    obtain ⟨h4, hx⟩ := aFields h9
    simp [rawA, mbz, h0, hm, decVRed, h4, fx_flags hx, h2, h1, hd]
  | vrmax | vrmin | vbmax =>
    obtain ⟨h0, h9, h2, h1, hd, hm⟩ := fields_of_five hw
    obtain ⟨h4, hx⟩ := aFields h9
    simp [rawA, mbz, h0, hm, decVRed, h4, fx_wide hx, h2, h1, hd]
  | vexp2 | vlog2 | vrcp | vrsq =>
    obtain ⟨h0, h9, h2, h1, hd, hm⟩ := fields_of_five hw
    obtain ⟨h4, hx⟩ := aFields h9
    simp [rawA, mbz, h0, hm, decVSpec, h4, fx_pair hx, rnd, needs, rndOf_code, h2, h1, hd]
  | vcvt =>
    obtain ⟨h0, h9, h2, h1, hd, hm⟩ := fields_of_five hw
    obtain ⟨h4, hx⟩ := aFields h9
    simp [rawA, mbz, h0, hm, decVFmt, h4, fx_wide hx, needs, tagOf_bits, rs2_code h2, h1, hd]
  | vtag =>
    obtain ⟨h0, h9, h2, h1, hd, hm⟩ := fields_of_five hw
    obtain ⟨h4, hx⟩ := aFields h9
    simp [rawA, mbz, h0, hm, decVFmt, h4, fx_wide hx, needs, tagOf_bits, h2, h1, hd]
  | vqnt =>
    obtain ⟨h0, h9, h2, h1, hd, hm⟩ := fields_of_five hw
    obtain ⟨h4, hx⟩ := aFields h9
    simp [rawA, mbz, h0, hm, decVFmt, h4, fx_pair hx, needs, bxfOf_code, h2, h1, hd]
  | vext | vperm =>
    obtain ⟨h0, h9, h2, h1, hd, hm⟩ := fields_of_five hw
    simp [rawA, mbz, h0, hm, decVFmt, aFields h9, h2, h1, hd]
  | _ => exact absurd h Bool.false_ne_true

/-! ## The fields of the C-space formats (R51 to R53, R57) -/

section
variable {w : Half} {sub z : Reg} {md t : BitVec 4} {o x y h : BitVec 3} {r q : BitVec 2} {e p : BitVec 1}

theorem cxFields (h9 : f9 w = sub ++ md) : fSub w = sub ∧ fMod w = md :=
  ⟨by rw [fSub, h9, append_hi], by rw [fMod, h9, append_lo]⟩
/-- The mod field of a form with one flag in bit 0. -/
theorem mod_flag (h9 : f9 w = sub ++ (x ++ e)) : (fMod w).extractLsb' 1 3 = x ∧ mod0 w = e[0] := by
  refine ⟨by rw [(cxFields h9).2, append_hi], ?_⟩
  rw [mod0, h9, ← BitVec.getLsbD_eq_getElem, BitVec.getLsbD_append, BitVec.getLsbD_append]; rfl
/-- The mod field of cache maintenance: R over a handle. -/
theorem mod_handle (hm : fMod w = e ++ h) : (fMod w)[3] = e[0] ∧ (fMod w).extractLsb' 0 3 = h := by
  simp only [← BitVec.getLsbD_eq_getElem, hm, BitVec.getLsbD_append]
  exact ⟨rfl, append_lo ..⟩
/-- The mod field of `SPAWN`. -/
theorem mod_spawn (hm : fMod w = e ++ p ++ q) : (fMod w).extractLsb' 3 1 = e ∧ (fMod w)[2] = p[0] ∧ (fMod w).extractLsb' 0 2 = q := by
  refine ⟨by rw [hm]; exact append3_hi e p q, ?_, by rw [hm, append_lo]⟩
  rw [← BitVec.getLsbD_eq_getElem, hm, BitVec.getLsbD_append, BitVec.getLsbD_append]; rfl
/-- The matrix format: rs3, the operation, a flag. -/
theorem mxFields (h9 : f9 w = z ++ o ++ e) : fSub w = z ∧ (f9 w).extractLsb' 1 3 = o ∧ mod0 w = e[0] := by
  refine ⟨by rw [fSub, h9]; exact append3_hi z o e, by rw [h9]; exact append3_mid z o e, ?_⟩
  rw [mod0, h9, ← BitVec.getLsbD_eq_getElem, BitVec.getLsbD_append]; rfl
/-- Format CM: the handle and the size lie in the place of rs2. -/
theorem cmFields (h2 : fRs2 w = h ++ r) : cmH w = h ∧ cmSz w = r :=
  ⟨by rw [cmH, h2, append_hi], by rw [cmSz, h2, append_lo]⟩
/-- Format CA: operation, ordering, handle. -/
theorem caFields (h9 : f9 w = t ++ r ++ h) : fF4 w = t ∧ (f9 w).extractLsb' 3 2 = r ∧ (f9 w).extractLsb' 0 3 = h :=
  ⟨by rw [fF4, h9]; exact append3_hi t r h, by rw [h9]; exact append3_mid t r h, by rw [h9, append_lo]⟩
/-- Three codes of three bits in bits [31:23]. -/
theorem f9_triple (h9 : f9 w = x ++ y ++ o) :
    (f9 w).extractLsb' 6 3 = x ∧ (f9 w).extractLsb' 3 3 = y ∧ (f9 w).extractLsb' 0 3 = o :=
  ⟨by rw [h9]; exact append3_hi x y o, by rw [h9]; exact append3_mid x y o, by rw [h9, append_lo]⟩
/-- Format of the vector loads and stores: handle, mode, tag. -/
theorem vmFields (h9 : f9 w = h ++ r ++ t) :
    (f9 w).extractLsb' 6 3 = h ∧ (f9 w).extractLsb' 4 2 = r ∧ (f9 w).extractLsb' 0 4 = t :=
  ⟨by rw [h9]; exact append3_hi h r t, by rw [h9]; exact append3_mid h r t, by rw [h9, append_lo]⟩
/-- Format of `WATCH`: handle, condition, width. -/
theorem watchFields (h9 : f9 w = h ++ o ++ e ++ r) :
    (f9 w).extractLsb' 6 3 = h ∧ (f9 w).extractLsb' 3 3 = o ∧ (f9 w)[2] = e[0] ∧ (f9 w).extractLsb' 0 2 = r := by
  refine ⟨?_, ?_, ?_, by rw [h9, append_lo]⟩
  · rw [h9, append_at _ _ _ _ (by decide)]; exact append3_hi h o e
  · rw [h9, append_at _ _ _ _ (by decide)]; exact append3_mid h o e
  · rw [← BitVec.getLsbD_eq_getElem, h9, BitVec.getLsbD_append, BitVec.getLsbD_append]; rfl
/-- Format of the CSR instructions: the low part of the CSR number and the operation lie in the place of rs2. -/
theorem csrFields {c : BitVec 12} (h9 : f9 w = c.extractLsb' 3 9) (h2 : fRs2 w = c.extractLsb' 0 3 ++ r) :
    f9 w ++ (fRs2 w).extractLsb' 2 3 = c ∧ (fRs2 w).extractLsb' 0 2 = r := by
  rw [h9, h2, append_lo, append_hi]
  exact ⟨join_two (n := 3) (k := 9) c, rfl⟩
/-- Format of `LI`: the immediate around a zero bit. -/
theorem liFields {i : BitVec 18} (h9 : f9 w = i.extractLsb' 9 9) (h2 : fRs2 w = i.extractLsb' 4 5) (h1 : fRs1 w = i.extractLsb' 0 4 ++ e) :
    (fRs1 w)[0] = e[0] ∧ f9 w ++ fRs2 w ++ (fRs1 w).extractLsb' 1 4 = i := by
  rw [← BitVec.getLsbD_eq_getElem, h9, h2, h1, append_hi, BitVec.getLsbD_append]
  exact ⟨rfl, join_18 i⟩
end

/-- One case per decoder of the C-space and format. -/
theorem rawC_encode {w : Half} {i : Instr} {k : BitVec 2} {lone : Bool} (h : cForm i = true) (hw : w = encode i ||| k.setWidth 32)
    (hl : (∃ d, i = .liH d) → lone = true) : rawC w lone = .ok i := by
  cases i with
  | andi | ori | xori | slti =>
    obtain ⟨h9, h2, h1, hd, hm⟩ := fields_of_five_or hw
    simp [rawC, hm, decImm, h9, h2, h1, hd]
  | addi wide | slli wide | srli wide | srai wide =>
    obtain ⟨h9, h2, h1, hd, hm⟩ := fields_of_five_or hw
    cases wide <;> simp [rawC, hm, decImm, h9, h2, h1, hd]
  | li =>
    obtain ⟨h9, h2, h1, hd, hm⟩ := fields_of_five_or hw
    simp [rawC, hm, decLi, liFields h9 h2 h1, hd]
  | liH d =>
    obtain ⟨h9, h2, h1, hd, hm⟩ := fields_of_five_or hw
    simp [rawC, hm, decLi, mbz, hl ⟨d, rfl⟩, h9, h2, h1, hd]
  | lpc | jal =>
    obtain ⟨h9, h2, h1, hd, hm⟩ := fields_of_five_or hw
    simp [rawC, hm, h9, h2, h1, join_19, hd]
  | jalr =>
    obtain ⟨h9, h2, h1, hd, hm⟩ := fields_of_five_or hw
    simp [rawC, hm, mbz, h9, h2, h1, hd]
  | beq | bne | blt | bge | bltn | bgen =>
    obtain ⟨h9, h2, h1, hd, hm⟩ := fields_of_five_or hw
    simp [rawC, hm, h9, h2, h1, hd, join_14]
  | lds | ldz | st | ldp | stp =>
    obtain ⟨h9, h2, h1, hd, hm⟩ := fields_of_five_or hw
    simp [rawC, hm, h9, cmFields h2, h1, hd]
  | pf =>
    obtain ⟨h9, h2, h1, hd, hm⟩ := fields_of_five_or hw
    simp [rawC, hm, mbz, h9, cmFields h2, h1, hd]
  | amo wide op =>
    obtain ⟨h9, h2, h1, hd, hm⟩ := fields_of_five_or hw
    have hop : amoCode op ≠ 10#4 ∧ amoCode op ≠ 11#4 := by simpa using amo_not op
    cases wide <;> simp [rawC, hm, decAmo, caFields h9, hop, amoOf_code, ordOf_code, needs, h2, h1, hd]
  | cas wide | amog wide =>
    obtain ⟨h9, h2, h1, hd, hm⟩ := fields_of_five_or hw
    cases wide <;> simp [rawC, hm, decAmo, caFields h9, ordOf_code, h2, h1, hd]
  | fence =>
    obtain ⟨h9, h2, h1, hd, hm⟩ := fields_of_five_or hw
    simp [rawC, hm, decFence, mbz, both, needs, f9_triple h9, scopeOf_code, fenceOf_code, h2, h1, hd]
  | csrrw | csrrs | csrrc =>
    obtain ⟨h9, h2, h1, hd, hm⟩ := fields_of_five_or hw
    simp [rawC, hm, decCsr, csrFields h9 h2, h1, hd]
  | hld | hgive | hqry =>
    obtain ⟨h9, h2, h1, hd, hm⟩ := fields_of_five_or hw
    simp [rawC, hm, decHandle, mbz, f9_triple h9, h2, h1, hd]
  | post | endTask | ends | claim | unclaim | ecall | ebreak | eret | fkill | migr =>
    obtain ⟨h9, h2, h1, hd, hm⟩ := fields_of_five_or hw
    simp [rawC, hm, decFrame, mbz, cxFields h9, h2, h1, hd]
  | watch =>
    obtain ⟨h9, h2, h1, hd, hm⟩ := fields_of_five_or hw
    simp [rawC, hm, decWatch, mbz, needs, watchFields h9, watchOf_code, h2, h1, hd]
  | send | reply | bindH | unbind | swaph =>
    obtain ⟨h9, h2, h1, hd, hm⟩ := fields_of_five_or hw
    simp [rawC, hm, decMessage, mbz, cxFields h9, h2, h1, hd]
  | vld | vst | vldx | vstx =>
    obtain ⟨h9, h2, h1, hd, hm⟩ := fields_of_five_or hw
    simp [rawC, hm, decVMem, mbz, needs, vmFields h9, tagOf_bits, h2, h1, hd]
  | vclaim =>
    obtain ⟨h9, h2, h1, hd, hm⟩ := fields_of_five_or hw
    simp [rawC, hm, decVCtl, mbz, (cxFields h9).1, mod_flag h9, h2, h1, hd]
  | vfree | vsbind | vsfree =>
    obtain ⟨h9, h2, h1, hd, hm⟩ := fields_of_five_or hw
    simp [rawC, hm, decVCtl, mbz, cxFields h9, h2, h1, hd]
  | solicit | respond | cbar | tilereg | tiledel | tilemove | censq =>
    obtain ⟨h9, h2, h1, hd, hm⟩ := fields_of_five_or hw
    simp [rawC, hm, decCensus, mbz, cxFields h9, h2, h1, hd]
  | mcfg | mbld | mgang | mdrain | mstat | mcancel | mzero =>
    obtain ⟨h9, h2, h1, hd, hm⟩ := fields_of_five_or hw
    simp [rawC, hm, decMatrix, mbz, mxFields h9, h2, h1, hd]
  | cpy =>
    obtain ⟨h9, h2, h1, hd, hm⟩ := fields_of_five_or hw
    simp [rawC, hm, decCopy, mbz, (cxFields h9).1, mod_flag h9, h2, h1, hd]
  | cpyst | cpoll | bseal | bopen | llcfg =>
    obtain ⟨h9, h2, h1, hd, hm⟩ := fields_of_five_or hw
    simp [rawC, hm, decCopy, mbz, cxFields h9, h2, h1, hd]
  | cflush | cclean | cinv =>
    obtain ⟨h9, h2, h1, hd, hm⟩ := fields_of_five_or hw
    obtain ⟨hs, hmod⟩ := cxFields h9
    simp [rawC, hm, decCmo, hs, mod_handle hmod, h2, h1, hd]
  | grrun | grsig | grcan | grqry =>
    obtain ⟨h9, h2, h1, hd, hm⟩ := fields_of_five_or hw
    simp [rawC, hm, decGraph, mbz, cxFields h9, h2, h1, hd]
  | spawn =>
    obtain ⟨h9, h2, h1, hd, hm⟩ := fields_of_five_or hw
    obtain ⟨hs, hmod⟩ := cxFields h9
    simp [rawC, hm, decSpawn, mbz, hs, mod_spawn hmod, h2, h1, hd]
  | joini | join | termq =>
    obtain ⟨h9, h2, h1, hd, hm⟩ := fields_of_five_or hw
    simp [rawC, hm, decSpawn, mbz, cxFields h9, h2, h1, hd]
  | xpost | xqry =>
    obtain ⟨h9, h2, h1, hd, hm⟩ := fields_of_five_or hw
    simp [rawC, hm, decGuest, mbz, cxFields h9, h2, h1, hd]
  | _ => exact absurd h Bool.false_ne_true

/-! ## Decoding an encoded instruction -/

theorem checked_ok {i : Instr} (h : i.wellFormed = true) : checked (.ok i) = .ok i := by simp [checked, h]

/-- Settles O47: the fields of the word are those that `encode` put there, and the limits on them are met. -/
theorem decodeInvertsEncode : Obligations.DecodeInvertsEncode := by
  unfold Obligations.DecodeInvertsEncode
  intro i hi
  refine ⟨fun ha => ?_, fun hc k lone hl => ?_⟩
  · rw [decodeA, rawA_encode ha rfl, checked_ok hi]
  · rw [decodeC, rawC_encode hc rfl hl, checked_ok hi]

end Sys2Proof.Laws
end

section
/-! The words that the spec works out (02_bundles.md R49, R50, R61). -/

namespace Sys2Proof.Laws

/-- Settles O46: each word is decoded by evaluation. -/
theorem wordsOfTheSpecDecode : Obligations.WordsOfTheSpecDecode := by
  unfold Obligations.WordsOfTheSpecDecode
  decide

end Sys2Proof.Laws
end

section
/-! The write-back of a result: what reaches the frame (02_bundles.md R41, R44, R62, R89). -/

namespace Sys2Proof.Machine

/-! ## Registers read back (R62) -/

section
variable {f : Frame} {v : Word}

theorem Frame.getX_of_ne {x : Reg} (h : x ≠ 0) : f.getX x = vget 0 f.x x.toNat := if_neg (mt eq_of_beq h)
theorem Frame.putX_of_ne {x : Reg} (h : x ≠ 0) : f.putX x v = { f with x := vset f.x x.toNat v } := if_neg (mt eq_of_beq h)
theorem Frame.getX_putX_self {x : Reg} : (f.putX x v).getX x = if x = 0 then 0 else v := by
  by_cases h : x = 0
  · rw [h]; rfl
  · rw [Frame.getX_of_ne h, Frame.putX_of_ne h, if_neg h]
    exact vget_vset_same _ _ _ _ x.isLt
theorem Frame.getX_putX_other {x y : Reg} (h : y ≠ x) : (f.putX x v).getX y = f.getX y := by
  by_cases hx : x = 0
  · rw [hx]; rfl
  · by_cases hy : y = 0
    · rw [hy]; rfl
    · rw [Frame.getX_of_ne hy, Frame.getX_of_ne hy, Frame.putX_of_ne hx]
      exact vget_vset_other _ _ _ _ _ (fun e => h (BitVec.eq_of_toNat_eq e))
@[simp] theorem Frame.putX_f {x : Reg} : (f.putX x v).f = f.f := by unfold Frame.putX; split <;> rfl
@[simp] theorem Frame.putX_h {x : Reg} : (f.putX x v).h = f.h := by unfold Frame.putX; split <;> rfl
@[simp] theorem Frame.putX_outs {x : Reg} : (f.putX x v).outs = f.outs := by unfold Frame.putX; split <;> rfl
theorem Frame.getF_putF_self {x : Reg} (hx : x.toNat < 16) : (f.putF x v).getF x = v := vget_vset_same _ _ _ _ hx
theorem Frame.getF_putF_other {x y : Reg} (h : y ≠ x) : (f.putF x v).getF y = f.getF y :=
  vget_vset_other _ _ _ _ _ (fun e => h (BitVec.eq_of_toNat_eq e))
theorem Frame.getH_putH_self {h : HReg} {k : Handle} : (f.putH h k).getH h = k := vget_vset_same _ _ _ _ h.isLt
theorem Frame.getH_putH_other {h y : HReg} {k : Handle} (hy : y ≠ h) : (f.putH h k).getH y = f.getH y :=
  vget_vset_other _ _ _ _ _ (fun e => hy (BitVec.eq_of_toNat_eq e))
end

/-! ## What a write-back does to its frame (R41, R44, R89) -/

/-- Two frames with the same register files and outstanding results. -/
structure Frame.SameFiles (a b : Frame) : Prop where
  x : a.x = b.x
  f : a.f = b.f
  h : a.h = b.h
  outs : a.outs = b.outs

section
variable {a b c : Frame}

theorem Frame.SameFiles.refl (a : Frame) : a.SameFiles a := ⟨rfl, rfl, rfl, rfl⟩
theorem Frame.SameFiles.trans (h : a.SameFiles b) (h' : b.SameFiles c) : a.SameFiles c :=
  ⟨h.x.trans h'.x, h.f.trans h'.f, h.h.trans h'.h, h.outs.trans h'.outs⟩
theorem Frame.SameFiles.getX (h : a.SameFiles b) (y : Reg) : a.getX y = b.getX y := by rw [Frame.getX, h.x, Frame.getX]
theorem Frame.SameFiles.getF (h : a.SameFiles b) (y : Reg) : a.getF y = b.getF y := by rw [Frame.getF, h.f, Frame.getF]
theorem Frame.SameFiles.getH (h : a.SameFiles b) (y : HReg) : a.getH y = b.getH y := by rw [Frame.getH, h.h, Frame.getH]
end

/-- A result overtaken by the write-back of another (R44). -/
def Result.overtaken (r q : Result) : Result := if q.order < r.order && q.dst.same r.dst then { q with dead := true } else q
/-- A frame whose outstanding results a write-back of `r` has left. -/
def Frame.settled (f : Frame) (r : Result) : Frame :=
  { f with outs := (f.outs.filter (fun q => q.uid != r.uid)).map r.overtaken }

theorem settled_outs {f : Frame} {r q : Result} (h : q ∈ (f.settled r).outs) :
    q.uid ≠ r.uid ∧ (q.order < r.order → q.dst.same r.dst = true → q.dead = true) := by
  obtain ⟨p, hp, rfl⟩ := List.mem_map.1 h
  have hu : p.uid ≠ r.uid := by simpa using (List.mem_filter.1 hp).2
  unfold Result.overtaken
  split
  · exact ⟨hu, fun _ _ => rfl⟩
  case isFalse hn => exact ⟨hu, fun ho hd => absurd (by simp [ho, hd]) hn⟩

section
variable {s : State} {ep w : Nat} {r : Result} {val : ResVal} {fl : FlagSet} {poison : Bool}

theorem State.accrueFlags_mem : (s.accrueFlags ep w fl).mem = s.mem := by
  unfold State.accrueFlags
  dsimp only
  split
  · rfl
  · split <;> rfl
/-- Flags reach nothing of a frame but its FCSR. -/
theorem State.sameFiles_accrueFlags (hw : w < 8) : ((s.accrueFlags ep w fl).frame ep w).SameFiles (s.frame ep w) := by
  have hf : ((s.modFrame ep w (fun f => { f with fcsr := accrue f.fcsr fl })).frame ep w).SameFiles (s.frame ep w) := by
    rw [State.frame_modFrame _ _ _ _ hw]
    exact ⟨rfl, rfl, rfl, rfl⟩
  unfold State.accrueFlags
  dsimp only
  split
  · exact .refl _
  · split <;> exact hf

theorem State.putDead_mem (d : Dst) : (s.putDead ep w d val).mem = s.mem := by
  unfold State.putDead
  split
  · split <;> rfl
  · rfl
/-- Of an overtaken result no more than the grant of lanes reaches its frame. -/
theorem State.sameFiles_putDead (hw : w < 8) (d : Dst) : ((s.putDead ep w d val).frame ep w).SameFiles (s.frame ep w) := by
  unfold State.putDead
  split
  · split
    · exact .refl _
    · rw [State.frame_modFrame _ _ _ _ hw]
      exact ⟨rfl, rfl, rfl, rfl⟩
  · exact .refl _
theorem State.intoStream_dead (h : r.dead = true) : s.intoStream ep w r val = s := by
  unfold State.intoStream
  split
  · simp [h]
  · rfl

/-- The state in which a write-back has taken its result from the outstanding ones. -/
def State.settleResult (s : State) (ep w : Nat) (r : Result) : State := s.modFrame ep w (fun f => f.settled r)

theorem State.frame_settleResult (hw : w < 8) : (s.settleResult ep w r).frame ep w = (s.frame ep w).settled r :=
  State.frame_modFrame _ _ _ _ hw
theorem State.writeBack_eq : s.writeBack ep w r val fl poison =
    (if r.dead then ((s.settleResult ep w r).intoStream ep w r val).putDead ep w r.dst val
      else ((s.settleResult ep w r).intoStream ep w r val).putDst ep w r.dst val poison).accrueFlags ep w fl := rfl

theorem State.writeBack_dead (hw : w < 8) (h : r.dead = true) : (s.writeBack ep w r val fl poison).mem = s.mem ∧
    ((s.writeBack ep w r val fl poison).frame ep w).SameFiles ((s.frame ep w).settled r) := by
  rw [State.writeBack_eq, State.intoStream_dead h, if_pos h, ← State.frame_settleResult hw]
  exact ⟨State.accrueFlags_mem.trans (State.putDead_mem r.dst),
    (State.sameFiles_accrueFlags hw).trans (State.sameFiles_putDead hw r.dst)⟩

/-- A live result that enters no stream: `t` is what its destination makes of the state. -/
theorem State.writeBack_live {t : State} (hw : w < 8) (h : r.dead = false)
    (hs : (s.settleResult ep w r).intoStream ep w r val = s.settleResult ep w r)
    (hp : (s.settleResult ep w r).putDst ep w r.dst val poison = t) (hm : t.mem = s.mem) : (s.writeBack ep w r val fl poison).mem = s.mem ∧
    ((s.writeBack ep w r val fl poison).frame ep w).SameFiles (t.frame ep w) := by
  rw [State.writeBack_eq, hs, hp, h]
  exact ⟨State.accrueFlags_mem.trans hm, State.sameFiles_accrueFlags hw⟩
/-- A live result whose destination is a register of the frame: `g` is the frame with it written. -/
theorem State.writeBack_reg {g : Frame → Frame} (hw : w < 8) (h : r.dead = false)
    (hs : (s.settleResult ep w r).intoStream ep w r val = s.settleResult ep w r)
    (hp : (s.settleResult ep w r).putDst ep w r.dst val poison = (s.settleResult ep w r).modFrame ep w g) :
    (s.writeBack ep w r val fl poison).mem = s.mem ∧
    ((s.writeBack ep w r val fl poison).frame ep w).SameFiles (g ((s.frame ep w).settled r)) := by
  obtain ⟨hm, hf⟩ := State.writeBack_live (fl := fl) hw h hs hp rfl
  rw [State.frame_modFrame _ _ _ _ hw, State.frame_settleResult hw] at hf
  exact ⟨hm, hf⟩

theorem State.putDst_x {x : Reg} {v : Word} (hx : x ≠ 0) : s.putDst ep w (dstX x) (.word v) poison =
    s.modFrame ep w (fun f => { f.putX x v with poisonX := markBit f.poisonX x.toNat (poison && x != 0) }) := by
  rw [dstX, if_neg (mt eq_of_beq hx)]
  rfl
theorem State.putDst_f {x : Reg} {v : Word} : s.putDst ep w (.f x) (.word v) poison =
    s.modFrame ep w (fun f => { f.putF x v with poisonF := markBit f.poisonF x.toNat poison }) := rfl
theorem State.putDst_h {x : HReg} {k : Handle} : s.putDst ep w (.h x) (.handle k) poison =
    s.modFrame ep w (fun f => { f.putH x k with poisonH := markBit f.poisonH x.toNat poison }) := rfl

/-- The write-back of a word for an x register. -/
theorem State.writeBack_x {x : Reg} {v : Word} (hw : w < 8) (h : r.dead = false) (hd : r.dst = dstX x) :
    (s.writeBack ep w r (.word v) fl poison).mem = s.mem ∧
    ((s.writeBack ep w r (.word v) fl poison).frame ep w).SameFiles (((s.frame ep w).settled r).putX x v) := by
  by_cases hx : x = 0
  · rw [show ((s.frame ep w).settled r).putX x v = (s.frame ep w).settled r by rw [hx]; rfl, ← State.frame_settleResult hw]
    exact State.writeBack_live hw h rfl (by rw [hd, hx]; rfl) rfl
  · obtain ⟨hm, hf⟩ := State.writeBack_reg (fl := fl) hw h rfl (hd ▸ State.putDst_x (poison := poison) hx)
    exact ⟨hm, hf.trans ⟨rfl, rfl, rfl, rfl⟩⟩
theorem State.writeBack_f {x : Reg} {v : Word} (hw : w < 8) (h : r.dead = false) (hd : r.dst = .f x) :
    (s.writeBack ep w r (.word v) fl poison).mem = s.mem ∧
    ((s.writeBack ep w r (.word v) fl poison).frame ep w).SameFiles (((s.frame ep w).settled r).putF x v) := by
  obtain ⟨hm, hf⟩ := State.writeBack_reg (fl := fl) hw h rfl (hd ▸ State.putDst_f (poison := poison))
  exact ⟨hm, hf.trans ⟨rfl, rfl, rfl, rfl⟩⟩
theorem State.writeBack_h {x : HReg} {k : Handle} (hw : w < 8) (h : r.dead = false) (hd : r.dst = .h x) :
    (s.writeBack ep w r (.handle k) fl poison).mem = s.mem ∧
    ((s.writeBack ep w r (.handle k) fl poison).frame ep w).SameFiles (((s.frame ep w).settled r).putH x k) := by
  obtain ⟨hm, hf⟩ := State.writeBack_reg (fl := fl) hw h rfl (hd ▸ State.putDst_h (poison := poison))
  exact ⟨hm, hf.trans ⟨rfl, rfl, rfl, rfl⟩⟩
end

/-- Settles O45: of the register files and the outstanding results, a write-back changes the destination and what it settles. -/
theorem writeBackSetsTheDestination : Obligations.WriteBackSetsTheDestination := by
  unfold Obligations.WriteBackSetsTheDestination
  intro s ep win r v k x h fl hw f after settled x' f' h'
  have settledOf {val : ResVal} (hm : (after val).mem = s.mem) (ho : ((after val).frame ep win).outs = (f.settled r).outs) :
      settled val := ⟨fun q hq => settled_outs (ho ▸ hq), hm⟩
  refine ⟨fun val hd => ?dead, fun hd hx => ?x, fun hd hx hlt => ?f, fun hd hh => ?h⟩
  case dead =>
    obtain ⟨hm, hf⟩ := State.writeBack_dead (s := s) (ep := ep) (val := val) (fl := fl) (poison := false) hw hd
    exact ⟨settledOf hm hf.outs, hf.x, hf.f, hf.h⟩
  case x =>
    obtain ⟨hm, hf⟩ := State.writeBack_x (s := s) (ep := ep) (v := v) (fl := fl) (poison := false) hw hd hx
    refine ⟨settledOf hm (hf.outs.trans Frame.putX_outs), (hf.getX x).trans Frame.getX_putX_self,
      fun y hy => (hf.getX y).trans (Frame.getX_putX_other hy), hf.f.trans Frame.putX_f, hf.h.trans Frame.putX_h⟩
  case f =>
    obtain ⟨hm, hf⟩ := State.writeBack_f (s := s) (ep := ep) (v := v) (fl := fl) (poison := false) hw hd hx
    exact ⟨settledOf hm hf.outs, (hf.getF x).trans (Frame.getF_putF_self hlt), fun y hy => (hf.getF y).trans (Frame.getF_putF_other hy),
      hf.x, hf.h⟩
  case h =>
    obtain ⟨hm, hf⟩ := State.writeBack_h (s := s) (ep := ep) (k := k) (fl := fl) (poison := false) hw hd hh
    exact ⟨settledOf hm hf.outs, (hf.getH h).trans Frame.getH_putH_self, fun y hy => (hf.getH y).trans (Frame.getH_putH_other hy),
      hf.x, hf.f⟩

end Sys2Proof.Machine
end

section
/-! The steps that write back results, dispatch accesses and deliver answers (02_bundles.md R41 to R44, 05_task_core.md R172). -/

namespace Sys2Proof.Machine

/-! ## The steps of results and accesses act on the event they are (R41, R43, R172) -/

section
variable {s : State}

theorem exec_fixedResultWriteback_of_ev {ep win uid : Nat} (h : s.ev = some (.fixedResultWriteback ep win uid)) :
    exec .fixedResultWriteback s = execFixedResultWriteback ep win uid s := by
  rw [show exec .fixedResultWriteback s = runFixedResultWriteback s from rfl, runFixedResultWriteback, h]
theorem exec_variableResultWriteback_of_ev {ep win fid uid : Nat} {val : ResVal} {fl : FlagSet} {poison : Bool}
    (h : s.ev = some (.variableResultWriteback ep win fid uid val fl poison)) :
    exec .variableResultWriteback s = execVariableResultWriteback ep win fid uid val fl poison s := by
  rw [show exec .variableResultWriteback s = runVariableResultWriteback s from rfl, runVariableResultWriteback, h]
theorem exec_accessLeavesQueue_of_ev {ep id : Nat} (h : s.ev = some (.accessLeavesQueue ep id)) :
    exec .accessLeavesQueue s = execAccessLeavesQueue ep id s := by
  rw [show exec .accessLeavesQueue s = runAccessLeavesQueue s from rfl, runAccessLeavesQueue, h]
theorem exec_data_of_ev {a : Access} {bytes : List Byte} {poison : Bool} (h : s.ev = some (.data a bytes poison)) :
    exec .data s = execData a bytes poison s := by
  rw [show exec .data s = runData s from rfl, runData, h]
theorem exec_delivery_of_ev {m : ActiveMsg} {st : Nat} (h : s.ev = some (.delivery m st)) : exec .delivery s = execDelivery m st s := by
  rw [show exec .delivery s = runDelivery s from rfl, runDelivery, h]
end

/-! ## What each step does where its result or entry is there -/

section
variable {s : State} {ep win uid fid : Nat} {val : ResVal} {fl : FlagSet} {poison : Bool} {r : Result}

theorem execFixedResultWriteback_due {d : Nat} (hr : (s.frame ep win).outs.find? (fun r => r.uid == uid) = some r) (hd : r.due = some d)
    (hle : d ≤ s.now + 1) : execFixedResultWriteback ep win uid s = .next (s.settleBy (s.now + 1) ep) := by
  simp only [execFixedResultWriteback, hr, hd, hle, if_true]

/-- A result that waits for its answer, where it is no grant of lanes: its flags first meet the writes of FCSR of the cycle (R48). -/
theorem execVariableResultWriteback_found (hf : (s.frame ep win).fid = fid) (hm : ((s.flagsMeet ep win fl).frame ep win).fid = fid)
    (hr : ((s.flagsMeet ep win fl).frame ep win).outs.find? (fun r => r.uid == uid) = some r) (hd : ∀ rd, r.dst ≠ .lanes rd) :
    execVariableResultWriteback ep win fid uid val fl poison s = .next ((s.flagsMeet ep win fl).writeBack ep win r val fl poison) := by
  simp only [execVariableResultWriteback, hf, beq_self_eq_true, if_true, hm, bne_self_eq_false, Bool.false_eq_true, if_false, hr]
/-- A grant of lanes, once the spills that it causes are done (R265, R268). -/
theorem execVariableResultWriteback_grant {rd : Reg} (hf : (s.frame ep win).fid = fid) (hm : ((s.flagsMeet ep win fl).frame ep win).fid = fid)
    (hr : ((s.flagsMeet ep win fl).frame ep win).outs.find? (fun r => r.uid == uid) = some r) (hd : r.dst = .lanes rd)
    (hl : (((s.flagsMeet ep win fl).spillTurn ep).lacking ep win).isEmpty = true) :
    execVariableResultWriteback ep win fid uid val fl poison s =
      .next (((s.flagsMeet ep win fl).spillTurn ep).writeBack ep win r val fl poison) := by
  simp only [execVariableResultWriteback, hf, beq_self_eq_true, if_true, hm, bne_self_eq_false, Bool.false_eq_true, if_false, hr, hd, hl]

theorem execAccessLeavesQueue_free {id : Nat} {e : QEnt} (he : (s.core ep).oq.find? (fun e => e.id == id && !e.left) = some e)
    (hc : (s.core ep).canLeave ep e = true) : execAccessLeavesQueue ep id s = .next (s.leave ep e) := by
  simp only [execAccessLeavesQueue, he, hc, if_true]

theorem State.takeData_frame {a : Access} {bytes : List Byte} (hh : a.core ≠ hostEp) (hc : epClass a.core < 2) (hw : a.win < 8) :
    s.takeData a bytes poison = (s.performed a.core a.id).complete a bytes poison := by
  rw [State.takeData, if_neg (mt eq_of_beq hh)]
  obtain h | h : epClass a.core = 0 ∨ epClass a.core = 1 := by omega
  all_goals simp only [h, hw, if_true]

theorem execDelivery_taken {m : ActiveMsg} {st : Nat} (hc : epClass m.src ≠ 3) (hd : m.dstDev = none) (hst : st = 0 ∨ st = 2) :
    execDelivery m st s = .next (s.answerWord m.src m.win m.fid m.uid (BitVec.ofNat 64 st)) := by
  rw [execDelivery, if_neg (mt eq_of_beq hc)]
  obtain rfl | rfl := hst <;> simp [hd]
end

/-- Settles O28: each step finds its result, entry or message and does with it what its rule says. -/
theorem resultsWriteBack : Obligations.ResultsWriteBack := by
  unfold Obligations.ResultsWriteBack
  intro s
  refine ⟨?fixed, ?answered, ?leaves, ?data, ?delivery⟩
  case fixed => exact fun ep win uid d r he hr hd hle => (exec_fixedResultWriteback_of_ev he).trans (execFixedResultWriteback_due hr hd hle)
  case answered =>
    intro ep win fid uid val fl poison r m he hf hm hr
    rw [exec_variableResultWriteback_of_ev he]
    exact ⟨execVariableResultWriteback_found hf hm hr, fun rd => execVariableResultWriteback_grant hf hm hr⟩
  case leaves => exact fun ep id e he hq hc => (exec_accessLeavesQueue_of_ev he).trans (execAccessLeavesQueue_free hq hc)
  case data => exact fun a bytes poison he hh hc hw => (exec_data_of_ev he).trans (congrArg _ (State.takeData_frame hh hc hw))
  case delivery => exact fun m st he hc hd hst => (exec_delivery_of_ev he).trans (execDelivery_taken hc hd hst)

end Sys2Proof.Machine
end

section
/-! A raised fault, the bundle at issue, and the bundle-level fault (02_bundles.md R34, R37 to R40). -/

namespace Sys2Proof.Machine
open Sys2Proof.Safety

/-! ## A raised fault: what it changes and what it leaves (R38, R215) -/

section
variable {s : State} {cause : Nat} {value : Word}

/-- A frame that a fault leaves FAULTING at the address of its bundle. -/
def Frame.faulted (f : Frame) (pc : Word) (cause : Nat) (value : Word) : Frame :=
  { f with st := .faulting, pc := pc, answer := none, pending := some (PFault.mk (BitVec.ofNat 6 cause) value pc false) }

theorem State.cf_raise (hw : s.iss.win < 8) : (s.raise cause value).cf = s.cf.faulted s.iss.pc cause value :=
  s.cf_modCf _ hw
theorem State.frame_raise_win {k : Nat} (hk : k ≠ s.iss.win) : (s.raise cause value).frame s.iss.ep k = s.frame s.iss.ep k :=
  s.frame_setFrame_win _ _ _ _ hk
theorem State.core_raise_other {e : Nat} (he : e ≠ s.iss.ep) : (s.raise cause value).core e = s.core e :=
  s.core_setCore_other _ _ _ he
/-- Of its core a fault changes no more than a window. -/
theorem State.core_raise_wins (wins : Vector Frame 8) :
    ({ (s.raise cause value).core s.iss.ep with wins := wins } : Core) = { s.core s.iss.ep with wins := wins } := by
  rw [show (s.raise cause value).core s.iss.ep = (s.core s.iss.ep).setWin s.iss.win _ from s.core_setCore _ _]
  rfl

theorem sameRegisters_faulted (f : Frame) (pc : Word) : sameRegisters (f.faulted pc cause value) f :=
  ⟨rfl, rfl, rfl, rfl, rfl, rfl, rfl, rfl, rfl, rfl, rfl, rfl, rfl, rfl, rfl⟩
end

/-! ## The bundle being issued (R32, R37) -/

/-- The state in which the slots of a bundle run: the pc has moved on. -/
def State.issued (s : State) (ep w : Nat) (w0 w1 : Half) : State :=
  { s.setFrame ep w { s.frame ep w with st := .running, hold := .none, pc := (s.frame ep w).pc + 8 } with
    iss := Issue.mk ep w (s.frame ep w).pc w0 w1 (w0.getLsbD 0) 0 .go }

section
variable {s t : State} {ep w : Nat} {w0 w1 : Half}

theorem State.underLatch_none (h : (s.frame ep w).latch = none) : s.underLatch ep w = s := by
  simp only [State.underLatch, h]
theorem State.overLatch_none (h : (s.frame ep w).latch = none) : s.overLatch ep w t = t := by
  simp only [State.overLatch, h]

theorem State.issueBundle_fault (hb : bundleFault w0 w1 = true) :
    s.issueBundle ep w w0 w1 = .next (s.overLatch ep w (((s.underLatch ep w).issued ep w w0 w1).raise 2 (0x200000000 ||| w0.setWidth 64))) := by
  simp only [State.issueBundle, hb, if_true]
  rfl
theorem State.issueBundle_noFault (hb : bundleFault w0 w1 = false) :
    s.issueBundle ep w w0 w1 = andThen ((s.underLatch ep w).issued ep w w0 w1).slots (fun t => .next (s.overLatch ep w t)) := by
  simp only [State.issueBundle, hb, Bool.false_eq_true, if_false]
  rfl

theorem State.frame_issued (hw : w < 8) : (s.issued ep w w0 w1).frame ep w =
    { s.frame ep w with st := .running, hold := .none, pc := (s.frame ep w).pc + 8 } := s.frame_setFrame _ _ _ hw
theorem State.frame_issued_win {k : Nat} (hk : k ≠ w) : (s.issued ep w w0 w1).frame ep k = s.frame ep k :=
  s.frame_setFrame_win _ _ _ _ hk
theorem State.core_issued_other {e : Nat} (he : e ≠ ep) : (s.issued ep w w0 w1).core e = s.core e :=
  s.core_setCore_other _ _ _ he
theorem State.core_issued_wins (wins : Vector Frame 8) :
    ({ (s.issued ep w w0 w1).core ep with wins := wins } : Core) = { s.core ep with wins := wins } := by
  rw [show (s.issued ep w w0 w1).core ep = (s.core ep).setWin w _ from s.core_setCore _ _]
  rfl
end

/-! ## Instructions that want the no-op beside them (R37) -/

section
variable {w w1 : Half} {i : Instr} {lone : Bool}

theorem ok_of_checked {r : Except DecodeErr Instr} (h : checked r = .ok i) : r = .ok i := by
  cases r with
  | error e => cases h
  | ok j =>
    by_cases hj : j.wellFormed = true
    · rwa [checked, if_pos hj] at h
    · rw [checked, if_neg hj] at h; cases h
theorem ok_of_mbz {b : Bool} {r : Except DecodeErr Instr} (h : mbz b r = .ok i) : r = .ok i := by
  cases b
  · cases h
  · exact h

theorem needsNop_decImm (h : decImm w = .ok i) : needsNop i = false := by
  unfold decImm at h
  split at h <;> cases h <;> rfl
theorem needsNop_decLi (h : decLi w lone = .ok i) : needsNop i = false := by
  unfold decLi at h
  split at h
  · split at h
    · cases ok_of_mbz h; rfl
    · cases h
  · cases h; rfl

/-- No instruction that accepts a literal wants the no-op beside it. -/
theorem needsNop_of_acceptsLit (ha : acceptsLit w = true) (h : decodeC w lone = .ok i) : needsNop i = false := by
  obtain ⟨m, hm⟩ : ∃ m, (fMaj w).toNat = m := ⟨_, rfl⟩
  have hmaj : m = 1 ∨ m = 2 ∨ m = 17 ∨ (3 ≤ m ∧ m ≤ 4) ∨ (6 ≤ m ∧ m ≤ 16) := by
    simp only [acceptsLit, hm, Bool.or_eq_true, Bool.and_eq_true, beq_iff_eq, decide_eq_true_eq] at ha
    omega
  replace h := ok_of_checked h
  obtain rfl | rfl | rfl | ⟨hlo, hhi⟩ | ⟨hlo, hhi⟩ := hmaj
  · exact needsNop_decImm (by simpa only [rawC, hm] using h)
  · exact needsNop_decLi (by simpa only [rawC, hm] using h)
  · simp only [rawC, hm] at h
    cases ok_of_mbz h; rfl
  · interval_cases m <;> simp only [rawC, hm] at h <;> cases h <;> rfl
  · interval_cases m <;> simp only [rawC, hm] at h <;> cases h <;> rfl

theorem bundleFault_lone (hl : w.getLsbD 0 = true) (hn : needsNop i = true) (h : decodeC w true = .ok i) :
    acceptsLit w = false ∧ bundleFault w 0 = false := by
  have ha : acceptsLit w = false := by
    by_contra ha
    rw [needsNop_of_acceptsLit (Bool.eq_true_of_not_eq_false ha) h] at hn
    cases hn
  exact ⟨ha, by rw [bundleFault, if_pos hl, ha]; rfl⟩
theorem bundleFault_pair (hl : w.getLsbD 0 = false) (hn : needsNop i = true) (h : decodeC w false = .ok i) :
    bundleFault w w1 = (w1 != nopWord) := by
  simp only [bundleFault, hl, h, hn, Bool.false_eq_true, if_false, Bool.true_and]
end

/-- Settles O53: the bundle-level fault is raised in the state in which the slots would run. -/
theorem companionsOfFrameInstructionsFault : Obligations.CompanionsOfFrameInstructionsFault := by
  unfold Obligations.CompanionsOfFrameInstructionsFault
  rintro s ep w w0 w1 i hw ⟨hi, hd⟩
  have hn : needsNop i = true := by
    obtain rfl | ⟨b, a, rfl⟩ | rfl | ⟨a, rfl⟩ | ⟨b, a, d, rfl⟩ := hi <;> rfl
  refine ⟨fun hl => bundleFault_lone hl hn (hl ▸ hd), fun hl => ?nop, fun hl h1 hlatch => ?other⟩
  case nop =>
    rw [bundleFault_pair hl hn (hl ▸ hd)]
    rfl
  case other =>
    have hb : bundleFault w0 w1 = true := (bundleFault_pair hl hn (hl ▸ hd)).trans (bne_iff_ne.2 h1)
    have hissue := State.issueBundle_fault (s := s) (ep := ep) (w := w) hb
    rw [State.underLatch_none hlatch, State.overLatch_none hlatch] at hissue
    have hframe := State.cf_raise (s := s.issued ep w w0 w1) (cause := 2) (value := 0x200000000 ||| w0.setWidth 64) hw
    rw [show (s.issued ep w w0 w1).cf = _ from State.frame_issued hw] at hframe
    refine ⟨_, hissue, rfl, ?frame, fun k hk => ?wins, fun e he => ?cores, ?core, rfl, rfl⟩
    case frame =>
      intro f g
      rw [show g = _ from hframe]
      exact ⟨rfl, rfl, rfl, rfl, sameRegisters_faulted _ _⟩
    case wins => exact (State.frame_raise_win (s := s.issued ep w w0 w1) hk).trans (State.frame_issued_win hk)
    case cores => exact (State.core_raise_other (s := s.issued ep w w0 w1) he).trans (State.core_issued_other he)
    case core => exact (State.core_raise_wins (s := s.issued ep w w0 w1) _).trans (State.core_issued_wins _)

end Sys2Proof.Machine
end

section
/-! What a step runs: turns, slots, writes of firmware (02_bundles.md R32 to R45, 16_host_port.md R514, R517). -/

namespace Sys2Proof.Machine

/-! ## Turns (log entry 2) -/

section
variable {s : State}

theorem State.turnOf_agenda {t : Turn} {l : List Turn} (h : s.agenda = t :: l) : s.turnOf = (t, { s with now := s.now + 1, agenda := l }) := by
  simp only [State.turnOf, h]
theorem State.turnOf_default (h : s.agenda = []) :
    s.turnOf = (s.defaultTurn, { s with now := s.now + 1, turn := s.turn + 1, cur := s.nextCore }) := by
  simp only [State.turnOf, h]

/-- A step of a module that has not tripped takes its turn. -/
theorem step_of_turn {t : Turn} (ht : s.turnOf.1 = t) (hp : s.pkg.tripped = false) : step s = s.turnOf.2.takeTurn t := by
  rw [step, hp, ← ht]
  rfl
end

/-! ## What a turn runs (R32, R34, R38) -/

section
variable {s : State}

theorem State.issueTurn_bundle {ep w : Nat} {w0 w1 : Half} (hc : s.canIssue ep = true) (ht : (s.core ep).top = some w)
    (hs : ((s.core ep).win w).spilled = false) (hf : (s.core ep).fetch ((s.core ep).win w) = some (w0, w1)) :
    s.issueTurn ep = s.issueBundle ep w w0 w1 := by
  simp only [State.issueTurn, hc, ht, hs, hf, Bool.not_true, Bool.false_eq_true, if_false]
theorem State.slots_lone (h : s.iss.lone = true) :
    s.slots = if goesOn s.slotC then s.bundleEnd s.cf.fid s.slotC else s.slotC := by
  cases hc : goesOn s.slotC <;> simp [State.slots, h, hc]
theorem State.slots_pair (h : s.iss.lone = false) : s.slots = if goesOn s.slotC then
      (if goesOn s.slotA then
        s.bundleEnd s.cf.fid (if readsVectors s.iss.w0 then andThen s.slotC State.slotA else andThen s.slotA State.slotC)
      else s.slotA)
    else if asksEffect s.iss.w0 && !faulted s.slotC && faulted s.slotA then s.slotA else s.slotC := by
  cases hc : goesOn s.slotC <;> cases ha : goesOn s.slotA <;> simp [State.slots, h, hc, ha]

theorem State.deliverTurn_runs {k : Nat} {m : Msg} (hm : s.net[k]? = some m)
    (hr : 3 ≤ m.cls ∨ (m.ch = .eject ∧ s.servable k m = true ∧ s.redirects m.dst = false)) :
    s.deliverTurn k = exec (eventInstr m.ev) { s with net := s.net.eraseIdx k, ev := some m.ev } := by
  by_cases h3 : 3 ≤ m.cls
  · simp only [State.deliverTurn, hm, h3, if_true]
    rfl
  · obtain ⟨hch, hsv, hrd⟩ := hr.resolve_left h3
    simp only [State.deliverTurn, hm, h3, if_false, hch, bne_self_eq_false, Bool.false_eq_true, hsv, Bool.not_true, hrd]
    rfl
theorem State.inputTurn_runs {e : Event} (hh : hostRequest e = false) (he : external e = true) :
    s.inputTurn e = exec (eventInstr e) { s with ev := some e } := by
  simp only [State.inputTurn, hh, he, Bool.false_eq_true, if_false, if_true]
  rfl
end

/-! ## Writes of firmware (R514, R517) -/

section
variable {s : State} {k y : Nat}

theorem State.firmwareWrite_region (hb : s.fe.boot = 3) (hk : k < 4096) (hy : y < 32)
    (hp : s.portHolds (s.pkg.regionrt.get 31 k) (fun d => d / 1024 == k && k != s.devId.toNat / 1024) = false) :
    s.firmwareWrite (.region k y) = s.modPkg (fun q => { q with regionrt := q.regionrt.put k y }) := by
  simp [State.firmwareWrite, hb, Nat.not_le.2 hk, Nat.not_le.2 hy, hp]
theorem State.firmwareWrite_locals (hb : s.fe.boot = 3) (hk : k < 1024) (hy : y < 32)
    (hp : s.portHolds (s.pkg.localrt.get 31 k) (fun d => d / 1024 == s.devId.toNat / 1024 && d % 1024 == k) = false) :
    s.firmwareWrite (.locals k y) = s.modPkg (fun q => { q with localrt := q.localrt.put k y }) := by
  simp [State.firmwareWrite, hb, Nat.not_le.2 hk, Nat.not_le.2 hy, hp]
theorem State.firmwareWrite_image {img : Image} (hb : s.fe.boot = 3) (hk : k < 2) (ha : k ≠ s.fe.bslot) :
    s.firmwareWrite (.image k img) =
      s.modPkg (fun q => { q with flash := if k = 0 then { q.flash with imageA := img } else { q.flash with imageB := img } }) := by
  simp [State.firmwareWrite, hb, Flash.update, ha, Nat.not_lt.2 (Nat.le_of_lt_succ hk)]
theorem State.firmwareWrite_marker {b : List Byte} {m : Marker} {l : List Marker} (hb : s.fe.boot = 3) (hm : s.pkg.flash.markers = m :: l)
    (hok : s.pkg.flash.mayMark m s.fe.bslot b = true) : s.firmwareWrite (.marker (s.pkg.flash.nextCopy m.seq) b) =
      s.modPkg (fun q => { q with flash := if s.pkg.flash.nextCopy m.seq = 0 then { q.flash with marker0 := b } else { q.flash with marker1 := b } }) := by
  simp [State.firmwareWrite, hb, State.modPkg, Flash.update, hm, hok]
end

/-! ## One slot, and the end of a bundle (R40, R45, R219) -/

section
variable {s : State} {i : Instr}

theorem State.runSlot_clean (h : s.cf.poisoned i = none) : s.runSlot i = exec i s := by simp only [State.runSlot, h]
theorem State.runSlot_poisoned {x : Word} (h : s.cf.poisoned i = some x) : s.runSlot i = .next (s.raise 63 x) := by
  simp only [State.runSlot, h]
theorem State.slotC_ok (h : decodeC s.iss.w0 s.iss.lone = .ok i) :
    s.slotC = ({ s with iss := { s.iss with order := 2 * s.now } } : State).runSlot i := by simp only [State.slotC, h]
theorem State.slotA_ok (h : decodeA s.iss.w1 = .ok i) :
    s.slotA = ({ s with iss := { s.iss with order := 2 * s.now + 1 } } : State).runSlot i := by simp only [State.slotA, h]
theorem State.slotC_error {e : DecodeErr} (h : decodeC s.iss.w0 s.iss.lone = .error e) :
    s.slotC = .next (s.raise 2 (s.iss.w0.setWidth 64)) := by
  simp only [State.slotC, h]
  rfl
theorem State.slotA_error {e : DecodeErr} (h : decodeA s.iss.w1 = .error e) :
    s.slotA = .next (s.raise 2 (0x100000000 ||| s.iss.w1.setWidth 64)) := by
  simp only [State.slotA, h]
  rfl
theorem State.bundleEnd_go {fid : Nat} {t : State} (h : t.iss.stop = .go) :
    s.bundleEnd fid (.next t) = .next (if t.cf.fid = fid then t.waitMark else t) := by
  simp only [State.bundleEnd, h, beq_iff_eq]
end

/-- Settles O48: a step is its turn, and each turn and slot runs the instruction that its rule names. -/
theorem stepsRunTheDecodedInstructions : Obligations.StepsRunTheDecodedInstructions := by
  unfold Obligations.StepsRunTheDecodedInstructions
  intro s ep w w0 w1 p u f r g v done ends
  have run {t : Turn} (ht : p.1 = t) (hp : s.pkg.tripped = false) : step s = p.2.takeTurn t := step_of_turn ht hp
  refine ⟨fun t l => State.turnOf_agenda, State.turnOf_default, ?issue, ?deliver, ?input, ?firmware, ?routes, ?flash, ?slotC, ?slotA,
    fun e => State.slotC_error, fun e => State.slotA_error, fun fid => State.bundleEnd_go⟩
  case issue =>
    intro ht hp hc htop hs hf hb
    have hstep : step s = done v.slots := (run ht hp).trans
      ((State.issueTurn_bundle hc htop hs hf).trans (State.issueBundle_noFault hb))
    refine ⟨fun hl => ⟨State.underLatch_none hl, fun t => State.overLatch_none hl⟩, fun h0 => ?_, fun h0 => ?_⟩
    · rw [hstep, State.slots_lone (show v.iss.lone = true from h0)]
    · rw [hstep, State.slots_pair (show v.iss.lone = false from h0)]
  case deliver => exact fun k m ht hp hm hr => (run ht hp).trans (State.deliverTurn_runs hm hr)
  case input => exact fun e ht hp hh he => (run ht hp).trans (State.inputTurn_runs hh he)
  case firmware => exact fun x ht hp => run ht hp
  case routes =>
    exact fun k y hb hk hy => ⟨State.firmwareWrite_region hb hk hy, fun hk' => State.firmwareWrite_locals hb hk' hy⟩
  case flash => exact fun k img b m l hb hk ha hm => ⟨State.firmwareWrite_image hb hk ha, State.firmwareWrite_marker hb hm⟩
  case slotC =>
    exact fun i hd => ⟨fun hn => (State.slotC_ok hd).trans (State.runSlot_clean hn), fun x hx => (State.slotC_ok hd).trans (State.runSlot_poisoned hx)⟩
  case slotA =>
    exact fun i hd => ⟨fun hn => (State.slotA_ok hd).trans (State.runSlot_clean hn), fun x hx => (State.slotA_ok hd).trans (State.runSlot_poisoned hx)⟩

end Sys2Proof.Machine
end

section
/-! Bundles of register forms: a fault leaves no effect (02_bundles.md R38, R39). -/

namespace Sys2Proof.Machine
open Sys2Proof.Safety

/-! ## What a register form can do (R150 to R159, R173 to R180) -/

/-- An outcome that goes on with the bundle at issue as it was, or takes one fault in the state it started from. -/
def StaysOrRaises (s : State) (o : Out) : Prop := ∃ t, o = .next t ∧ (t.iss = s.iss ∨ ∃ cause value, t = s.raise cause value)

section
variable {s : State}

theorem staysOrRaises_of_iss {t : State} (h : t.iss = s.iss) : StaysOrRaises s (.next t) := ⟨t, rfl, .inl h⟩
theorem staysOrRaises_raise {cause : Nat} {value : Word} : StaysOrRaises s (.next (s.raise cause value)) := ⟨_, rfl, .inr ⟨_, _, rfl⟩⟩
theorem staysOrRaises_branch {imm : BitVec 14} {taken : Bool} : StaysOrRaises s (.next (s.branch imm taken)) := by
  cases taken <;> exact staysOrRaises_of_iss rfl
theorem staysOrRaises_withMode {r : BitVec 3} {go : BitVec 3 → State} (h : ∀ m, (go m).iss = s.iss) : StaysOrRaises s (.next (s.withMode r go)) := by
  unfold State.withMode
  split
  · exact staysOrRaises_raise
  · exact staysOrRaises_of_iss (h _)

theorem staysOrRaises_jalr (imm : BitVec 9) (a d : Reg) : StaysOrRaises s (exec (.jalr imm a d) s) := by
  rw [show exec (.jalr imm a d) s = execJalr imm a d s from rfl, execJalr]
  split
  · exact staysOrRaises_raise
  · exact staysOrRaises_of_iss (State.fixedX_iss ..)
theorem staysOrRaises_fcvt (form : CvtForm) (w : Bool) (rm : Rnd) (a d : Reg) : StaysOrRaises s (exec (.fcvt form w rm a d) s) := by
  refine staysOrRaises_withMode fun m => ?_
  cases form <;> rfl
end

theorem registerForm_staysOrRaises {i : Instr} (s : State) (h : registerForm i = true) : StaysOrRaises s (exec i s) := by
  cases i with
  | add | sub | and | or | xor | andn | sll | srl | sra | slt | sltn | min | max | minn | maxn | mul | mulh | mulhn | div | divn | rem
  | remn | clz | ctz | popc | bswap | sextOp | zextOp | csel | addi | andi | ori | xori | slli | srli | srai | slti | li | liH | lpc
  | fclass | fmvx => exact staysOrRaises_of_iss (State.fixedX_iss ..)
  | jal => exact staysOrRaises_of_iss (State.fixedX_iss ..)
  | jalr imm a d => exact staysOrRaises_jalr imm a d
  | beq | bne | blt | bge | bltn | bgen => exact staysOrRaises_branch
  | fmin | fmax | feq | flt | fle | fsgnj | fmvf => exact staysOrRaises_of_iss rfl
  | fadd | fsub | fmul | fdiv | fsqrt | fmadd | fmsub | fnmadd | fnmsub => exact staysOrRaises_withMode fun _ => rfl
  | fcvt form w rm a d => exact staysOrRaises_fcvt form w rm a d
  | _ => exact absurd h Bool.false_ne_true

theorem runSlot_staysOrRaises {i : Instr} (s : State) (h : registerForm i = true) : StaysOrRaises s (s.runSlot i) := by
  unfold State.runSlot
  split
  · exact staysOrRaises_raise
  · exact registerForm_staysOrRaises s h

/-- Where a form that stays or raises ends in a fault, it has raised one. -/
theorem StaysOrRaises.raised {s t : State} (h : StaysOrRaises s (.next t)) (hg : s.iss.stop = .go) (hf : t.iss.stop = .fault) :
    ∃ cause value, t = s.raise cause value := by
  obtain ⟨u, hu, hi | hr⟩ := h <;> cases hu
  · rw [hi, hg] at hf; cases hf
  · exact hr
/-- Where it goes on, the bundle at issue is as it was. -/
theorem StaysOrRaises.stayed {s : State} {o : Out} (h : StaysOrRaises s o) (hg : goesOn o = true) : ∃ t, o = .next t ∧ t.iss = s.iss := by
  obtain ⟨t, rfl, hi | ⟨cause, value, rfl⟩⟩ := h
  · exact ⟨t, rfl, hi⟩
  · cases hg

/-! ## Slots that hold register forms (R36, R38) -/

/-- The state as one slot of the bundle sees it: `order` is its place in issue order. -/
def State.inOrder (s : State) (order : Nat) : State := { s with iss := { s.iss with order := order } }

section
variable {s : State} {i : Instr}

theorem slotC_staysOrRaises (hd : decodeC s.iss.w0 s.iss.lone = .ok i) (h : registerForm i = true) :
    StaysOrRaises (s.inOrder (2 * s.now)) s.slotC := by
  rw [State.slotC_ok hd]
  exact runSlot_staysOrRaises _ h
theorem slotA_staysOrRaises (hd : decodeA s.iss.w1 = .ok i) (h : registerForm i = true) :
    StaysOrRaises (s.inOrder (2 * s.now + 1)) s.slotA := by
  rw [State.slotA_ok hd]
  exact runSlot_staysOrRaises _ h

/-- A fault is pending in the frame that a slot leaves with one. -/
theorem StaysOrRaises.pending {t : State} {order : Nat} (h : StaysOrRaises (s.inOrder order) (.next t)) (hw : s.iss.win < 8)
    (hg : s.iss.stop = .go) (hf : t.iss.stop = .fault) : ∃ p, t.cf.pending = some p := by
  obtain ⟨cause, value, rfl⟩ := h.raised hg hf
  exact ⟨_, congrArg Frame.pending (State.cf_raise (s := s.inOrder order) hw)⟩

@[simp] theorem State.waitMark_iss (s : State) : s.waitMark.iss = s.iss := by
  unfold State.waitMark
  dsimp only
  split <;> rfl
/-- A bundle that ends in a fault of its slots together takes that fault before both (R38). -/
theorem State.bundleEnd_fault {t : State} {fid : Nat} {o : Out} (h : s.bundleEnd fid o = .next t) (hf : t.iss.stop = .fault)
    (ho : ∀ u, o = .next u → u.iss.stop = .fault → ∃ p, u.cf.pending = some p) : ∃ cause value, t = s.raise cause value := by
  cases o with
  | fault r => cases h
  | refused r => cases h
  | next u =>
    cases hu : u.iss.stop with
    | go =>
      rw [State.bundleEnd_go hu] at h
      cases h
      split at hf
      · rw [State.waitMark_iss, hu] at hf; cases hf
      · rw [hu] at hf; cases hf
    | held =>
      simp only [State.bundleEnd, hu] at h
      cases h
      cases hf
    | fault =>
      obtain ⟨p, hp⟩ := ho u rfl hu
      simp only [State.bundleEnd, hu, hp] at h
      cases h
      exact ⟨_, _, rfl⟩
end

/-- A fault of a bundle of two register forms is raised in the state at issue, whichever slot or both together ran into it. -/
theorem slots_fault {v t : State} {i j : Instr} (hw : v.iss.win < 8) (hg : v.iss.stop = .go) (hl : v.iss.lone = false)
    (hC : decodeC v.iss.w0 false = .ok i) (hA : decodeA v.iss.w1 = .ok j) (hi : registerForm i = true) (hj : registerForm j = true)
    (ht : v.slots = .next t) (hf : t.iss.stop = .fault) : ∃ order cause value, t = (v.inOrder order).raise cause value := by
  have hC' : decodeC v.iss.w0 v.iss.lone = .ok i := by rw [hl, hC]
  have hc := slotC_staysOrRaises hC' hi
  have ha := slotA_staysOrRaises hA hj
  have ofC (h : v.slotC = .next t) : ∃ order cause value, t = (v.inOrder order).raise cause value := ⟨_, (h ▸ hc).raised hg hf⟩
  have ofA (h : v.slotA = .next t) : ∃ order cause value, t = (v.inOrder order).raise cause value := ⟨_, (h ▸ ha).raised hg hf⟩
  rw [State.slots_pair hl] at ht
  split at ht
  case isTrue gC =>
    split at ht
    case isTrue gA =>
      obtain ⟨c, hcn, hciss⟩ := hc.stayed gC
      obtain ⟨a, han, haiss⟩ := ha.stayed gA
      refine ⟨v.iss.order, State.bundleEnd_fault ht hf fun u hu huf => ?_⟩
      split at hu
      · replace hu : c.slotA = .next u := by rwa [hcn] at hu
        have hAc : decodeA c.iss.w1 = .ok j := by rw [hciss]; exact hA
        exact StaysOrRaises.pending (s := c) (hu ▸ slotA_staysOrRaises hAc hj) (by rw [hciss]; exact hw) (by rw [hciss]; exact hg) huf
      · replace hu : a.slotC = .next u := by rwa [han] at hu
        have hCa : decodeC a.iss.w0 a.iss.lone = .ok i := by rw [haiss]; exact hC'
        exact StaysOrRaises.pending (s := a) (hu ▸ slotC_staysOrRaises hCa hi) (by rw [haiss]; exact hw) (by rw [haiss]; exact hg) huf
    case isFalse => exact ofA ht
  case isFalse =>
    split at ht
    · exact ofA ht
    · exact ofC ht

/-- Settles O59: the fault taken is one raised in the state at issue, which changes only the frame's state. -/
theorem faultsOfRegisterFormsLeaveNoEffect : Obligations.FaultsOfRegisterFormsLeaveNoEffect := by
  unfold Obligations.FaultsOfRegisterFormsLeaveNoEffect
  intro v t i j hw hg hl hC hA hi hj _ _ ht hf
  obtain ⟨order, cause, value, rfl⟩ := slots_fault hw hg hl hC hA hi hj ht hf
  have hcf : ((v.inOrder order).raise cause value).cf = v.cf.faulted v.iss.pc cause value := State.cf_raise hw
  refine ⟨order, cause, value, rfl, rfl, ?_⟩
  rw [hcf]
  exact ⟨sameRegisters_faulted _ _, rfl, rfl, rfl, rfl⟩

end Sys2Proof.Machine
end

section
/-! ISAID (02_bundles.md R65, R66). -/

namespace Sys2Proof.Machine

/-! ## A CSR that is read only and open to both modes (R65, R182) -/

section
variable {s t : State} {n : BitVec 12} {reads : Bool} {go : State → State} {v : Word}

/-- Such a CSR, no probe of R378 and not `GFLAGS`, passes the checks in any state. -/
theorem State.csrCheck_open (hok : ∀ fm, csrOk fm n.toNat = true) (hp : csrProbe n.toNat = false) (hg : (n.toNat == 0x103) = false) :
    s.csrCheck n.toNat reads go = go s := by
  simp [State.csrCheck, hok, hp, hg]
theorem State.csrPut_readOnly (hn : csrRw n.toNat = false) : s.csrPut n v = s := by
  simp [State.csrPut, hn]
end

theorem State.csrRead_isaId (s : State) : s.csrRead 0x006 = 0x01000000 := rfl

theorem State.csrCheck_isaId {s : State} {reads : Bool} {go : State → State} : s.csrCheck (0x006 : BitVec 12).toNat reads go = go s :=
  State.csrCheck_open (by decide) rfl rfl
theorem State.csrPut_isaId {s : State} {v : Word} : s.csrPut 0x006 v = s := State.csrPut_readOnly rfl

theorem exec_csrrw_isaId (s : State) (a d : Reg) : exec (.csrrw 0x006 a d) s = .next (s.fixedX d 0x01000000 2) := by
  rw [show exec (.csrrw 0x006 a d) s = execCsrrw 0x006 a d s from rfl, execCsrrw, State.csrCheck_isaId, State.csrPut_isaId]
  rfl
theorem exec_csrrs_isaId (s : State) (a d : Reg) : exec (.csrrs 0x006 a d) s = .next (s.fixedX d 0x01000000 2) := by
  rw [show exec (.csrrs 0x006 a d) s = execCsrrs 0x006 a d s from rfl, execCsrrs, State.csrCheck_isaId]
  simp only [State.csrPut_isaId, ite_self]
  rfl
theorem exec_csrrc_isaId (s : State) (a d : Reg) : exec (.csrrc 0x006 a d) s = .next (s.fixedX d 0x01000000 2) := by
  rw [show exec (.csrrc 0x006 a d) s = execCsrrc 0x006 a d s from rfl, execCsrrc, State.csrCheck_isaId]
  simp only [State.csrPut_isaId, ite_self]
  rfl

/-- Settles O54: ISAID reads as a constant, and no CSR instruction finds a field of it to write. -/
theorem isaIdReadsItsBitMap : Obligations.IsaIdReadsItsBitMap := by
  unfold Obligations.IsaIdReadsItsBitMap
  intro s a d v
  have hv : v = 0x01000000 := s.csrRead_isaId
  refine ⟨?_, ?_, ?_, ?_, exec_csrrw_isaId s a d, exec_csrrs_isaId s a d, exec_csrrc_isaId s a d,
    fun t _ => t.csrRead_isaId.trans hv.symm⟩
  all_goals rw [hv]; decide

end Sys2Proof.Machine
end

section
/-! Bundles that find no room (02_bundles.md R45, R46, 05_task_core.md R172). -/

namespace Sys2Proof.Machine
open Sys2Proof.Safety

/-! ## Bundles without room (R46, R172) -/

/-- Results of variable latency that the issuing frame has outstanding. -/
def State.waiting (s : State) : Nat := (s.cf.outs.filter (fun r => r.due.isNone)).length

/-- The frame parked before its bundle, which has read nothing (R11). -/
def State.parked (s : State) (why : Hold) : State :=
  { s.modCf (fun f => { f with st := .parked, hold := why, pc := s.iss.pc }) with iss := { s.iss with stop := .held } }

theorem State.hold_of_hasRead_false (s : State) {why : Hold} (h : why.hasRead = false) : s.hold why = s.parked why := by
  simp only [State.hold, h, Bool.false_and, Bool.false_eq_true, if_false]
  rfl

section
variable {s : State} {results entries : Nat} {go : State → State}

theorem State.withRoom_results (h : 16 < s.waiting + results) : s.withRoom results entries go = s.parked .results := by
  have hr : s.room results entries = some .results := if_pos h
  rw [State.withRoom, hr, ← s.hold_of_hasRead_false rfl]
theorem State.withRoom_queue (h : s.waiting + results ≤ 16) (he : 0 < entries) (hq : 32 < s.cc.queueDepth + entries) :
    s.withRoom results entries go = s.parked .queue := by
  have hr : s.room results entries = some .queue :=
    (if_neg (Nat.not_lt.2 h)).trans (if_pos (by simp [he, hq]))
  rw [State.withRoom, hr, ← s.hold_of_hasRead_false rfl]
theorem State.atomic_results {d whole fadd : Bool} {h : HReg} {rs1 rd : Reg} {ord : MemOrd} {op : Nat → AccOp}
    (hr : 16 < s.waiting + 1) : s.atomic d h rs1 rd ord fadd whole op = s.parked .results := by
  rw [State.atomic, State.withRoom_results hr]
theorem State.atomic_queue {d whole fadd : Bool} {h : HReg} {rs1 rd : Reg} {ord : MemOrd} {op : Nat → AccOp}
    (hr : s.waiting + 1 ≤ 16) (hq : 32 < s.cc.queueDepth + 1) : s.atomic d h rs1 rd ord fadd whole op = s.parked .queue := by
  rw [State.atomic, State.withRoom_queue hr Nat.one_pos hq]
end

/-- Settles O60: each form asks for its room before anything else. -/
theorem bundlesWithoutRoomPark : Obligations.BundlesWithoutRoomPark := by
  unfold Obligations.BundlesWithoutRoomPark
  intro s imm h sz a b d wide op ord waiting parked
  have results {r : Nat} {go : State → State} (hr : 16 < waiting + r) : (.next (s.withRoom r 1 go) : Out) = parked .results :=
    congrArg _ (State.withRoom_results hr)
  have queue {r : Nat} {go : State → State} (hr : waiting + r ≤ 16) (hq : 32 < s.cc.queueDepth + 1) :
      (.next (s.withRoom r 1 go) : Out) = parked .queue :=
    congrArg _ (State.withRoom_queue hr Nat.one_pos hq)
  refine ⟨fun h1 => ?_, fun h2 => results h2, fun h2 hq => ?_⟩
  · have atomic {fadd whole : Bool} {op : Nat → AccOp} : (.next (s.atomic wide h a d ord fadd whole op) : Out) = parked .results :=
      congrArg _ (State.atomic_results h1)
    exact ⟨results h1, results h1, atomic, atomic, atomic⟩
  · have h1 : waiting + 1 ≤ 16 := by omega
    have h0 : waiting + 0 ≤ 16 := by omega
    have atomic {fadd whole : Bool} {op : Nat → AccOp} : (.next (s.atomic wide h a d ord fadd whole op) : Out) = parked .queue :=
      congrArg _ (State.atomic_queue h1 hq)
    exact ⟨queue h1 hq, queue h1 hq, queue h2 hq, queue h0 hq, queue h0 hq, atomic, atomic, atomic⟩

end Sys2Proof.Machine
end

section
/-! Where exception flags go: the FCSR of the frame and the STICKY bits of the geode (03_numbers.md R89 to R92). -/

namespace Sys2Proof.Machine

/-! ## States with the same flags -/

/-- No FCSR and no STICKY bit tells `t` from `s`. -/
structure State.SameFlags (t s : State) : Prop where
  fcsr : ∀ e k, (t.frame e k).fcsr = (s.frame e k).fcsr
  sticky : ∀ g, (t.geode g).sticky = (s.geode g).sticky

section
variable {r s t : State} {ep w : Nat}

theorem State.SameFlags.refl (s : State) : s.SameFlags s := ⟨fun _ _ => rfl, fun _ => rfl⟩
theorem State.SameFlags.trans (h : t.SameFlags s) (h' : s.SameFlags r) : t.SameFlags r :=
  ⟨fun e k => (h.fcsr e k).trans (h'.fcsr e k), fun g => (h.sticky g).trans (h'.sticky g)⟩
theorem State.SameFlags.foldl {α : Type} {f : State → α → State} (h : ∀ u a, (f u a).SameFlags u) (l : List α) :
    (l.foldl f s).SameFlags s := by
  induction l generalizing s with
  | nil => exact .refl s
  | cons a l ih => exact .trans ih (h s a)
/-- An operation begun is no flag. -/
theorem State.SameFlags.later {ev : Event} (h : t.SameFlags s) : (t.later ev).SameFlags s := ⟨h.fcsr, h.sticky⟩

/-! ## The named updates of the state -/

theorem State.geode_setGeode_other {k g : Nat} {v : Geode} (h : g ≠ k) : (s.setGeode k v).geode g = s.geode g :=
  SMap.get_put_other _ _ _ _ _ h

theorem State.sameFlags_setCore {c : Core} (h : ∀ k, (c.win k).fcsr = ((s.core ep).win k).fcsr) : (s.setCore ep c).SameFlags s := by
  refine ⟨fun e k => ?_, fun _ => rfl⟩
  by_cases he : e = ep
  · rw [he, State.frame, State.core_setCore]
    exact h k
  · rw [State.frame, State.core_setCore_other s ep e c he, State.frame]
theorem State.sameFlags_modFrame {g : Frame → Frame} (hw : w < 8) (h : ∀ f, (g f).fcsr = f.fcsr) : (s.modFrame ep w g).SameFlags s := by
  refine State.sameFlags_setCore fun k => ?_
  by_cases hk : k = w
  · rw [hk, Core.win_setWin _ _ _ hw]
    exact h _
  · rw [Core.win_setWin_other _ _ _ _ hk]
theorem State.sameFlags_modGeode {k : Nat} {f : Geode → Geode} (h : ∀ g, (f g).sticky = g.sticky) : (s.modGeode k f).SameFlags s := by
  refine ⟨fun _ _ => rfl, fun g => ?_⟩
  by_cases hg : g = k
  · rw [hg, State.modGeode, State.geode_setGeode, h]
  · rw [State.modGeode, State.geode_setGeode_other hg]

/-! ## The parts of a write-back before its flags -/

theorem State.sameFlags_sendRelease {r : Release} : (s.sendRelease ep r).SameFlags s := ⟨fun _ _ => rfl, fun _ => rfl⟩
theorem State.sameFlags_fireMonitors {off n : Nat} : (s.fireMonitors ep off n).SameFlags s := by
  unfold State.fireMonitors
  dsimp only
  split
  · exact .refl s
  · exact .trans (.foldl (fun _ _ => State.sameFlags_sendRelease) _) (State.sameFlags_setCore fun _ => rfl)
theorem State.sameFlags_lmWrite {off : Nat} {b : List Byte} : (s.lmWrite ep off b).SameFlags s :=
  .trans State.sameFlags_fireMonitors ⟨fun _ _ => rfl, fun _ => rfl⟩
theorem Geode.writeVFrom_sticky {c p gmap r : Nat} (l : List Half) :
    ∀ (gd : Geode) (i : Nat), (gd.writeVFrom c p gmap r i l).sticky = gd.sticky := by
  induction l with
  | nil => exact fun _ _ => rfl
  | cons v l ih =>
    intro gd i
    rw [Geode.writeVFrom, ih]
    split <;> rfl
theorem State.sameFlags_vwrite {r : Reg} {l : List Half} : (s.vwrite ep w r l).SameFlags s := by
  unfold State.vwrite
  dsimp only
  split
  · exact State.sameFlags_lmWrite
  · exact State.sameFlags_modGeode fun gd => Geode.writeVFrom_sticky _ gd 0
theorem State.sameFlags_intoStream {r : Result} {val : ResVal} (hw : w < 8) : (s.intoStream ep w r val).SameFlags s := by
  unfold State.intoStream
  split
  · split
    · exact .refl s
    · dsimp only
      split
      · exact .later (State.sameFlags_modFrame hw fun _ => rfl)
      · exact .later (State.sameFlags_setCore fun _ => rfl)
  · exact .refl s
theorem State.sameFlags_putDead {d : Dst} {val : ResVal} (hw : w < 8) : (s.putDead ep w d val).SameFlags s := by
  unfold State.putDead
  split
  · split
    · exact .refl s
    · exact State.sameFlags_modFrame hw fun _ => rfl
  · exact .refl s
@[simp] theorem Frame.putX_fcsr {f : Frame} {x : Reg} {v : Word} : (f.putX x v).fcsr = f.fcsr := by unfold Frame.putX; split <;> rfl
/-- Of all destinations only a CSR holds flags. -/
theorem State.sameFlags_putDst {d : Dst} {val : ResVal} {poison : Bool} (hw : w < 8) (hd : ∀ n, d ≠ .csr n) :
    (s.putDst ep w d val poison).SameFlags s := by
  unfold State.putDst
  split
  case h_1 => exact State.sameFlags_modFrame hw fun _ => Frame.putX_fcsr
  case h_2 => exact State.sameFlags_modFrame hw fun _ => rfl
  case h_3 => exact State.sameFlags_modFrame hw fun _ => rfl
  case h_4 => exact .trans (State.sameFlags_modFrame hw fun _ => rfl) State.sameFlags_vwrite
  case h_5 => exact absurd rfl (hd _)
  case h_6 => exact State.sameFlags_modFrame hw fun _ => Frame.putX_fcsr
  case h_7 => exact .refl s
end

/-! ## Flags that accrue -/

theorem accrue_zero (fcsr : Word) : accrue fcsr 0 = fcsr := by simp [accrue]
/-- NV, DZ, OF, UF and NX keep their places, and SAT goes to bit 8. -/
theorem getLsbD_accrue (fcsr : Word) (fl : FlagSet) (i : Nat) :
    (accrue fcsr fl).getLsbD i = (fcsr.getLsbD i || (decide (i < 5) && fl.getLsbD i) || (decide (i = 8) && fl.getLsbD 5)) := by
  have low : ((fl &&& 31).setWidth 64).getLsbD i = (decide (i < 5) && fl.getLsbD i) := by
    rw [show (31 : FlagSet) = (BitVec.allOnes 5).setWidth 6 from rfl]
    simp only [BitVec.getLsbD_setWidth, BitVec.getLsbD_and, BitVec.getLsbD_allOnes]
    by_cases h : i < 5
    · simp [h, show i < 64 by omega, show i < 6 by omega]
    · simp [h]
  have sat : (if fl.getLsbD 5 then (0x100 : Word) else 0).getLsbD i = (decide (i = 8) && fl.getLsbD 5) := by
    cases fl.getLsbD 5 with
    | false => simp
    | true =>
      rw [if_pos rfl, show (0x100 : Word) = BitVec.twoPow 64 8 from rfl, BitVec.getLsbD_twoPow]
      simp [eq_comm]
  rw [accrue, BitVec.getLsbD_or, BitVec.getLsbD_or, low, sat]

section
variable {s : State} {ep w : Nat} {fl : FlagSet}

theorem State.accrueFlags_zero : s.accrueFlags ep w 0 = s := rfl
theorem State.accrueFlags_frame : (s.accrueFlags ep w fl).frame =
    (if fl = 0 then s else s.modFrame ep w (fun f => { f with fcsr := accrue f.fcsr fl })).frame := by
  by_cases h : fl = 0
  · rw [if_pos h, h, State.accrueFlags_zero]
  · rw [if_neg h, State.accrueFlags, if_neg (mt beq_iff_eq.1 h)]
    dsimp only
    split <;> rfl
theorem State.accrueFlags_fcsr (hw : w < 8) : ((s.accrueFlags ep w fl).frame ep w).fcsr = accrue (s.frame ep w).fcsr fl := by
  rw [State.accrueFlags_frame]
  split
  case isTrue h => rw [h, accrue_zero]
  case isFalse => rw [State.frame_modFrame _ _ _ _ hw]
theorem State.accrueFlags_frame_win {k : Nat} (hk : k ≠ w) : (s.accrueFlags ep w fl).frame ep k = s.frame ep k := by
  rw [State.accrueFlags_frame]
  split
  · rfl
  · exact State.frame_setFrame_win _ _ _ _ _ hk
theorem State.accrueFlags_frame_core {e k : Nat} (he : e ≠ ep) : (s.accrueFlags ep w fl).frame e k = s.frame e k := by
  rw [State.accrueFlags_frame]
  split
  · rfl
  · exact State.frame_setFrame_core _ _ _ _ _ _ he
theorem State.accrueFlags_sticky (hm : isMemCore ep = false) :
    ((s.accrueFlags ep w fl).geode (epGeode ep)).sticky = (s.geode (epGeode ep)).sticky ||| fl := by
  by_cases h : fl = 0
  · rw [h, State.accrueFlags_zero]
    simp
  · rw [State.accrueFlags, if_neg (mt beq_iff_eq.1 h), hm, if_neg Bool.false_ne_true, State.modGeode, State.geode_setGeode]
    rfl
end

/-- A write-back of a result that is not for a CSR reaches flags only when those of the result accrue, at its end. -/
theorem State.writeBack_sameFlags {s : State} {ep w : Nat} {r : Result} {val : ResVal} {fl : FlagSet} {poison : Bool} (hw : w < 8)
    (hd : ∀ n, r.dst ≠ .csr n) : ∃ t : State, s.writeBack ep w r val fl poison = t.accrueFlags ep w fl ∧ t.SameFlags s := by
  have hs : ((s.settleResult ep w r).intoStream ep w r val).SameFlags s :=
    .trans (State.sameFlags_intoStream hw) (State.sameFlags_modFrame hw fun _ => rfl)
  refine ⟨_, State.writeBack_eq, ?_⟩
  split
  · exact (State.sameFlags_putDead hw).trans hs
  · exact (State.sameFlags_putDst hw hd).trans hs

/-- Settles O58: only the last part of a write-back touches flags, and it ORs those of the result. -/
theorem flagsAccrueAndStay : Obligations.FlagsAccrueAndStay := by
  unfold Obligations.FlagsAccrueAndStay
  intro s ep win r val fl poison hw hd t old new
  obtain ⟨u, ht, hu⟩ : ∃ u : State, t = u.accrueFlags ep win fl ∧ u.SameFlags s := State.writeBack_sameFlags hw hd
  have hnew : new = accrue old fl := by
    rw [show new = (t.frame ep win).fcsr from rfl, ht, State.accrueFlags_fcsr hw, hu.fcsr]
  refine ⟨fun i => hnew ▸ getLsbD_accrue old fl i, fun k hk => ?_, fun e k he => ?_, fun hm => ?_⟩
  · rw [ht, State.accrueFlags_frame_win hk, hu.fcsr]
  · rw [ht, State.accrueFlags_frame_core he, hu.fcsr]
  · rw [ht, State.accrueFlags_sticky hm, hu.sticky]

end Sys2Proof.Machine
end

section
/-! Trace ring writes and the commands of the state-access window (12_home_agents.md R417 to R422, 17_package.md R525). -/

namespace Sys2Proof.Machine

/-! ## The event of a ring write or a command is the one that its effect reads -/

section
variable {s : State} {q : WinOp}

theorem exec_rrctlWrite_of_ev (h : s.ev = some (.rrctlWrite q)) : exec .rrctlWrite s = execRrctlWrite q s := by
  rw [show exec .rrctlWrite s = runRrctlWrite s from rfl, runRrctlWrite, h]
theorem exec_rrpush_of_ev (h : s.ev = some (.rrpush q)) : exec .rrpush s = execRrpush q s := by
  rw [show exec .rrpush s = runRrpush s from rfl, runRrpush, h]
theorem exec_rrpop_of_ev (h : s.ev = some (.rrpop q)) : exec .rrpop s = execRrpop q s := by
  rw [show exec .rrpop s = runRrpop s from rfl, runRrpop, h]
theorem exec_hcinv_of_ev (h : s.ev = some (.hcinv q)) : exec .hcinv s = execHcinv q s := by
  rw [show exec .hcinv s = runHcinv s from rfl, runHcinv, h]
theorem exec_icinv_of_ev (h : s.ev = some (.icinv q)) : exec .icinv s = execIcinv q s := by
  rw [show exec .icinv s = runIcinv s from rfl, runIcinv, h]
theorem exec_gfclear_of_ev (h : s.ev = some (.gfclear q)) : exec .gfclear s = execGfclear q s := by
  rw [show exec .gfclear s = runGfclear s from rfl, runGfclear, h]
theorem exec_tlbinv_of_ev {range : Option Word} (h : s.ev = some (.tlbinv q range)) : exec .tlbinv s = execTlbinv q range s := by
  rw [show exec .tlbinv s = runTlbinv s from rfl, runTlbinv, h]
theorem exec_corereset_of_ev (h : s.ev = some (.corereset q)) : exec .corereset s = execCorereset q s := by
  rw [show exec .corereset s = runCorereset s from rfl, runCorereset, h]
end

/-! ## A write of RRCTL, by the MODE that it names and the one that it finds (R417, R422) -/

section
variable {s : State} {q : WinOp} {w : Word} (ht : s.opThere q w)
include ht

theorem execRrctlWrite_starts (hm : fld q.data 32 2 ≠ 0) (h3 : fld q.data 32 2 ≠ 3) (hr : (s.ring (winInst q)).mode = 0) :
    execRrctlWrite q s = .next ((s.setRing (winInst q) { s.ring (winInst q) with ctl := q.data &&& 0x30001FFFF, seq := 0 }).sawEnd q 0 none) := by
  refine next_winAct_there ht ?_
  simp [hm, h3, hr]
theorem execRrctlWrite_underWay (hm : fld q.data 32 2 ≠ 0) (hr : (s.ring (winInst q)).mode ≠ 0) :
    execRrctlWrite q s = .next (s.sawEnd q 5 none) := by
  refine next_winAct_there ht ?_
  simp [hm, hr]
theorem execRrctlWrite_endsRecording (hm : fld q.data 32 2 = 0) (hr : (s.ring (winInst q)).mode = 1) :
    execRrctlWrite q s = .next (((s.setRing (winInst q) { s.ring (winInst q) with
      ctl := setFld (s.ring (winInst q)).ctl 32 2 0 }).appendEntry (winInst q) (traceEnd (s.ring (winInst q)).seq, 0)).sawEnd q 0 none) := by
  refine next_winAct_there ht ?_
  simp [hm, hr]
theorem execRrctlWrite_endsReplay (hm : fld q.data 32 2 = 0) (hr : (s.ring (winInst q)).mode = 2) :
    execRrctlWrite q s = .next ((((s.ring (winInst q)).rob.foldl (fun u a => portPerform (winInst q) a.2 u)
      (s.setRing (winInst q) { s.ring (winInst q) with
        ctl := setFld (s.ring (winInst q)).ctl 32 2 0, entries := [], rob := [], diverged := false })).ringWake (winInst q)).sawEnd q 0 none) := by
  refine next_winAct_there ht ?_
  simp [hm, hr]
theorem execRrctlWrite_idle (hm : fld q.data 32 2 = 0) (h1 : (s.ring (winInst q)).mode ≠ 1) (h2 : (s.ring (winInst q)).mode ≠ 2) :
    execRrctlWrite q s = .next (((s.setRing (winInst q) { s.ring (winInst q) with
      ctl := q.data &&& 0x1FFFF, entries := (if (s.ring (winInst q)).diverged then [] else (s.ring (winInst q)).entries)
      diverged := false }).ringWake (winInst q)).sawEnd q 0 none) := by
  refine next_winAct_there ht ?_
  simp [hm, h1, h2]

/-! ## Entries pushed for replay and popped after recording (R419, R420) -/

theorem execRrpush_room (hr : (s.ring (winInst q)).mode = 2) (hl : (s.ring (winInst q)).entries.length < 64) :
    execRrpush q s = .next (((s.setRing (winInst q) { s.ring (winInst q) with
      entries := (s.ring (winInst q)).entries ++ [((s.ring (winInst q)).push0, q.data &&& traceMask1)] }).reexamine
        (winInst q) (portHdr (winInst q)) (portPerform (winInst q))).sawEnd q 0 none) := by
  refine next_winAct_there ht ?_
  simp [hr, hl]
theorem execRrpop_pops (hr : (s.ring (winInst q)).mode ≠ 2) :
    execRrpop q s = .next (((s.setRing (winInst q) { s.ring (winInst q) with
      entries := (s.ring (winInst q)).entries.drop q.data.toNat }).ringWake (winInst q)).sawEnd q 0 none) := by
  refine next_winAct_there ht ?_
  simp [hr]
end

/-- CORERESET is for cores of code 3 or 4, which are HALTED or VACATED (R525). -/
theorem Core.notResettable_iff {c : Core} : (!(c.code == 3 || c.code == 4)) = true ↔ c.code ≠ 3 ∧ c.code ≠ 4 := by simp

/-- Settles O44: a ring write is an action on the word that is there, and a command is the effect of its event. -/
theorem windowCommandsComplete : Obligations.WindowCommandsComplete := by
  unfold Obligations.WindowCommandsComplete
  intro s q w i r there ends asid
  refine ⟨?rrctl, ?rrpush, ?rrpop, ?hcinv, ?icinv, ?gfclear, ?tlbinv, ?corereset⟩
  case rrctl =>
    intro he ht m
    have run := exec_rrctlWrite_of_ev he
    exact ⟨fun hm h3 hr => run.trans (execRrctlWrite_starts ht hm h3 hr), fun hm hr => run.trans (execRrctlWrite_underWay ht hm hr),
      fun hm hr => run.trans (execRrctlWrite_endsRecording ht hm hr), fun hm hr => run.trans (execRrctlWrite_endsReplay ht hm hr),
      fun hm h1 h2 => run.trans (execRrctlWrite_idle ht hm h1 h2)⟩
  case rrpush => exact fun he ht hr hl => (exec_rrpush_of_ev he).trans (execRrpush_room ht hr hl)
  case rrpop => exact fun he ht hr => (exec_rrpop_of_ev he).trans (execRrpop_pops ht hr)
  case hcinv => exact fun he => exec_hcinv_of_ev he
  case icinv => exact fun he => exec_icinv_of_ev he
  case gfclear => exact fun he => exec_gfclear_of_ev he
  case tlbinv =>
    intro range base t hit l he
    have run := exec_tlbinv_of_ev he
    refine ⟨fun hb => run.trans (congrArg _ (if_pos hb)), fun hb hg => ?_, fun hb hg hl => ?_⟩
    · have owesNone : (t.guest.state != 2 || l.isEmpty) = true := by simpa using hg
      exact run.trans (congrArg _ ((if_neg (Bool.eq_false_iff.1 hb)).trans (if_pos owesNone)))
    · have owes : ¬(t.guest.state != 2 || l.isEmpty) = true := by simpa using ⟨hg, hl⟩
      exact run.trans (congrArg _ ((if_neg (Bool.eq_false_iff.1 hb)).trans (if_neg owes)))
  case corereset =>
    intro ep c he
    have run := exec_corereset_of_ev he
    refine ⟨fun h3 h4 => run.trans (congrArg _ (if_pos (Core.notResettable_iff.2 ⟨h3, h4⟩))), fun hc => run.trans (congrArg _ (if_neg ?_))⟩
    rw [Core.notResettable_iff]
    exact fun h => hc.elim h.1 h.2

end Sys2Proof.Machine
end

section
/-! The checks of an access at its source, in their order (04_memory.md R106, R107, R119-R122). -/

namespace Sys2Proof.Machine

/-! ## Checks in their order (R120) -/

/-- The outcome of checks made in order: the fault of the first that fails, each listed as whether it fails and its cause, or what
follows them all. -/
def Chk.firstFault (ev : Word) (checks : List (Bool × Nat)) (passed : Chk) : Chk :=
  match checks.find? (·.1) with
  | some p => .fault p.2 ev
  | none => passed

section
variable {ev : Word} {checks : List (Bool × Nat)} {passed : Chk}

@[simp] theorem Chk.firstFault_nil : Chk.firstFault ev [] passed = passed := rfl
theorem Chk.firstFault_cons (b : Bool) (c : Nat) :
    Chk.firstFault ev ((b, c) :: checks) passed = if b then .fault c ev else Chk.firstFault ev checks passed := by
  cases b <;> rfl
theorem Chk.firstFault_of_some {p : Bool × Nat} (h : checks.find? (·.1) = some p) : Chk.firstFault ev checks passed = .fault p.2 ev := by
  rw [Chk.firstFault, h]
theorem Chk.firstFault_of_none (h : checks.find? (·.1) = none) : Chk.firstFault ev checks passed = passed := by
  rw [Chk.firstFault, h]
end

/-- The spaces that the agent at an endpoint reaches with a load, store or atomic (R106). -/
def reaches (ep sp : Nat) : Bool := sp == 0 || sp == 1 || (isMemCore ep && (sp == 2 || sp == 4))

/-- An instruction that allows LOCAL, REMOTE, GLOBAL and HOST adds nothing to what its agent reaches. -/
theorem reaches_within (ep sp : Nat) : (!reaches ep sp || !([0, 1, 2, 4] : List Nat).contains sp) = !reaches ep sp := by
  by_cases h : sp = 0 ∨ sp = 1 ∨ sp = 2 ∨ sp = 4
  · obtain rfl | rfl | rfl | rfl := h <;> exact Bool.or_false _
  · rw [not_or, not_or, not_or] at h
    have unreached : reaches ep sp = false := by simp_all [reaches]
    simp [unreached]

/-- The permission that an access needs of its page (R123). -/
def AccKind.need (k : AccKind) : Need := if k = .load then .read else if k = .store then .write else .atomic

/-- Steps 1 to 9 of R120: whether each fails for an access, and its cause. -/
def State.sourceChecks (s : State) (det : Bool) (hn : HReg) (off : Word) (n e : Nat) (k : AccKind) (atomOk fadd : Bool) : List (Bool × Nat) :=
  let h := s.cf.getH hn
  let st := k != .load
  [(!h.valid, 48),
    (!reaches s.iss.ep h.space, 26),
    (k == .load && !bitOf h.w3 0, 5),
    ((st && !bitOf h.w3 1) || (k == .atomic && (!bitOf h.w3 2 || h.space == 4)), 7),
    (bitOf h.w3 5 && k != .atomic && !atomOk, 49),
    (fadd && det, 50),
    (st && bitOf h.w3 4 && !h.cap, 27),
    (decide (h.bound.toNat < off.toNat + n), 25),
    ((h.base.toNat + off.toNat) % e != 0, if st then 6 else 4),
    (h.space == 1 && h.target != s.iss.ep &&
      (!epValid h.target || s.disabled h.target || (!s.cf.fm && s.cc.firewalled h.target)), if st then 7 else 5)]

/-- Step 10 of R120, on the walk that translated a virtual address (R122, R108). -/
def Walk.chk (w : Walk) (h : Handle) (st : Bool) (va : Nat) : Chk :=
  match w.res with
  | .ok pa ns => .ok (Target.mk 2 (homeOf pa) pa (ns || h.policy == 1) (h.policy == 2) (some w))
  | .pageFault => .fault (if st then 15 else 13) (BitVec.ofNat 64 va)
  | .unpopulated => .fault (if st then 7 else 5) (BitVec.ofNat 64 va)

/-- Where an access that passes steps 1 to 9 goes, by its space. -/
def State.destination (s : State) (h : Handle) (va : Nat) (k : AccKind) : Chk :=
  match h.space with
  | 0 => .ok (Target.mk 0 s.iss.ep va false false none)
  | 1 => if h.target == s.iss.ep then .ok (Target.mk 0 s.iss.ep va false false none) else .ok (Target.mk 1 h.target va false false none)
  | 4 => .ok (Target.mk 4 (agentEp 0 0x81) va false false none)
  | _ => (s.translate s.cc.tlb (epSlab s.iss.ep) s.cf.asid va k.need).chk h (k != .load) va

/-- The checks of an access are steps 1 to 9 in their order, and then its space decides. -/
theorem State.check_eq_firstFault (s : State) (det : Bool) (hn : HReg) (off : Word) (n e : Nat) (k : AccKind) (atomOk fadd : Bool) :
    s.check det hn off n e k atomOk fadd [0, 1, 2, 4] = Chk.firstFault (evalAcc hn (k != .load) off)
      (s.sourceChecks det hn off n e k atomOk fadd) (s.destination (s.cf.getH hn) ((s.cf.getH hn).base.toNat + off.toNat) k) := by
  have within := reaches_within s.iss.ep (s.cf.getH hn).space
  simp only [State.check, State.sourceChecks, Chk.firstFault_cons, Chk.firstFault_nil, decide_eq_true_eq, reaches] at within ⊢
  rw [within]
  cases k <;> rfl

section
variable {s : State} {h : Handle} {va : Nat} {k : AccKind}

theorem State.destination_local (hs : h.space = 0) : s.destination h va k = .ok (Target.mk 0 s.iss.ep va false false none) := by
  simp only [State.destination, hs]
/-- R107: a REMOTE access to the own core is a LOCAL one. -/
theorem State.destination_remote_own (hs : h.space = 1) (ht : h.target = s.iss.ep) :
    s.destination h va k = .ok (Target.mk 0 s.iss.ep va false false none) := by
  rw [State.destination, hs]
  exact if_pos (beq_iff_eq.2 ht)
theorem State.destination_remote (hs : h.space = 1) (ht : h.target ≠ s.iss.ep) :
    s.destination h va k = .ok (Target.mk 1 h.target va false false none) := by
  rw [State.destination, hs]
  exact if_neg (mt beq_iff_eq.1 ht)
theorem State.destination_host (hs : h.space = 4) : s.destination h va k = .ok (Target.mk 4 (agentEp 0 0x81) va false false none) := by
  simp only [State.destination, hs]
theorem State.destination_global (hs : h.space = 2) :
    s.destination h va k = (s.translate s.cc.tlb (epSlab s.iss.ep) s.cf.asid va k.need).chk h (k != .load) va := by
  simp only [State.destination, hs]
end

section
variable {w : Walk} {h : Handle} {st : Bool} {va : Nat}

theorem Walk.chk_ok {pa : Nat} {ns : Bool} (hw : w.res = .ok pa ns) :
    w.chk h st va = .ok (Target.mk 2 (homeOf pa) pa (ns || h.policy == 1) (h.policy == 2) (some w)) := by
  rw [Walk.chk, hw]
theorem Walk.chk_pageFault (hw : w.res = .pageFault) : w.chk h st va = .fault (if st then 15 else 13) (BitVec.ofNat 64 va) := by
  rw [Walk.chk, hw]
theorem Walk.chk_unpopulated (hw : w.res = .unpopulated) : w.chk h st va = .fault (if st then 7 else 5) (BitVec.ofNat 64 va) := by
  rw [Walk.chk, hw]
end

/-- Settles O55: the first failing step of the list is the fault, and an access that passes them all goes where its space says. -/
theorem accessChecksInTheirOrder : Obligations.AccessChecksInTheirOrder := by
  unfold Obligations.AccessChecksInTheirOrder
  intro s det hn off n e k atomOk fadd h st ev va bad need w chk
  have hchk : chk = Chk.firstFault ev bad (s.destination h va k) := s.check_eq_firstFault det hn off n e k atomOk fadd
  refine ⟨fun p hp => hchk.trans (Chk.firstFault_of_some hp), fun hnone => ?_⟩
  have hdest : chk = s.destination h va k := hchk.trans (Chk.firstFault_of_none hnone)
  refine ⟨?loc, ?own, ?remote, ?host, ?global⟩
  case loc => exact fun hs => hdest.trans (State.destination_local hs)
  case own => exact fun hs ht => hdest.trans (State.destination_remote_own hs ht)
  case remote => exact fun hs ht => hdest.trans (State.destination_remote hs ht)
  case host => exact fun hs => hdest.trans (State.destination_host hs)
  case global =>
    intro hs
    have hwalk : chk = w.chk h st va := hdest.trans (State.destination_global hs)
    exact ⟨fun pa ns hw => hwalk.trans (Walk.chk_ok hw), fun hw => hwalk.trans (Walk.chk_pageFault hw),
      fun hw => hwalk.trans (Walk.chk_unpopulated hw)⟩

end Sys2Proof.Machine
end

section
/-! What a register form leaves as it was (05_task_core.md R150 to R159, R174 to R180; 02_bundles.md R38, R41). -/

namespace Sys2Proof.Machine
open Sys2Proof.Safety

/-! ## Steps confined to the issuing frame -/

/-- Of `s`, the step to `t` changes nothing but the issuing frame, fresh names, internal operations begun and how the bundle goes on;
the frame keeps its registers and its results, and gains at most `n` results. -/
structure ConfinedToFrame (n : Nat) (s t : State) : Prop where
  rest : { t with iss := s.iss, uid := s.uid, net := s.net, cores := s.cores } = s
  ep : t.iss.ep = s.iss.ep
  win : t.iss.win = s.iss.win
  otherCores : ∀ e, e ≠ s.iss.ep → t.core e = s.core e
  ownCore : ({ t.core s.iss.ep with wins := (s.core s.iss.ep).wins } : Core) = s.core s.iss.ep
  otherWindows : ∀ w, w ≠ s.iss.win → t.frame s.iss.ep w = s.frame s.iss.ep w
  registers : sameRegisters (t.frame s.iss.ep s.iss.win) (s.frame s.iss.ep s.iss.win)
  results : ∃ l, (t.frame s.iss.ep s.iss.win).outs = (s.frame s.iss.ep s.iss.win).outs ++ l ∧ l.length ≤ n

theorem sameRegisters_refl (f : Frame) : sameRegisters f f := ⟨rfl, rfl, rfl, rfl, rfl, rfl, rfl, rfl, rfl, rfl, rfl, rfl, rfl, rfl, rfl⟩
theorem sameRegisters_trans {f g k : Frame} (h : sameRegisters f g) (h' : sameRegisters g k) : sameRegisters f k := by
  unfold sameRegisters at *
  simp only [h, h', and_self]

section
variable {s t : State} {n : Nat}

theorem ConfinedToFrame.refl : ConfinedToFrame n s s where
  rest := rfl
  ep := rfl
  win := rfl
  otherCores _ _ := rfl
  ownCore := rfl
  otherWindows _ _ := rfl
  registers := sameRegisters_refl _
  results := ⟨[], (List.append_nil _).symm, Nat.zero_le n⟩

theorem ConfinedToFrame.modCf {g : Frame → Frame} (hw : s.iss.win < 8) (hr : sameRegisters (g s.cf) s.cf)
    (ho : ∃ l, (g s.cf).outs = s.cf.outs ++ l ∧ l.length ≤ n) : ConfinedToFrame n s (s.modCf g) where
  rest := rfl
  ep := rfl
  win := rfl
  otherCores e he := s.core_setCore_other _ e _ he
  ownCore := by
    rw [show (s.modCf g).core s.iss.ep = (s.core s.iss.ep).setWin s.iss.win (g s.cf) from s.core_setCore _ _]
    rfl
  otherWindows w h := s.frame_setFrame_win _ _ w _ h
  registers := by
    rw [show (s.modCf g).frame s.iss.ep s.iss.win = g s.cf from s.cf_modCf g hw]
    exact hr
  results := by
    rw [show (s.modCf g).frame s.iss.ep s.iss.win = g s.cf from s.cf_modCf g hw]
    exact ho

/-- A step that adds no result may follow. -/
theorem ConfinedToFrame.trans {u : State} (h : ConfinedToFrame n s t) (h' : ConfinedToFrame 0 t u) : ConfinedToFrame n s u := by
  obtain ⟨rest', ep', win', others', own', wins', regs', l', houts', hl'⟩ := h'
  rw [h.ep] at ep' others' own' wins' regs' houts'
  rw [h.win] at win' wins' regs' houts'
  obtain ⟨l, houts, hl⟩ := h.results
  refine ⟨?rest, ep', win', fun e he => (others' e he).trans (h.otherCores e he), ?own, fun w hw => (wins' w hw).trans (h.otherWindows w hw),
    ?regs, l, ?outs, hl⟩
  case rest =>
    calc { u with iss := s.iss, uid := s.uid, net := s.net, cores := s.cores }
        = { ({ u with iss := t.iss, uid := t.uid, net := t.net, cores := t.cores } : State) with
            iss := s.iss, uid := s.uid, net := s.net, cores := s.cores } := rfl
      _ = s := by rw [rest', h.rest]
  case own =>
    calc ({ u.core s.iss.ep with wins := (s.core s.iss.ep).wins } : Core)
        = { ({ u.core s.iss.ep with wins := (t.core s.iss.ep).wins } : Core) with wins := (s.core s.iss.ep).wins } := rfl
      _ = s.core s.iss.ep := by rw [own', h.ownCore]
  case regs => exact sameRegisters_trans regs' h.registers
  case outs => rw [houts', List.length_eq_zero_iff.1 (Nat.le_zero.1 hl'), List.append_nil, houts]

/-- Fresh names, operations begun and the way the bundle goes on are no part of the frame. -/
theorem ConfinedToFrame.withRest {uid : Nat} {net : List Msg} {stop : Stop} (h : ConfinedToFrame n s t) :
    ConfinedToFrame n s { t with uid := uid, net := net, iss := { t.iss with stop := stop } } :=
  ⟨h.rest, h.ep, h.win, h.otherCores, h.ownCore, h.otherWindows, h.registers, h.results⟩

/-! ## The named operations that a register form ends in -/

variable (hw : s.iss.win < 8)
include hw

theorem ConfinedToFrame.fixed {d : Dst} {v : ResVal} {fl : FlagSet} {lat : Nat} : ConfinedToFrame 1 s (s.fixed d v fl lat) :=
  (ConfinedToFrame.modCf hw (sameRegisters_refl _) ⟨[_], rfl, Nat.le_refl 1⟩).withRest
theorem ConfinedToFrame.fixedX {d : Reg} {v : Word} {lat : Nat} : ConfinedToFrame 1 s (s.fixedX d v lat) := by
  unfold State.fixedX
  split
  · exact .refl
  · exact .fixed hw
theorem ConfinedToFrame.raise {cause : Nat} {value : Word} : ConfinedToFrame n s (s.raise cause value) :=
  (ConfinedToFrame.modCf hw (sameRegisters_faulted _ _) ⟨[], (List.append_nil _).symm, Nat.zero_le n⟩).withRest
theorem ConfinedToFrame.jump {v : Word} : ConfinedToFrame n s (s.jump v) :=
  .modCf hw (sameRegisters_refl _) ⟨[], (List.append_nil _).symm, Nat.zero_le n⟩
theorem ConfinedToFrame.branch {imm : BitVec 14} {taken : Bool} : ConfinedToFrame n s (s.branch imm taken) := by
  unfold State.branch
  split
  · exact .jump hw
  · exact .refl
theorem ConfinedToFrame.withMode {r : BitVec 3} {go : BitVec 3 → State} (h : ∀ m, ConfinedToFrame n s (go m)) :
    ConfinedToFrame n s (s.withMode r go) := by
  unfold State.withMode
  split
  · exact .raise hw
  · exact h _
/-- A link register written and the pc moved (R158): the one result is that of the link register. -/
theorem ConfinedToFrame.link {d : Reg} {v target : Word} {lat : Nat} : ConfinedToFrame 1 s ((s.fixedX d v lat).jump target) := by
  have link : ConfinedToFrame 1 s (s.fixedX d v lat) := .fixedX hw
  exact link.trans (.jump (by rw [link.win]; exact hw))
end

/-! ## Every register form -/

/-- What a register form answers, if it answers a state, is confined to its frame. -/
def AnswersInFrame (s : State) (o : Out) : Prop := ∀ t, o = .next t → ConfinedToFrame 1 s t

section
variable {s : State}

theorem answersInFrame_next {t : State} (h : ConfinedToFrame 1 s t) : AnswersInFrame s (.next t) := by
  rintro _ ⟨⟩
  exact h
theorem answersInFrame_jalr (hw : s.iss.win < 8) (imm : BitVec 9) (a d : Reg) : AnswersInFrame s (exec (.jalr imm a d) s) := by
  rw [show exec (.jalr imm a d) s = execJalr imm a d s from rfl, execJalr]
  refine answersInFrame_next ?_
  split
  · exact .raise hw
  · exact .link hw
theorem answersInFrame_fcvt (hw : s.iss.win < 8) (form : CvtForm) (w : Bool) (rm : Rnd) (a d : Reg) :
    AnswersInFrame s (exec (.fcvt form w rm a d) s) := by
  refine answersInFrame_next (.withMode hw fun m => ?_)
  cases form <;> exact .fixed hw

theorem registerForm_answersInFrame (hw : s.iss.win < 8) {i : Instr} (h : registerForm i = true) : AnswersInFrame s (exec i s) := by
  cases i with
  | add | sub | and | or | xor | andn | sll | srl | sra | slt | sltn | min | max | minn | maxn | mul | mulh | mulhn | div | divn | rem
  | remn | clz | ctz | popc | bswap | sextOp | zextOp | csel | addi | andi | ori | xori | slli | srli | srai | slti | li | liH | lpc
  | fclass | fmvx => exact answersInFrame_next (.fixedX hw)
  | jal => exact answersInFrame_next (.link hw)
  | jalr imm a d => exact answersInFrame_jalr hw imm a d
  | beq | bne | blt | bge | bltn | bgen => exact answersInFrame_next (.branch hw)
  | fmin | fmax | feq | flt | fle | fsgnj | fmvf => exact answersInFrame_next (.fixed hw)
  | fadd | fsub | fmul | fdiv | fsqrt | fmadd | fmsub | fnmadd | fnmsub => exact answersInFrame_next (.withMode hw fun _ => .fixed hw)
  | fcvt form w rm a d => exact answersInFrame_fcvt hw form w rm a d
  | _ => exact absurd h Bool.false_ne_true
end

/-- Settles O51: what a register form answers is confined to the issuing frame, whose registers it leaves. -/
theorem registerFormsTouchNothingElse : Obligations.RegisterFormsTouchNothingElse := by
  unfold Obligations.RegisterFormsTouchNothingElse
  intro i s t hw hi ht
  have h : ConfinedToFrame 1 s t := registerForm_answersInFrame hw hi t ht
  have kept {α : Type} (field : State → α) : field { t with iss := s.iss, uid := s.uid, net := s.net, cores := s.cores } = field s :=
    congrArg field h.rest
  have hcc : t.cc = t.core s.iss.ep := by rw [State.cc, h.ep]
  have hcf : t.cf = t.frame s.iss.ep s.iss.win := by rw [State.cf, h.ep, h.win]
  refine ⟨kept State.mem, kept State.geodes, kept State.homes, kept State.slabs, kept State.engines, kept State.nodes, kept State.census,
    kept State.graphs, kept State.insts, kept State.guest, kept State.term, kept State.fe, kept State.pkg, kept State.outbox,
    kept State.agenda, kept State.now, h.otherCores, ?_, h.otherWindows, ?_, ?_⟩
  · rw [hcc]; exact h.ownCore
  · rw [hcf]; exact h.registers
  · rw [hcf]; exact h.results

end Sys2Proof.Machine
end

section
/-! The values of the integer, bit and immediate forms (05_task_core.md R150 to R156). -/

namespace Sys2Proof.Machine
open Sys2Proof.Safety

/-! ## Comparisons (R150) -/

theorem boolWord_slt (x y : Word) : boolWord (x.slt y) = if x.toInt < y.toInt then 1 else 0 := by
  simp only [boolWord, BitVec.slt_iff_toInt_lt]
theorem boolWord_ult (x y : Word) : boolWord (x.ult y) = if x.toNat < y.toNat then 1 else 0 := by
  simp only [boolWord, BitVec.ult_iff_toNat_lt]
theorem wRes_of_slt (w : Bool) (x y a b : Word) :
    (if x.slt y then wRes w a else wRes w b) = wRes w (if x.toInt < y.toInt then a else b) := by
  rw [← apply_ite (wRes w)]
  simp only [BitVec.slt_iff_toInt_lt]
theorem wRes_of_ult (w : Bool) (x y a b : Word) :
    (if x.ult y then wRes w a else wRes w b) = wRes w (if x.toNat < y.toNat then a else b) := by
  rw [← apply_ite (wRes w)]
  simp only [BitVec.ult_iff_toNat_lt]

/-- Settles O1: each form writes the value of its row, whose comparisons are those of the numbers that the operands stand for. -/
theorem integerFormsWriteTheirResult : Obligations.IntegerFormsWriteTheirResult := by
  unfold Obligations.IntegerFormsWriteTheirResult
  intro s w b a d
  have written {v v' : Word} (h : v = v') : (.next (s.fixedX d v 1) : Out) = .next (s.fixedX d v' 1) := by rw [h]
  exact ⟨rfl, rfl, rfl, rfl, rfl, rfl, rfl, rfl, rfl, written (boolWord_slt _ _), written (boolWord_ult _ _),
    written (wRes_of_slt ..), written (wRes_of_slt ..), written (wRes_of_ult ..), written (wRes_of_ult ..)⟩

/-! ## Quotients and remainders (R151) -/

section
variable (w : Bool) (a b : Word)

theorem divS_eq : divS w a b = if (sOpd w b).toInt = 0 then BitVec.allOnes 64
    else wRes w (BitVec.ofInt 64 ((sOpd w a).toInt.tdiv (sOpd w b).toInt)) := by
  simp only [divS, beq_iff_eq]
  rfl
theorem divN_eq : divN w a b = if (zOpd w b).toNat = 0 then BitVec.allOnes 64
    else wRes w (BitVec.ofNat 64 ((zOpd w a).toNat / (zOpd w b).toNat)) := by
  simp only [divN, beq_iff_eq]
  rfl
theorem remS_eq : remS w a b = wRes w (if (sOpd w b).toInt = 0 then a
    else BitVec.ofInt 64 ((sOpd w a).toInt.tmod (sOpd w b).toInt)) := by
  simp only [remS, beq_iff_eq, apply_ite (wRes w)]
theorem remN_eq : remN w a b = wRes w (if (zOpd w b).toNat = 0 then a
    else BitVec.ofNat 64 ((zOpd w a).toNat % (zOpd w b).toNat)) := by
  simp only [remN, beq_iff_eq, apply_ite (wRes w)]
end

/-- Settles O2: each form writes its product, quotient or remainder, the zero divisor apart. -/
theorem multiplyAndDivideResults : Obligations.MultiplyAndDivideResults := by
  unfold Obligations.MultiplyAndDivideResults
  intro s w b a d lat
  have written {v v' : Word} (h : v = v') : (.next (s.fixedX d v lat) : Out) = .next (s.fixedX d v' lat) := by rw [h]
  exact ⟨rfl, rfl, rfl, written (divS_eq ..), written (divN_eq ..), written (remS_eq ..), written (remN_eq ..)⟩

/-! ## Bit counts (R152) -/

/-- `bitLen` is the library's size of a number in bits. -/
theorem bitLen_eq_size (n : Nat) : bitLen n = n.size := by
  by_cases h : n = 0
  · rw [h]; rfl
  · refine eq_of_forall_ge_iff fun k => ?_
    rw [bitLen, if_neg (mt eq_of_beq h), Nat.succ_le_iff, Nat.log2_lt h, Nat.size_le]
theorem clzN_le (n v : Nat) : clzN n v ≤ n := Nat.sub_le n _
/-- Below its leading zeros a number of `n` bits fits, and no smaller width holds it. -/
theorem sub_clzN (n v : Nat) : n - clzN n v = (v % 2 ^ n).size := by
  have fits : (v % 2 ^ n).size ≤ n := Nat.size_le.2 (Nat.mod_lt _ (Nat.two_pow_pos n))
  rw [clzN, bitLen_eq_size]
  omega
theorem mod_lt_of_clzN (n v : Nat) : v % 2 ^ n < 2 ^ (n - clzN n v) := by
  rw [sub_clzN]
  exact Nat.lt_size_self _
theorem le_mod_of_clzN {n v : Nat} (h : clzN n v < n) : 2 ^ (n - clzN n v - 1) ≤ v % 2 ^ n := by
  refine Nat.lt_size.1 ?_
  rw [← sub_clzN]
  omega

theorem ctzN_le (n v : Nat) : ctzN n v ≤ n := by
  induction n generalizing v with
  | zero => exact Nat.le_refl 0
  | succ n ih =>
    rw [ctzN]
    split
    · exact Nat.zero_le _
    · have := ih (v / 2)
      omega
theorem testBit_of_lt_ctzN {n v k : Nat} (h : k < ctzN n v) : v.testBit k = false := by
  induction n generalizing v k with
  | zero => exact absurd h (Nat.not_lt_zero k)
  | succ n ih =>
    rw [ctzN] at h
    split at h
    · exact absurd h (Nat.not_lt_zero k)
    case isFalse hv =>
      cases k with
      | zero => simpa using hv
      | succ k =>
        rw [Nat.testBit_succ]
        exact ih (by omega)
theorem testBit_ctzN {n v : Nat} (h : ctzN n v < n) : v.testBit (ctzN n v) = true := by
  induction n generalizing v with
  | zero => exact absurd h (Nat.not_lt_zero _)
  | succ n ih =>
    rw [ctzN] at h ⊢
    split at h
    case isTrue hv =>
      rw [if_pos hv]
      simpa using hv
    case isFalse hv =>
      rw [if_neg hv, Nat.add_comm, Nat.testBit_succ]
      exact ih (by omega)
theorem popN_eq_countP (n v : Nat) : popN n v = (List.range n).countP (fun k => v.testBit k) := by
  induction n generalizing v with
  | zero => rfl
  | succ n ih =>
    have low : v % 2 = if v.testBit 0 = true then 1 else 0 := by
      rw [Nat.testBit_zero]
      split <;> simp_all
    have high : (fun k => v.testBit k) ∘ Nat.succ = fun k => (v / 2).testBit k := funext fun k => Nat.testBit_succ v k
    rw [popN, ih, List.range_succ_eq_map, List.countP_cons, List.countP_map, high, Nat.add_comm, low]

theorem execPopc_eq (w : Bool) (a d : Reg) (s : State) : execPopc w a d s =
    .next (s.fixedX d (BitVec.ofNat 64 ((List.range (width w)).countP (fun k => (s.xr a).getLsbD k))) 1) := by
  rw [execPopc, popN_eq_countP]
  rfl
theorem execCsel_eq (c b a d : Reg) (s : State) : execCsel c b a d s = .next (s.fixedX d (if s.xr c ≠ 0 then s.xr a else s.xr b) 1) := by
  rw [execCsel]
  simp only [bne_iff_ne]

/-- Settles O3: the counts are those that their recursions make, and the other forms write their value as it stands. -/
theorem bitOperationsAndSelect : Obligations.BitOperationsAndSelect := by
  unfold Obligations.BitOperationsAndSelect
  intro s w c b a d
  refine ⟨⟨clzN (width w) (s.xr a).toNat, rfl, clzN_le .., mod_lt_of_clzN .., le_mod_of_clzN⟩,
    ⟨ctzN (width w) (s.xr a).toNat, rfl, ctzN_le .., fun k => testBit_of_lt_ctzN, testBit_ctzN⟩, execPopc_eq w a d s, rfl, fun _ => rfl,
    fun _ => rfl, execCsel_eq c b a d s⟩

/-! ## Conditional select (R153) -/

theorem fF4_eq (w : Half) : fF4 w = w.extractLsb' 28 4 := by
  ext i hi
  simp only [fF4, f9, BitVec.getElem_extractLsb', BitVec.getLsbD_extractLsb', ← Nat.add_assoc]
  simp [show 5 + i < 9 by omega]
theorem fFx_eq (w : Half) : fFx w = w.extractLsb' 23 5 := by
  ext i hi
  simp only [fFx, f9, BitVec.getElem_extractLsb', BitVec.getLsbD_extractLsb', ← Nat.add_assoc]
  simp [show i < 9 by omega]

section
variable {w : Half} (low : w.extractLsb' 0 2 = 0) (major : w.extractLsb' 2 6 = 0x04#6)
include low major

theorem rawA_csel : rawA w = decCsel w := by
  have hm : fMaj w = 0x04#6 := major
  simp [rawA, mbz, low, hm]
theorem decodeA_csel (h : w.extractLsb' 28 4 = 0) : decodeA w = .ok (.csel (fFx w) (fRs2 w) (fRs1 w) (fRd w)) := by
  rw [decodeA, rawA_csel low major, decCsel, fF4_eq, h]
  rfl
theorem decodeA_csel_reserved (h : w.extractLsb' 28 4 ≠ 0) : decodeA w = .error .reserved := by
  have hn : (w.extractLsb' 28 4).toNat ≠ 0 := fun e => h (BitVec.eq_of_toNat_eq e)
  have reserved : decCsel w = .error .reserved := by
    rw [decCsel, fF4_eq]
    split
    · contradiction
    · rfl
  rw [decodeA, rawA_csel low major, reserved]
  rfl
end

/-- A result of fixed latency for an x register enters no stream. -/
theorem State.fixedX_of_ne {s : State} {d : Reg} {v : Word} {lat : Nat} (h : d ≠ 0) : s.fixedX d v lat =
    { s.modCf (fun f => { f with outs := f.outs ++
      [Result.mk s.uid s.iss.order (dstX d) (some (s.now + lat)) (.word v) 0 [] 0 false false 0] }) with uid := s.uid + 1 } := by
  have noStream : s.cf.sidOf (dstX d) = 0 := by
    rw [dstX, if_neg (mt eq_of_beq h)]
    rfl
  rw [State.fixedX, if_neg (mt eq_of_beq h), State.fixed, State.addResult, noStream]

/-- Settles O52: funct4 decides whether the word is read, and the one result that CSEL adds holds the value selected. -/
theorem cselSelects : Obligations.CselSelects := by
  unfold Obligations.CselSelects
  refine ⟨fun w low major => ⟨fun h => ?read, fun h => ⟨⟨_, decodeA_csel_reserved low major h⟩, fun s hs => ?refused⟩⟩,
    fun s c b a d hw => ⟨fun hd => ?zero, fun hd => ?added, fun hd u => ?written⟩⟩
  case read => rw [decodeA_csel low major h, fFx_eq]; rfl
  case refused =>
    subst hs
    exact State.slotA_error (decodeA_csel_reserved low major h)
  case zero => rw [hd]; exact execCsel_eq c b a 0 s
  case added => exact (execCsel_eq c b a d s).trans (congrArg _ (State.fixedX_of_ne hd))
  case written =>
    obtain ⟨-, files⟩ := State.writeBack_x (s := u) (ep := s.iss.ep) (fl := 0) (poison := false)
      (v := if s.xr c ≠ 0 then s.xr a else s.xr b)
      (r := Result.mk s.uid s.iss.order (dstX d) (some (s.now + 1)) (.word (if s.xr c ≠ 0 then s.xr a else s.xr b)) 0 [] 0 false false 0)
      hw rfl rfl
    exact (files.getX d).trans (Frame.getX_putX_self.trans (if_neg hd))

/-! ## Immediates, literals and shift amounts (R154 to R156, R35) -/

/-- A shift amount is taken modulo the width, which leaves a well-formed one as it is. -/
theorem shamt_of_shiftOk {w : Bool} {imm : BitVec 9} (h : shiftOk w imm = true) : shamt w (imm.setWidth 64) = imm.toNat := by
  have whole : (imm.setWidth 64).toNat = imm.toNat := BitVec.toNat_setWidth_of_le (by decide)
  rw [shamt, whole]
  cases w <;> exact Nat.mod_eq_of_lt (of_decide_eq_true h)
theorem State.imm_eq (s : State) (short : Word) : s.imm short = if s.iss.lone then s.iss.w1.signExtend 64 else short := by
  rw [State.imm, sext, BitVec.setWidth_setWidth_of_le _ (by decide), BitVec.setWidth_eq]
theorem append_setWidth (h : Half) (x : Word) : h ++ x.setWidth 32 = BitVec.ofNat 64 (h.toNat * 2 ^ 32 + x.toNat % 2 ^ 32) := by
  refine BitVec.eq_of_toNat_eq ?_
  rw [BitVec.toNat_append, BitVec.toNat_setWidth, BitVec.toNat_ofNat, Nat.shiftLeft_eq, Nat.mul_comm, ← Nat.two_pow_add_eq_or_of_lt]
  all_goals omega

/-- Settles O4: each form writes its value once its immediate is the field or the literal, and its shift amount the field. -/
theorem immediateFormsResults : Obligations.ImmediateFormsResults := by
  unfold Obligations.ImmediateFormsResults
  intro s w imm a d i18 i19 lit v
  have next {v v' : Word} (h : v = v') : (.next (s.fixedX d v 1) : Out) = .next (s.fixedX d v' 1) := by rw [h]
  have written (short : Word) (g : Word → Word) : (.next (s.fixedX d (g (s.imm short)) 1) : Out) =
      .next (s.fixedX d (g (if s.iss.lone then lit else short)) 1) := next (congrArg g (s.imm_eq short))
  have shifted (h : shiftOk w imm = true) (g : Nat → Word) : (.next (s.fixedX d (g (shamt w (imm.setWidth 64))) 1) : Out) =
      .next (s.fixedX d (g imm.toNat) 1) := next (congrArg g (shamt_of_shiftOk h))
  have less : exec (.slti imm a d) s = .next (s.fixedX d (if (s.xr a).toInt < v.toInt then 1 else 0) 1) :=
    (written (imm.signExtend 64) fun y => boolWord ((s.xr a).slt y)).trans (next (boolWord_slt _ _))
  exact ⟨written _ fun y => wRes w (s.xr a + y), written _ fun y => s.xr a &&& y, written _ fun y => s.xr a ||| y,
    written _ fun y => s.xr a ^^^ y, less, fun h => shifted h fun n => wRes w (s.xr a <<< n),
    fun h => shifted h fun n => wRes w (zOpd w (s.xr a) >>> n), fun h => shifted h fun n => wRes w ((sOpd w (s.xr a)).sshiftRight n),
    written _ fun y => y, next (append_setWidth _ _), written _ fun y => s.iss.pc + y⟩

end Sys2Proof.Machine
end

section
/-! Control transfer (05_task_core.md R157, R158). -/

namespace Sys2Proof.Machine
open Sys2Proof.Safety

section
variable {s : State} {imm : BitVec 14}

theorem State.branch_of_iff {taken : Bool} {p : Prop} [Decidable p] (h : taken = true ↔ p) : s.branch imm taken =
    if p then s.modCf (fun f => { f with pc := s.iss.pc + 8 * (if s.iss.lone then s.iss.w1.signExtend 64 else imm.signExtend 64) }) else s := by
  simp only [State.branch, h, State.jump, State.target, State.imm_eq]
end

/-- The target of JALR is a bundle's address when its low three bits are zero (R158, R32). -/
theorem misaligned_iff (t : Word) : (t.setWidth 3 != (0 : BitVec 3)) = true ↔ t.toNat % 8 ≠ 0 := by
  rw [bne_iff_ne, ne_eq, ← BitVec.toNat_inj, BitVec.toNat_setWidth]
  rfl

section
variable {s : State} {imm : BitVec 9} {a d : Reg}

theorem execJalr_aligned (h : (s.xr a + 8 * imm.signExtend 64).toNat % 8 = 0) :
    execJalr imm a d s = .next ((s.fixedX d (s.iss.pc + 8) 1).jump (s.xr a + 8 * imm.signExtend 64)) :=
  congrArg _ (if_neg fun hm => (misaligned_iff _).1 hm h)
theorem execJalr_misaligned (h : (s.xr a + 8 * imm.signExtend 64).toNat % 8 ≠ 0) :
    execJalr imm a d s = .next (s.raise 0 (s.xr a + 8 * imm.signExtend 64)) :=
  congrArg _ (if_pos ((misaligned_iff _).2 h))
end
theorem execJal_eq (imm : BitVec 19) (d : Reg) (s : State) : execJal imm d s = .next ((s.fixedX d (s.iss.pc + 8) 1).modCf (fun f =>
    { f with pc := s.iss.pc + 8 * (if s.iss.lone then s.iss.w1.signExtend 64 else imm.signExtend 64) })) := by
  rw [execJal, State.target, State.imm_eq, State.jump]

/-- Settles O5: a branch moves the pc where its condition holds, and a jump moves it once the link register's result is added. -/
theorem branchesAndJumps : Obligations.BranchesAndJumps := by
  unfold Obligations.BranchesAndJumps
  intro s imm j k b a d lit goTo bt t
  have branched {taken : Bool} {p : Prop} [Decidable p] (h : taken = true ↔ p) : (.next (s.branch imm taken) : Out) = .next (if p then bt else s) :=
    congrArg _ (State.branch_of_iff h)
  refine ⟨branched beq_iff_eq, branched bne_iff_ne, branched BitVec.slt_iff_toInt_lt, branched ?_, branched BitVec.ult_iff_toNat_lt, branched ?_,
    execJal_eq j d s, execJalr_aligned, execJalr_misaligned⟩
  · rw [Bool.not_eq_true', Bool.eq_false_iff, ne_eq, BitVec.slt_iff_toInt_lt, Int.not_lt]
  · rw [Bool.not_eq_true', Bool.eq_false_iff, ne_eq, BitVec.ult_iff_toNat_lt, Nat.not_lt]

end Sys2Proof.Machine
end

section
/-! Loads, stores, prefetches and atomics at issue, and atomics at their port (05_task_core.md R160 to R169; 04_memory.md R119, R120). -/

namespace Sys2Proof.Machine
open Sys2Proof.Safety

/-! ## Room and checks that pass (R46, R120, R172) -/

section
variable {s : State}

theorem State.withRoom_go {results entries : Nat} {go : State → State} (h : hasRoom s results entries) :
    s.withRoom results entries go = go s := by
  rw [State.withRoom, h]
theorem State.withCheck_passes {h : HReg} {off : Word} {n e : Nat} {k : AccKind} {fadd : Bool} {t : Target} {go : State → Target → State}
    (hp : passes s h off n e k fadd t) : s.withCheck h off n e k fadd go = go (s.noteCheck t.walk) t := by
  rw [State.withCheck, hp]
/-- The offset of a CM access, its immediate or literal read out (R160). -/
theorem State.cmOff_eq (imm : BitVec 9) (a : Reg) :
    s.cmOff imm a = s.xr a + (if s.iss.lone then s.iss.w1.signExtend 64 else imm.signExtend 64) := by
  rw [State.cmOff, State.imm_eq]

/-- A pair whose target is not GLOBAL is checked once (R161). -/
theorem State.pair_once {h : HReg} {off : Word} {e : Nat} {k : AccKind} {t : Target} {go : State → Target → Target → State}
    (hp : passes s h off (2 * e) e k false t) (hs : t.space ≠ 2) :
    s.pair h off e k go = go (s.noteCheck t.walk) t { t with addr := t.addr + e } := by
  rw [State.pair, State.withCheck_passes hp]
  exact if_neg (mt eq_of_beq hs)
/-- The second element of a GLOBAL pair is checked by itself (R161). -/
theorem State.pair_global {h : HReg} {off : Word} {e : Nat} {k : AccKind} {t : Target} {go : State → Target → Target → State}
    (hp : passes s h off (2 * e) e k false t) (hs : t.space = 2) : s.pair h off e k go =
      (s.noteCheck t.walk).withCheck h (off + BitVec.ofNat 64 e) e e k false (fun u t2 => go u t t2) := by
  rw [State.pair, State.withCheck_passes hp]
  exact if_pos (beq_iff_eq.2 hs)
end

/-- The destination of a result that counts although it is for x0 (log entry 51). -/
theorem ite_beq_zero {α : Type} (d : Reg) (x y : α) : (if d == 0 then x else y) = if d = 0 then x else y := by
  simp only [beq_iff_eq]

section
variable {s : State} {h : HReg} {off : Word} {e : Nat} {d : Reg} {t : Target}

theorem State.load1_issues {signed : Bool} (hr : hasRoom s 1 1) (hp : passes s h off e e .load false t) : s.load1 signed h off e d =
    (owes (s.noteCheck t.walk) (if d = 0 then .none else .x d signed e)).access t 0 (some (s.noteCheck t.walk).uid) 0 (.load e) .rlx := by
  rw [State.load1, State.withRoom_go hr, State.withCheck_passes hp, ← ite_beq_zero]
  rfl
theorem State.atomic_issues {dd fadd whole : Bool} {a : Reg} {ord : MemOrd} {op : Nat → AccOp} (hr : hasRoom s 1 1)
    (hp : passes s h (s.xr a) (if dd then 8 else 4) (if dd then 8 else 4) .atomic fadd t) : s.atomic dd h a d ord fadd whole op =
    (owes (s.noteCheck t.walk) (if d = 0 then .none else .x d true (if whole then 8 else if dd then 8 else 4))).access t 0
      (some (s.noteCheck t.walk).uid) 0 (op (if dd then 8 else 4)) ord := by
  rw [State.atomic, State.withRoom_go hr, State.withCheck_passes hp, ← ite_beq_zero]
  rfl
end

/-- The accesses that an LDP issues once both of its elements have their targets (R161, R162). -/
def State.loadPair (s : State) (t t' : Target) (e : Nat) (d : Reg) : State :=
  let w := owes (owes s (if d = 0 then .none else .x d false e)) (.x (d + 1) false e)
  (w.accessG t 0 (some s.uid) 0 (.load e) .rlx w.uid true).accessG t' 0 (some (s.uid + 1)) e (.load e) .rlx w.uid false
/-- The accesses that an STP issues of its two elements (R161, R162). -/
def State.storePair (s : State) (t t' : Target) (e : Nat) (first second : List Byte) : State :=
  (s.accessG t 0 none 0 (.store first) .rlx s.uid true).accessG t' 0 none e (.store second) .rlx s.uid false

section
variable (imm : BitVec 9) (h : HReg) (sz : BitVec 2) (a d : Reg) (s : State)

/-- The second element that an STP stores: zeros for rd = x0 (log entry 60). -/
def State.secondOf (s : State) (d : Reg) : Nat := if d = 0 then 0 else (s.xr (d + 1)).toNat

theorem execSt_issues {t : Target} (hr : hasRoom s 0 1) (hp : passes s h (s.cmOff imm a) (2 ^ sz.toNat) (2 ^ sz.toNat) .store false t) :
    execSt imm h sz a d s =
      .next ((s.noteCheck t.walk).access t 0 none 0 (.store (toBytes (2 ^ sz.toNat) (s.xr d).toNat)) .rlx) := by
  rw [execSt, State.withRoom_go hr, sizeBytes, State.withCheck_passes hp]
theorem execLdp_eq (hr : hasRoom s 2 1) : execLdp imm h sz a d s =
    .next (s.pair h (s.cmOff imm a) (2 ^ sz.toNat) .load (fun u t t' => u.loadPair t t' (2 ^ sz.toNat) d)) := by
  simp only [execLdp, State.withRoom_go hr, ite_beq_zero]
  rfl
theorem execStp_eq (hr : hasRoom s 0 1) : execStp imm h sz a d s =
    .next (s.pair h (s.cmOff imm a) (2 ^ sz.toNat) .store (fun u t t' =>
      if t.space = 1 then u.access t 0 none (2 ^ sz.toNat)
        (.store (toBytes (2 ^ sz.toNat) (s.xr d).toNat ++ toBytes (2 ^ sz.toNat) (s.secondOf d))) .rlx
      else u.storePair t t' (2 ^ sz.toNat) (toBytes (2 ^ sz.toNat) (s.xr d).toNat) (toBytes (2 ^ sz.toNat) (s.secondOf d)))) := by
  simp only [execStp, State.withRoom_go hr, beq_iff_eq]
  rfl
end

/-- Settles O6: with room and past the checks nothing is left of an issue but its results owed and its accesses. -/
theorem loadsAndStoresIssue : Obligations.LoadsAndStoresIssue := by
  unfold Obligations.LoadsAndStoresIssue
  intro s imm h sz a d t t2 off e u one two second both put
  have hoff : s.cmOff imm a = off := State.cmOff_eq imm a
  have ldp (hr : hasRoom s 2 1) : exec (.ldp imm h sz a d) s = .next (s.pair h off e .load (fun u t t' => u.loadPair t t' e d)) := by
    rw [← hoff]; exact execLdp_eq imm h sz a d s hr
  have stp (hr : hasRoom s 0 1) : exec (.stp imm h sz a d) s = .next (s.pair h off e .store (fun u t t' =>
      if t.space = 1 then u.access t 0 none e (.store (toBytes e (s.xr d).toNat ++ toBytes e second)) .rlx
      else u.storePair t t' e (toBytes e (s.xr d).toNat) (toBytes e second))) := by
    rw [← hoff]; exact execStp_eq imm h sz a d s hr
  refine ⟨fun hr hp => ?load, fun hr hp => ?store, fun hr hp hs => ?ldp, fun hr hp hs hp2 => ?ldpGlobal, fun hr hp hs => ?stp,
    fun hr hp hs hp2 => ?stpGlobal⟩
  case load =>
    rw [← hoff] at hp
    exact ⟨congrArg _ (State.load1_issues hr hp), congrArg _ (State.load1_issues hr hp)⟩
  case store =>
    rw [← hoff] at hp
    exact execSt_issues imm h sz a d s hr hp
  case ldp => rw [ldp hr, State.pair_once hp hs]; rfl
  case ldpGlobal => rw [ldp hr, State.pair_global hp hs, State.withCheck_passes hp2]; rfl
  case stp => rw [stp hr, State.pair_once hp hs]; rfl
  case stpGlobal =>
    have pairOfStores : ¬ t.space = 1 := by rw [hs]; decide
    rw [stp hr, State.pair_global hp hs, State.withCheck_passes hp2, if_neg pairOfStores]
    rfl

/-! ## Prefetch (R163, R400) -/

section
variable {s : State} {imm : BitVec 9} {h : HReg} {a : Reg}

theorem execPf_fault {c : Nat} {v : Word} (hc : s.check s.det h (s.cmOff imm a) 1 1 .load false false [2] = .fault c v) :
    execPf imm h a s = .next s := by
  rw [execPf, hc]
theorem execPf_ok {t : Target} (hc : s.check s.det h (s.cmOff imm a) 1 1 .load false false [2] = .ok t) (hr : hasRoom s 0 1) :
    execPf imm h a s = .next ((s.noteCheck t.walk).access t 0 none 0 .pf .rlx) := by
  rw [execPf, hc]
  exact congrArg _ (State.withRoom_go hr)
end

/-- A line that the cache neither holds, waits for nor writes back is asked of its home. -/
theorem State.cacheAccess_absent {s : State} {p : Access} {na pin : Bool} (hl : (s.core p.core).dcache.lines.find (lineOf p.addr) = none)
    (hp : (s.core p.core).dcache.pend.any (fun q => lineOf q.1.addr == lineOf p.addr) = false)
    (hb : (s.core p.core).dcache.wbuf.find (lineOf p.addr) = none) : s.cacheAccess p na pin =
      (s.modCore p.core (fun c => { c with dcache := { c.dcache with
        pend := c.dcache.pend ++ [(p, lineOf p.addr, na, pin)] } })).askFor p (lineOf p.addr) na pin := by
  simp only [State.cacheAccess, hl, hp, hb, Option.isSome_none, Bool.false_eq_true, if_false]

/-- Settles O7: PF is decided by its check alone, and a prefetch asks for its line as a reader. -/
theorem prefetchCompletes : Obligations.PrefetchCompletes := by
  unfold Obligations.PrefetchCompletes
  intro s imm h a off chk
  have hchk : s.check s.det h (s.cmOff imm a) 1 1 .load false false [2] = chk := by rw [State.cmOff_eq]
  refine ⟨fun ⟨c, v, hf⟩ => execPf_fault (hchk.trans hf), fun t ht hr => execPf_ok (hchk.trans ht) hr, fun p na pin hop hl hp hb => ?_⟩
  have reader : p.op.stores = false := by rw [hop]; rfl
  rw [State.cacheAccess_absent hl hp hb, State.askFor, reader]
  rfl

/-! ## What an atomic does to its word (R167 to R169) -/

section
variable (n w y : Nat)

theorem amoNew_minn : amoNew .minn n w y = min w y := by
  rw [amoNew, Nat.min_comm]
  split <;> omega
theorem amoNew_maxn : amoNew .maxn n w y = max w y := by
  rw [amoNew]
  split <;> omega
end

/-- A field that reaches the top of a word is a quotient. -/
theorem fld_high (v : Word) : fld v 32 32 = v.toNat / 2 ^ 32 := by
  rw [fld, Nat.shiftRight_eq_div_pow, Nat.mod_eq_of_lt]
  have := v.isLt
  omega

/-- The chunk of an AMOG: none from the limit on, else the larger of the minimum and the share of what is left (R169). -/
theorem amogChunk_eq (b : Word) (w : Nat) : amogChunk b w =
    (if b.toNat / 2 ^ 32 ≤ w % 2 ^ 32 then 0
      else min (b.toNat / 2 ^ 32 - w % 2 ^ 32) (max (max 1 (b.toNat % 2 ^ 16))
        ((b.toNat / 2 ^ 32 - w % 2 ^ 32 + max 1 (b.toNat / 2 ^ 16 % 2 ^ 16) - 1) / max 1 (b.toNat / 2 ^ 16 % 2 ^ 16))), w % 2 ^ 32) := by
  have mid : fld b 16 16 = b.toNat / 2 ^ 16 % 2 ^ 16 := by rw [fld, Nat.shiftRight_eq_div_pow]
  have low : fld b 0 16 = b.toNat % 2 ^ 16 := by rw [fld, Nat.shiftRight_zero]
  simp only [amogChunk, fld_high, mid, low]
  split <;> rfl

/-- Settles O8: an atomic issues one access, whose effect on its word is the row of its operation. -/
theorem atomicsIssueAndActInOneStep : Obligations.AtomicsIssueAndActInOneStep := by
  unfold Obligations.AtomicsIssueAndActInOneStep
  refine ⟨fun s dd op ord h b a d t => ⟨fun hr hp => ?amo, fun hr hp => ⟨?cas, ?amog⟩⟩, fun n cur b e v => ?words, fun n cur b => ?chunk⟩
  case amo => exact congrArg _ (State.atomic_issues hr hp)
  case cas => exact congrArg _ (State.atomic_issues hr hp)
  case amog => exact congrArg _ (State.atomic_issues hr hp)
  case words =>
    refine ⟨rfl, rfl, rfl, rfl, rfl, ?_, ?_, rfl, rfl, ?_⟩
    · rw [AccOp.apply, amoNew_minn]
    · rw [AccOp.apply, amoNew_maxn]
    · simp only [AccOp.apply, beq_iff_eq]
  case chunk =>
    simp only [AccOp.apply, amogChunk_eq, amogNew, beq_iff_eq]

end Sys2Proof.Machine
end

section
/-! Which bytes of memory an access changes, at the issuing core and at an LM port (05_task_core.md R161 to R169; 07_message_unit.md R236). -/

namespace Sys2Proof.Machine
open Sys2Proof.Safety

/-! ## The bytes that an operation stores -/

theorem toBytes_length (n v : Nat) : (toBytes n v).length = n := by
  induction n generalizing v with
  | zero => rfl
  | succ n ih => exact congrArg Nat.succ (ih _)

/-- What an operation stores fills its location. -/
theorem AccOp.apply_length {op : AccOp} {cur b : List Byte} (h : (op.apply cur).1 = some b) : b.length = op.size := by
  cases op with
  | load | cmo | pf => cases h
  | store l => cases h; rfl
  | amo o n v => cases h; exact toBytes_length _ _
  | cas n e v =>
    rw [AccOp.apply] at h
    split at h
    · cases h; exact toBytes_length _ _
    · cases h
  | amog n v =>
    rw [AccOp.apply] at h
    dsimp only at h
    split at h
    · cases h
    · cases h; exact toBytes_length _ _

/-! ## What an access does to memory -/

/-- Memory is as it was, or, where `here` holds, an operation has stored its bytes from a place on. -/
def StoresAtMost (here : Prop) (key : Nat) (op : AccOp) (s t : State) : Prop :=
  t.mem = s.mem ∨ here ∧ ∃ cur b, (op.apply cur).1 = some b ∧ t.mem = memWrite s.mem key b

@[simp] theorem State.markLeft_mem (s : State) (ep id : Nat) : (s.markLeft ep id).mem = s.mem := rfl
@[simp] theorem State.noteCheck_mem (s : State) (w : Option Walk) : (s.noteCheck w).mem = s.mem := by cases w <;> rfl

section
variable (s : State)

theorem State.lmPerform_stores (ep off : Nat) (op : AccOp) : StoresAtMost True (lmKey ep off) op s (s.lmPerform ep off op).1 := by
  rw [StoresAtMost, State.lmPerform_mem]
  split
  · exact .inl rfl
  · split
    · exact .inl rfl
    case h_2 b hb => exact .inr ⟨trivial, _, b, hb, rfl⟩
/-- An access that leaves stores, if anything, at the LM of its own core; every other space is another agent's or the cache's. -/
theorem State.dispatch_stores (a : Access) : StoresAtMost (a.space = 0) (lmKey a.owner a.addr) a.op s (s.dispatch a) := by
  unfold State.dispatch
  dsimp only
  split
  · exact .inl (foldl_keeps State.mem _ (by intros; rfl) _ _)
  · split
    case h_1 hs =>
      have hl : a.space = 0 := BitVec.eq_of_toNat_eq hs
      simpa [StoresAtMost, hl] using s.lmPerform_stores a.owner a.addr a.op
    · exact .inl (State.cacheAccess_mem ..)
    · exact .inl rfl
    · exact .inl rfl
theorem State.enqueue_stores (ep id fid win grp : Nat) (a : Access) (ord : MemOrd) (left seqd : Bool) :
    StoresAtMost (a.space = 0) (lmKey a.owner a.addr) a.op s (s.enqueue ep (QEnt.mk id fid win (.access a ord) left grp seqd)) := by
  unfold State.enqueue
  dsimp only
  split
  · exact State.dispatch_stores _ a
  · exact .inl rfl
/-- An access at issue: what it stores at once goes to the LM of its own core. -/
theorem State.accessG_stores (t : Target) (off : Nat) (res : Option Nat) (part : Nat) (op : AccOp) (ord : MemOrd) (grp : Nat) (seqd : Bool) :
    StoresAtMost (t.space = 0) (lmKey t.owner (t.addr + off)) op s (s.accessG t off res part op ord grp seqd) :=
  State.enqueue_stores { s with uid := s.uid + 1 } _ _ _ _ _ _ _ _ _
end

/-! ## Loads keep memory, and the rest keep all but their bytes -/

section
variable {here : Prop} {key : Nat} {op : AccOp} {s t u : State}

theorem StoresAtMost.mem_eq (h : StoresAtMost here key op s t) (hn : ∀ cur, (op.apply cur).1 = none) : t.mem = s.mem := by
  obtain hm | ⟨-, cur, b, hb, -⟩ := h
  · exact hm
  · rw [hn cur] at hb; cases hb

/-- From `s` to `t` memory keeps its form and every byte outside `P` its value. -/
def ChangesOnly (P : Nat → Prop) (s t : State) : Prop := memOk s → memOk t ∧ ∀ k, ¬ P k → memGet t.mem k = memGet s.mem k

theorem ChangesOnly.of_mem_eq {P : Nat → Prop} (h : t.mem = s.mem) : ChangesOnly P s t := by
  rw [ChangesOnly, memOk, memOk, h]
  exact fun hs => ⟨hs, fun _ _ => rfl⟩
theorem ChangesOnly.trans {P : Nat → Prop} (h : ChangesOnly P s t) (h' : ChangesOnly P t u) : ChangesOnly P s u := fun hs =>
  have ⟨ht, hst⟩ := h hs
  have ⟨hu, htu⟩ := h' ht
  ⟨hu, fun k hk => (htu k hk).trans (hst k hk)⟩
theorem StoresAtMost.changesOnly {P : Nat → Prop} (h : StoresAtMost here key op s t)
    (hP : here → ∀ k, key ≤ k → k < key + op.size → P k) : ChangesOnly P s t := by
  obtain hm | ⟨hh, cur, b, hb, hm⟩ := h
  · exact .of_mem_eq hm
  · rw [ChangesOnly, memOk, memOk, hm]
    refine fun hs => ⟨memWrite_wf b _ _ hs, fun k hk => ?_⟩
    rw [memGet_memWrite b _ _ _ hs, if_neg]
    rw [AccOp.apply_length hb]
    exact fun hr => hk (hP hh k hr.1 hr.2)

end

/-- The places of `m` bytes from a target on, which are the core's own when the target is LOCAL. -/
def Target.covers (t : Target) (m k : Nat) : Prop := t.space = 0 ∧ lmKey t.owner t.addr ≤ k ∧ k < lmKey t.owner t.addr + m

section
variable (s : State) (t : Target) (res : Option Nat) (part : Nat) (op : AccOp) (ord : MemOrd) (grp : Nat) (seqd : Bool)

/-- An access of bytes `off` on of a target changes only bytes that the instruction covers. -/
theorem State.accessG_changesOnly {off m : Nat} (hm : off + op.size ≤ m) :
    ChangesOnly (t.covers m) s (s.accessG t off res part op ord grp seqd) := by
  refine (s.accessG_stores t off res part op ord grp seqd).changesOnly fun hs k hlo hhi => ⟨hs, ?_⟩
  unfold lmKey at *
  omega
/-- The second element of a pair that is checked once lies behind the first. -/
theorem State.accessG_changesOnly_behind {e m : Nat} (hm : e + op.size ≤ m) :
    ChangesOnly (t.covers m) s (s.accessG { t with addr := t.addr + e } 0 res part op ord grp seqd) :=
  s.accessG_changesOnly t res part op ord grp seqd hm
theorem State.accessG_notLocal {off : Nat} (h : t.space ≠ 0) : (s.accessG t off res part op ord grp seqd).mem = s.mem :=
  (s.accessG_stores t off res part op ord grp seqd).resolve_right fun h' => h h'.1
theorem State.accessG_load {off n : Nat} : (s.accessG t off res part (.load n) ord grp seqd).mem = s.mem :=
  (s.accessG_stores t off res part (.load n) ord grp seqd).mem_eq fun _ => rfl
end

/-! ## The targets of a pair (R120, R161) -/

theorem Walk.chk_space {w : Walk} {h : Handle} {st : Bool} {va : Nat} {t : Target} (hc : w.chk h st va = .ok t) : t.space = 2 := by
  unfold Walk.chk at hc
  split at hc <;> cases hc
  rfl

section
variable {s : State} {h : HReg} {off : Word} {n e : Nat} {k : AccKind} {fadd : Bool} {t t' : Target}

theorem State.destination_global_iff {hd : Handle} {va : Nat} (hc : s.destination hd va k = .ok t) :
    t.space = 2 ↔ hd.space ≠ 0 ∧ hd.space ≠ 1 ∧ hd.space ≠ 4 := by
  unfold State.destination at hc
  split at hc
  case h_1 hs => cases hc; simp [hs]
  case h_2 hs =>
    split at hc <;> cases hc <;> simp [hs]
  case h_3 hs => cases hc; simp [hs]
  case h_4 h0 h1 h4 => exact iff_of_true (Walk.chk_space hc) ⟨h0, h1, h4⟩

theorem passes_destination (hp : passes s h off n e k fadd t) :
    s.destination (s.cf.getH h) ((s.cf.getH h).base.toNat + off.toNat) k = .ok t := by
  rw [passes, State.check_eq_firstFault, Chk.firstFault] at hp
  split at hp
  · cases hp
  · exact hp
/-- A check leaves the handle registers, so the second check of a pair finds the space that the first found. -/
theorem State.noteCheck_getH (s : State) (w : Option Walk) (h : HReg) : (s.noteCheck w).cf.getH h = s.cf.getH h := by
  cases w with
  | none => rfl
  | some w =>
    simp only [State.noteCheck, State.noteWalk, State.cf, State.frame]
    rw [show ((s.modSlab (epSlab s.iss.ep) _).modCore s.iss.ep _).iss = s.iss from rfl, State.core_modCore]
    rfl
theorem passes_second_global {off' : Word} {n' e' : Nat} {w : Option Walk} (hp : passes s h off n e k fadd t) (hs : t.space = 2)
    (hp' : passes (s.noteCheck w) h off' n' e' k fadd t') : t'.space = 2 := by
  have hd := passes_destination hp'
  rw [s.noteCheck_getH w h] at hd
  exact (State.destination_global_iff hd).2 ((State.destination_global_iff (passes_destination hp)).1 hs)
end

/-! ## Each instruction of memory -/

section
variable {s : State} {h : HReg} {off : Word} {e : Nat} {d : Reg} {t : Target}

/-- Owing a result changes no byte. -/
@[simp] theorem owes_mem (s : State) (x : Dst) : (owes s x).mem = s.mem := rfl

theorem State.load1_mem {signed : Bool} (hr : hasRoom s 1 1) (hp : passes s h off e e .load false t) : (s.load1 signed h off e d).mem = s.mem := by
  rw [State.load1_issues hr hp]
  exact (State.accessG_load ..).trans (s.noteCheck_mem _)
theorem State.loadPair_mem (s : State) (t t' : Target) (e : Nat) (d : Reg) : (s.loadPair t t' e d).mem = s.mem := by
  simp only [State.loadPair, State.accessG_load, owes_mem]
theorem State.atomic_changesOnly {dd fadd whole : Bool} {a : Reg} {ord : MemOrd} {op : Nat → AccOp} (hr : hasRoom s 1 1)
    (hp : passes s h (s.xr a) (if dd then 8 else 4) (if dd then 8 else 4) .atomic fadd t) (hop : ∀ n, (op n).size = n) :
    ChangesOnly (t.covers (if dd then 8 else 4)) s (s.atomic dd h a d ord fadd whole op) := by
  rw [State.atomic_issues hr hp]
  refine .trans (.of_mem_eq ?_) (State.accessG_changesOnly _ _ _ _ _ _ _ _ ?_)
  · exact s.noteCheck_mem _
  · rw [hop, Nat.zero_add]

/-- What a GLOBAL pair does with its second element, or with the fault of its check, is no store at the core. -/
theorem State.pair_global_mem {k : AccKind} {go : State → Target → Target → State} (hp : passes s h off (2 * e) e k false t)
    (hs : t.space = 2) (hgo : ∀ (u : State) (t' : Target), t'.space = 2 → (go u t t').mem = u.mem) : (s.pair h off e k go).mem = s.mem := by
  rw [State.pair_global hp hs, State.withCheck]
  split
  · exact s.noteCheck_mem _
  case h_2 t' ht' =>
    rw [hgo _ t' (passes_second_global hp hs ht'), State.noteCheck_mem, State.noteCheck_mem]
theorem State.pair_load_mem (hp : passes s h off (2 * e) e .load false t) :
    (s.pair h off e .load (fun u t t' => u.loadPair t t' e d)).mem = s.mem := by
  by_cases hs : t.space = 2
  · exact State.pair_global_mem hp hs fun u t' _ => u.loadPair_mem t t' e d
  · rw [State.pair_once hp hs, State.loadPair_mem, State.noteCheck_mem]

theorem State.storePair_changesOnly (s : State) (t : Target) {e : Nat} {first second : List Byte} (h1 : first.length = e) (h2 : second.length = e) :
    ChangesOnly (t.covers (2 * e)) s (s.storePair t { t with addr := t.addr + e } e first second) :=
  .trans (State.accessG_changesOnly _ _ _ _ (.store first) _ _ _ (by simp only [AccOp.size]; omega))
    (State.accessG_changesOnly_behind _ _ _ _ (.store second) _ _ _ (by simp only [AccOp.size]; omega))
theorem State.storePair_global {s : State} {t t' : Target} {e : Nat} {first second : List Byte} (hs : t.space = 2) (hs' : t'.space = 2) :
    (s.storePair t t' e first second).mem = s.mem :=
  (State.accessG_notLocal _ _ _ _ _ _ _ _ (by rw [hs']; decide)).trans (State.accessG_notLocal _ _ _ _ _ _ _ _ (by rw [hs]; decide))
/-- An STP, whose pair through a REMOTE handle is one packet of both elements. -/
theorem State.pair_store_changesOnly {first second : List Byte} (hp : passes s h off (2 * e) e .store false t) (h1 : first.length = e)
    (h2 : second.length = e) : ChangesOnly (t.covers (2 * e)) s (s.pair h off e .store (fun u t t' =>
      if t.space = 1 then u.access t 0 none e (.store (first ++ second)) .rlx else u.storePair t t' e first second)) := by
  by_cases hs : t.space = 2
  · have notRemote : ¬ t.space = 1 := by rw [hs]; decide
    exact .of_mem_eq (State.pair_global_mem hp hs fun u t' hs' => by rw [if_neg notRemote, State.storePair_global hs hs'])
  · rw [State.pair_once hp hs]
    refine .trans (.of_mem_eq (s.noteCheck_mem t.walk)) ?_
    split
    · refine State.accessG_changesOnly _ _ _ _ (.store (first ++ second)) _ _ _ ?_
      rw [AccOp.size, List.length_append, h1, h2]
      omega
    · exact State.storePair_changesOnly _ t h1 h2
end

/-! ## Accesses served at an LM port (R236, R417) -/

section
variable {s : State}

theorem exec_store_of_ev {a : Access} (h : s.ev = some (.store a)) : exec .store s = execStore a s := by
  rw [show exec .store s = runStore s from rfl, runStore, h]
theorem exec_load_of_ev {a : Access} (h : s.ev = some (.load a)) : exec .load s = execLoad a s := by
  rw [show exec .load s = runLoad s from rfl, runLoad, h]

/-- A port whose trace ring is off and has room performs what arrives. -/
theorem State.arrive_off {port : Nat} {ev : Event} {hdr : State → Event → Option Hdr} {perform : Event → State → State}
    (hm : (s.ring port).mode = 0) (hl : (s.ring port).entries.length < 64) : s.arrive port ev hdr perform = perform ev s := by
  have notFull : (s.ring port).full = false := by simp [TraceRing.full, Nat.not_le.2 hl]
  have logsNone (x : Hdr) : (s.ring port).logs x = false := by simp [TraceRing.logs, hm]
  rw [State.arrive, notFull, if_neg Bool.false_ne_true, State.recorded]
  split
  · rfl
  · rw [logsNone]
    rfl

theorem memWrite_append (x y : List Byte) (m : List Host.Cell) (k : Nat) :
    memWrite m k (x ++ y) = memWrite (memWrite m k x) (k + x.length) y := by
  induction x generalizing m k with
  | nil => rfl
  | cons b x ih =>
    rw [List.cons_append, memWrite, memWrite, ih, List.length_cons, Nat.add_assoc, Nat.add_comm 1]

theorem State.lmPerform_store_mem (s : State) (ep off : Nat) (b : List Byte) :
    (s.lmPerform ep off (.store b)).1.mem = memWrite s.mem (lmKey ep off) b := s.lmPerform_mem ep off (.store b)
theorem State.lmPerform_load_mem (s : State) (ep off n : Nat) : (s.lmPerform ep off (.load n)).1.mem = s.mem := by
  rw [State.lmPerform_mem]
  exact ite_self _

theorem Access.pair?_some {a : Access} {x y b : List Byte} (h : a.pair? = some (x, y)) (hop : a.op = .store b) : x ++ y = b := by
  rw [Access.pair?, hop] at h
  dsimp only at h
  split at h
  · cases h
    exact List.take_append_drop _ _
  · cases h

variable {a : Access} (hr : (s.core a.owner).portRefuses = false)
include hr

/-- A STORE served at an LM port writes its bytes; a pair is written in two parts. -/
theorem lmServe_store_mem {b : List Byte} (hop : a.op = .store b) : (lmServe (.store a) s).mem = memWrite s.mem (lmKey a.owner a.addr) b := by
  simp only [lmServe, hr, Bool.false_eq_true, if_false]
  split
  case h_1 x y hxy =>
    rw [State.send_mem, State.lmPerform_store_mem, State.lmPerform_store_mem, ← Access.pair?_some hxy hop, memWrite_append]
    simp only [lmKey, Nat.add_assoc]
  case h_2 => rw [State.send_mem, hop, State.lmPerform_store_mem]
theorem lmServe_load_mem {n : Nat} (hop : a.op = .load n) : (lmServe (.load a) s).mem = s.mem := by
  have single : a.pair? = none := by rw [Access.pair?, hop]
  simp only [lmServe, hr, Bool.false_eq_true, if_false, single, State.send_mem]
  rw [hop, State.lmPerform_load_mem]
end

/-- Settles O56: loads keep memory, what stores is confined to the bytes that its instruction covers, and a port writes those of its packet. -/
theorem storesChangeOnlyTheirBytes : Obligations.StoresChangeOnlyTheirBytes := by
  unfold Obligations.StoresChangeOnlyTheirBytes
  intro s imm h sz a b d t wide op ord hs off e n same onlyAt
  have hoff : s.cmOff imm a = off := State.cmOff_eq imm a
  have confined {m : Nat} {u : State} (hc : ChangesOnly (t.covers m) s u) : onlyAt m (.next u) := by
    obtain ⟨hu, hk⟩ := hc hs
    refine ⟨u, rfl, hu, fun k hout => hk k fun ⟨hl, hlo, hhi⟩ => ?_⟩
    obtain hlt | hge := hout hl <;> omega
  refine ⟨fun hr hp => ?load, fun hr hp => ?ldp, fun hr hp => ?st, fun hr hp => ?stp, fun hr hp => ?amo, fun hr hp => ⟨?cas, ?amog⟩,
    fun acc bytes hm hl hf => ⟨fun hev hop => ?storePacket, fun m hev hop => ?loadPacket⟩⟩
  case load =>
    rw [← hoff] at hp
    exact ⟨⟨_, rfl, State.load1_mem hr hp⟩, ⟨_, rfl, State.load1_mem hr hp⟩⟩
  case ldp =>
    rw [← hoff] at hp
    exact ⟨_, execLdp_eq imm h sz a d s hr, State.pair_load_mem hp⟩
  case st =>
    rw [← hoff] at hp
    rw [show exec (.st imm h sz a d) s = _ from execSt_issues imm h sz a d s hr hp]
    refine confined (.trans (.of_mem_eq (s.noteCheck_mem _)) (State.accessG_changesOnly _ t _ _ _ _ _ _ ?_))
    rw [AccOp.size, toBytes_length, Nat.zero_add]
  case stp =>
    rw [← hoff] at hp
    rw [show exec (.stp imm h sz a d) s = _ from execStp_eq imm h sz a d s hr]
    exact confined (State.pair_store_changesOnly hp (toBytes_length _ _) (toBytes_length _ _))
  case amo => exact confined (State.atomic_changesOnly hr hp fun _ => rfl)
  case cas => exact confined (State.atomic_changesOnly hr hp fun _ => rfl)
  case amog => exact confined (State.atomic_changesOnly hr hp fun _ => rfl)
  case storePacket =>
    rw [exec_store_of_ev hev, execStore, State.arrive_off hm hl]
    have hmem := lmServe_store_mem hf hop
    refine ⟨_, rfl, ?_, fun k => ?_⟩
    · rw [memOk, hmem]
      exact memWrite_wf _ _ _ hs
    · rw [hmem]
      exact memGet_memWrite _ _ _ _ hs
  case loadPacket =>
    rw [exec_load_of_ev hev, execLoad, State.arrive_off hm hl]
    exact ⟨_, rfl, lmServe_load_mem hf hop⟩

end Sys2Proof.Machine
end

section
/-! Fences and CSR instructions (05_task_core.md R171, R172, R181 to R183; 02_bundles.md R65). -/

namespace Sys2Proof.Machine
open Sys2Proof.Safety

/-! ## The checks of a CSR instruction (R65, R378) -/

section
variable {s : State} {n : Nat} {reads : Bool} {go : State → State}

theorem State.csrCheck_listed (hok : csrOk s.cf.fm n = true) (hd : s.det = false) (hg : ¬(n = 0x103 ∧ isMemCore s.iss.ep = true)) :
    s.csrCheck n reads go = go s := by
  have stated : (n == 0x103 && isMemCore s.iss.ep) = false := by
    rw [Bool.eq_false_iff, ne_eq, Bool.and_eq_true, beq_iff_eq]
    exact hg
  simp only [State.csrCheck, hok, hd, stated, Bool.not_true, Bool.false_and, Bool.false_eq_true, if_false]
theorem State.csrCheck_unlisted (hok : csrOk s.cf.fm n = false) : s.csrCheck n reads go = s.raise 2 (s.iss.w0.setWidth 64) := by
  simp only [State.csrCheck, hok, Bool.not_false, if_true]
  rfl
end

/-- Settles O9: a fence is an entry of the queue, and past its checks a CSR instruction is the read with, where there is one, the write. -/
theorem fencesAndCsrAccesses : Obligations.FencesAndCsrAccesses := by
  unfold Obligations.FencesAndCsrAccesses
  refine ⟨fun s scope kind => rfl, fun s n a d => ⟨fun hok hd hg => ?listed, fun hok => ?unlisted⟩⟩
  case listed =>
    have stated : ¬(n.toNat = 0x103 ∧ isMemCore s.iss.ep = true) := fun h => hg ⟨BitVec.eq_of_toNat_eq h.1, h.2⟩
    have passed {reads : Bool} {go : State → State} : (.next (s.csrCheck n.toNat reads go) : Out) = .next (go s) :=
      congrArg _ (State.csrCheck_listed hok hd stated)
    refine ⟨passed, passed.trans ?_, passed.trans ?_⟩
    all_goals simp only [beq_iff_eq]; rfl
  case unlisted =>
    have refused {reads : Bool} {go : State → State} :
        (.next (s.csrCheck n.toNat reads go) : Out) = .next (s.raise 2 (s.iss.w0.setWidth 64)) :=
      congrArg _ (State.csrCheck_unlisted hok)
    exact ⟨refused, refused, refused⟩

end Sys2Proof.Machine
end

section
/-! Handle instructions (05_task_core.md R185 to R187). -/

namespace Sys2Proof.Machine
open Sys2Proof.Safety

theorem dstX_eq (d : Reg) : dstX d = if d = 0 then .none else .x d true 8 := ite_beq_zero d _ _

/-- The word of a handle register that HQRY names (R186). -/
def handleWord (g : Handle) (k : Nat) : Word := if k = 0 then g.base else if k = 1 then g.bound else if k = 2 then g.w2 else g.w3

/-- The request that gives a handle entry its new holder, sent to the home of the entry's line (R187). -/
def State.giveRequest (s : State) (h : HReg) (g : Handle) (holder tag : Nat) : HomeReq :=
  let pa := s.entryAddr g.asid g.index + 16
  { frameReq .wb s.iss.ep s.iss.win (pa / 128 * 128) g.asid false false with
    once := true
    mask := BitVec.ofNat 128 (0xC <<< (pa % 128))
    limit := holder
    tid := g.index * 8 + h.toNat
    tag := tag }

section
variable {s : State} {h : HReg} {a d : Reg}

theorem execHld_loads {ws : List Word} (hi : (s.xr a).toNat < s.htCount s.cf.asid) (ha : handleAnswer s.cf.answer (s.xr a).toNat = some ws)
    (hok : handleOk ws = true) (hd : s.det = false) (hr : hasRoom s 1 0) : execHld h a s =
      let u := s.modCf (fun f => { f with answer := none })
      let t := owes u (.h h)
      .next (t.later (.variableResultWriteback t.iss.ep t.iss.win s.cf.fid u.uid
        (.handle (handleFrom ws s.cf.asid (s.xr a).toNat (coreIdOf t.iss.ep))) 0 false)) := by
  simp only [execHld, ge_iff_le, Nat.not_le.2 hi, if_false, ha, hok, hd, Bool.not_true, Bool.false_and, Bool.false_eq_true,
    State.withRoom_go hr]
  rfl

/-- The two low bits of x[rs1] name the word. -/
theorem handleWord_of_fld (g : Handle) (v : Word) :
    (match fld v 0 2 with | 0 => g.base | 1 => g.bound | 2 => g.w2 | _ => g.w3) = handleWord g (v.toNat % 4) := by
  rw [show fld v 0 2 = v.toNat % 4 from rfl, handleWord]
  split <;> simp_all
theorem execHqry_answers (hr : hasRoom s 1 0) : execHqry h a d s =
    let t := owes s (if d = 0 then .none else .x d true 8)
    .next (t.later (.variableResultWriteback t.iss.ep t.iss.win t.cf.fid s.uid (.word (handleWord (s.cf.getH h) ((s.xr a).toNat % 4))) 0 false)) := by
  rw [execHqry, State.withRoom_go hr, dstX_eq, ← handleWord_of_fld]
  rfl

/-- A number below 4096 is a core id and nothing else. -/
theorem coreId_fields {v : Word} (h : v.toNat < 4096) : zeroField v 12 52 = true ∧ fld v 0 12 = v.toNat := by
  refine ⟨beq_iff_eq.2 ?_, Nat.mod_eq_of_lt h⟩
  rw [fld, Nat.shiftRight_eq_div_pow, Nat.div_eq_of_lt h, Nat.zero_mod]
theorem execHgive_gives (hv : (s.cf.getH h).valid = true) (hsw : bitOf (s.cf.getH h).w3 4 = true) (hc : (s.cf.getH h).cap = true)
    (ht : (s.xr a).toNat < 4096) (hen : s.disabled (s.xr a).toNat = false) (hr : hasRoom s 1 1) : execHgive h a d s =
      let w := owes (s.dropCaps s.iss.ep (s.cf.getH h).asid (s.cf.getH h).index) (if d = 0 then .none else .x d true 8)
      let q := w.giveRequest h (s.cf.getH h) (s.xr a).toNat (s.uid + 1)
      .next (w.releaseThen .module [(0, w.iss.ep, q.home, .wb q)]) := by
  obtain ⟨high, low⟩ := coreId_fields ht
  simp only [execHgive, hv, hsw, hc, high, low, hen, Bool.not_true, Bool.or_false, Bool.false_eq_true, if_false, State.withRoom_go hr, dstX_eq]
  rfl
end

/-- Settles O10: each instruction, its conditions met, is the result it owes and what it begins. -/
theorem handleInstructionsComplete : Obligations.HandleInstructionsComplete := by
  unfold Obligations.HandleInstructionsComplete
  intro s h a d ws
  exact ⟨execHld_loads, execHqry_answers, execHgive_gives⟩

end Sys2Proof.Machine
end

section
/-! Scalar floating point: rounding forms, comparisons, moves and conversions (05_task_core.md R174 to R180; 02_bundles.md R55). -/

namespace Sys2Proof.Machine
open Sys2Proof.Safety

/-! ## Rounding modes (R55, R90) -/

section
variable {s : State} {r m : BitVec 3} {go : BitVec 3 → State}

theorem State.withMode_legal (h : s.mode r = some m) : s.withMode r go = go m := by rw [State.withMode, h]
theorem State.withMode_illegal (h : s.mode r = none) : s.withMode r go = s.raise 2 (0x100000000 ||| s.iss.w1.setWidth 64) := by
  rw [State.withMode, h]
  rfl
/-- A code other than DYN is its own mode. -/
theorem State.mode_of_ne_dyn {rm : Rnd} (h : rm ≠ .dyn) : s.mode (rndCode rm) = some (rndCode rm) := by
  cases rm with
  | dyn => exact absurd rfl h
  | _ => rfl
theorem State.frm_toNat (s : State) : s.frm.toNat = s.cf.fcsr.toNat / 32 % 8 := by
  rw [State.frm, BitVec.toNat_ofNat, fld, Nat.shiftRight_eq_div_pow]
  exact Nat.mod_mod _ 8
theorem State.dyn_legal (h : s.cf.fcsr.toNat / 32 % 8 ≤ 4) : s.mode 7 = some (BitVec.ofNat 3 (s.cf.fcsr.toNat / 32 % 8)) := by
  rw [← s.frm_toNat] at h ⊢
  rw [BitVec.ofNat_toNat, BitVec.setWidth_eq]
  exact if_pos h
theorem State.dyn_illegal (h : 5 ≤ s.cf.fcsr.toNat / 32 % 8) : s.mode 7 = none := by
  rw [← s.frm_toNat] at h
  exact if_neg (Nat.not_le.2 h)

variable {rm : Rnd} {d : Bool} {b a rd : Reg} {lat : Nat} {g : Fmt → BitVec 3 → Nat → Nat → Nat × FlagSet}

theorem State.fpArith_legal (h : s.mode (rndCode rm) = some m) : s.fpArith rm d b a rd lat g =
    s.fixedF rd (fpWord d (g (fmtOf d) m (asFp d (s.fr a)) (asFp d (s.fr b))).1) (g (fmtOf d) m (asFp d (s.fr a)) (asFp d (s.fr b))).2 lat :=
  State.withMode_legal h
theorem State.fpFused_legal {np nc : Bool} {c : Reg} (h : s.mode 7 = some m) : s.fpFused np nc d c b a rd =
    s.fixedF rd (fpWord d (fMulAdd (fmtOf d) m np nc (asFp d (s.fr a)) (asFp d (s.fr b)) (asFp d (s.fr c))).1)
      (fMulAdd (fmtOf d) m np nc (asFp d (s.fr a)) (asFp d (s.fr b)) (asFp d (s.fr c))).2 5 :=
  State.withMode_legal h
end

/-- Settles O11: each form rounds once under its mode, and an illegal mode in FRM faults before anything is read. -/
theorem floatArithmeticRoundsOnce : Obligations.FloatArithmeticRoundsOnce := by
  unfold Obligations.FloatArithmeticRoundsOnce
  intro s rm dd c b a d m x w f put ill
  refine ⟨fun h => ?arith, fun h => ?fused, State.mode_of_ne_dyn, State.dyn_legal, fun h => ?illegal⟩
  case arith =>
    have arith {lat : Nat} {g : Fmt → BitVec 3 → Nat → Nat → Nat × FlagSet} {b : Reg} :
        (.next (s.fpArith rm dd b a d lat g) : Out) = put (g f m (x a) (x b)) lat := congrArg _ (State.fpArith_legal h)
    exact ⟨arith, arith, arith, arith, arith⟩
  case fused =>
    have fused {np nc : Bool} : (.next (s.fpFused np nc dd c b a d) : Out) = put (fMulAdd f m np nc (x a) (x b) (x c)) 5 :=
      congrArg _ (State.fpFused_legal h)
    exact ⟨fused, fused, fused, fused⟩
  case illegal =>
    have illegal {go : BitVec 3 → State} : (.next (s.withMode 7 go) : Out) = ill := congrArg _ (State.withMode_illegal (State.dyn_illegal h))
    exact ⟨illegal, illegal, illegal, illegal, illegal, illegal, illegal, illegal, illegal⟩

/-! ## The fields of an encoding (R77) -/

/-- The fraction field of an encoding. -/
def Fmt.frac (f : Fmt) (v : Nat) : Nat := v % 2 ^ f.mbits
/-- The biased exponent field of an encoding. -/
def Fmt.expo (f : Fmt) (v : Nat) : Nat := v / 2 ^ f.mbits % 2 ^ f.ebits
/-- The sign of an encoding. -/
def Fmt.sign (f : Fmt) (v : Nat) : Bool := v.testBit (f.ebits + f.mbits)

section
variable (f : Fmt) (v : Nat)

/-- The value of an encoding, by its fields. -/
theorem Fmt.decode_eq : f.decode v =
    if f.expo v = 2 ^ f.ebits - 1 then (if f.frac v = 0 then .inf (f.sign v) else .nan (f.frac v < 2 ^ (f.mbits - 1)))
    else if f.expo v = 0 then .fin (f.sign v) (f.frac v) (f.emin - f.mbits)
    else .fin (f.sign v) (f.frac v + 2 ^ f.mbits) ((f.expo v : Int) - f.bias - f.mbits) := by
  have sign : (v / 2 ^ (f.ebits + f.mbits) % 2 == 1) = f.sign v := (Nat.testBit_eq_decide_div_mod_eq).symm
  simp only [Fmt.decode, beq_iff_eq, sign, Fmt.frac, Fmt.expo, Nat.shiftRight_eq_div_pow]
  rfl

theorem Fmt.isNan_decode : (f.decode v).isNan = true ↔ f.expo v = 2 ^ f.ebits - 1 ∧ f.frac v ≠ 0 := by
  rw [f.decode_eq]
  by_cases special : f.expo v = 2 ^ f.ebits - 1
  · by_cases zero : f.frac v = 0 <;> simp [FVal.isNan, special, zero]
  · simp only [special, if_false, false_and, iff_false]
    split <;> exact Bool.false_ne_true
theorem Fmt.isSig_decode : (f.decode v).isSig = true ↔
    (f.expo v = 2 ^ f.ebits - 1 ∧ f.frac v ≠ 0) ∧ f.frac v < 2 ^ (f.mbits - 1) := by
  rw [f.decode_eq]
  by_cases special : f.expo v = 2 ^ f.ebits - 1
  · by_cases zero : f.frac v = 0 <;> simp [FVal.isSig, special, zero]
  · simp only [special, if_false, false_and, iff_false]
    split <;> exact Bool.false_ne_true

/-- The class of an encoding (R177): a NaN, an infinity, a zero, a subnormal or a normal, by its sign. -/
theorem fClass_eq : fClass f v = if f.expo v = 2 ^ f.ebits - 1 then
      (if f.frac v ≠ 0 then (if f.frac v < 2 ^ (f.mbits - 1) then 8 else 9) else if f.sign v then 0 else 7)
    else if f.expo v = 0 then (if f.frac v = 0 then (if f.sign v then 3 else 4) else if f.sign v then 2 else 5)
    else if f.sign v then 1 else 6 := by
  have fits : f.frac v < 2 ^ f.mbits := Nat.mod_lt _ (Nat.two_pow_pos _)
  rw [fClass, f.decode_eq]
  by_cases special : f.expo v = 2 ^ f.ebits - 1
  · by_cases zero : f.frac v = 0 <;> simp [special, zero]
  · by_cases small : f.expo v = 0
    · simp only [if_neg special, if_pos small, fits, beq_self_eq_true, decide_true, Bool.and_self, if_true, beq_iff_eq]
    · simp [if_neg special, if_neg small]
end

/-! ## The fields of an operand (R78) -/

section
variable (d : Bool) (v : Word)

/-- The fraction of an operand. -/
abbrev fpFrac : Nat := asFp d v % 2 ^ (if d then 52 else 23)
/-- The biased exponent of an operand. -/
abbrev fpExpo : Nat := asFp d v / 2 ^ (if d then 52 else 23) % 2 ^ (if d then 11 else 8)
/-- An operand that is a NaN. -/
abbrev fpNan : Prop := fpExpo d v = 2 ^ (if d then 11 else 8) - 1 ∧ fpFrac d v ≠ 0
/-- An operand that is a signalling NaN. -/
abbrev fpSig : Prop := fpNan d v ∧ fpFrac d v < 2 ^ ((if d then 52 else 23) - 1)

theorem isNan_decode : ((fmtOf d).decode (asFp d v)).isNan = true ↔ fpNan d v := by
  rw [Fmt.isNan_decode]
  cases d <;> exact Iff.rfl
theorem isSig_decode : ((fmtOf d).decode (asFp d v)).isSig = true ↔ fpSig d v := by
  rw [Fmt.isSig_decode]
  cases d <;> exact Iff.rfl
theorem sign_asFp : (fmtOf d).sign (asFp d v) = v.getLsbD (signPos d) := by
  cases d with
  | true => rfl
  | false => exact (Nat.testBit_mod_two_pow v.toNat 32 31).trans (Bool.true_and _)
theorem fClass_asFp : fClass (fmtOf d) (asFp d v) = if fpExpo d v = 2 ^ (if d then 11 else 8) - 1 then
      (if fpFrac d v ≠ 0 then (if fpFrac d v < 2 ^ ((if d then 52 else 23) - 1) then 8 else 9) else if v.getLsbD (signPos d) then 0 else 7)
    else if fpExpo d v = 0 then (if fpFrac d v = 0 then (if v.getLsbD (signPos d) then 3 else 4) else if v.getLsbD (signPos d) then 2 else 5)
    else if v.getLsbD (signPos d) then 1 else 6 := by
  rw [fClass_eq, sign_asFp]
  cases d <;> rfl
end

/-! ## A NaN among the operands (R176) -/

theorem nvFlag_of_iff {q : Bool} {p : Prop} [Decidable p] (h : q = true ↔ p) : nvFlag q = if p then 16 else 0 := by
  simp only [nvFlag, h]

section
variable {d : Bool} {v w : Word}

theorem nan_among (h : fpNan d v ∨ fpNan d w) :
    (((fmtOf d).decode (asFp d v)).isNan || ((fmtOf d).decode (asFp d w)).isNan) = true := by
  rw [Bool.or_eq_true, isNan_decode, isNan_decode]
  exact h
theorem fEq_nan (h : fpNan d v ∨ fpNan d w) : fEq (fmtOf d) (asFp d v) (asFp d w) = (false, if fpSig d v ∨ fpSig d w then 16 else 0) := by
  simp only [fEq, nan_among h, if_true]
  rw [nvFlag_of_iff (by rw [Bool.or_eq_true, isSig_decode, isSig_decode])]
theorem fLt_nan (h : fpNan d v ∨ fpNan d w) : fLt (fmtOf d) (asFp d v) (asFp d w) = (false, 16) := by
  simp only [fLt, nan_among h, if_true]
theorem fLe_nan (h : fpNan d v ∨ fpNan d w) : fLe (fmtOf d) (asFp d v) (asFp d w) = (false, 16) := by
  simp only [fLe, nan_among h, if_true]
theorem fMinMax_nan_left {hi : Bool} (hv : fpNan d v) (hw : ¬ fpNan d w) :
    fMinMax (fmtOf d) hi (asFp d v) (asFp d w) = (asFp d w, if fpSig d v then 16 else 0) := by
  have nv := (isNan_decode d v).2 hv
  have nw := Bool.eq_false_iff.2 (mt (isNan_decode d w).1 hw)
  have sw := Bool.eq_false_iff.2 (mt (isSig_decode d w).1 fun h => hw h.1)
  simp only [fMinMax, nv, nw, sw, Bool.and_false, Bool.or_false, Bool.false_eq_true, if_false, if_true]
  rw [nvFlag_of_iff (isSig_decode d v)]
theorem fMinMax_nan_right {hi : Bool} (hv : ¬ fpNan d v) (hw : fpNan d w) :
    fMinMax (fmtOf d) hi (asFp d v) (asFp d w) = (asFp d v, if fpSig d w then 16 else 0) := by
  have nw := (isNan_decode d w).2 hw
  have nv := Bool.eq_false_iff.2 (mt (isNan_decode d v).1 hv)
  have sv := Bool.eq_false_iff.2 (mt (isSig_decode d v).1 fun h => hv h.1)
  simp only [fMinMax, nv, nw, sv, Bool.false_and, Bool.false_or, Bool.false_eq_true, if_false, if_true]
  rw [nvFlag_of_iff (isSig_decode d w)]
end

/-! ## Signs copied (R178) -/

/-- A word with its sign bit set or cleared. -/
theorem setFld_sign (v : Word) (d g : Bool) : setFld v (signPos d) 1 (bitNat g) =
    if g then v &&& ~~~(BitVec.twoPow 64 (signPos d)) ||| BitVec.twoPow 64 (signPos d) else v &&& ~~~(BitVec.twoPow 64 (signPos d)) := by
  have place : BitVec.ofNat 64 (1 <<< signPos d) = BitVec.twoPow 64 (signPos d) := by cases d <;> decide
  rw [setFld, ← place]
  cases g with
  | true => rfl
  | false => simp [bitNat]

/-! ## Each form as one result -/

/-- The sign that FSGNJ gives its result (R178). -/
def fsgnjSign (form : SgnForm) (sa sb : Bool) : Bool :=
  match form with
  | .plain => sb
  | .n => !sb
  | .x => sa != sb
/-- The integer that a conversion reads: whole, or the low half extended by its signedness (R180). -/
def State.cvtInt (s : State) (w signed : Bool) (a : Reg) : Int := if signed then (sOpd w (s.xr a)).toInt else (zOpd w (s.xr a)).toNat

section
variable {s : State} {d : Bool} {b a rd : Reg}

theorem State.fpMinMax_eq {hi : Bool} {p : Nat × FlagSet} (h : fMinMax (fmtOf d) hi (asFp d (s.fr a)) (asFp d (s.fr b)) = p) :
    s.fpMinMax hi d b a rd = s.fixedF rd (fpWord d p.1) p.2 2 := by
  rw [← h]
  rfl
theorem State.fpCmp_eq {g : Fmt → Nat → Nat → Bool × FlagSet} {p : Bool × FlagSet} (h : g (fmtOf d) (asFp d (s.fr a)) (asFp d (s.fr b)) = p) :
    s.fpCmp d b a rd g = s.fixedXF rd (if p.1 then 1 else 0) p.2 2 := by
  rw [← h]
  rfl
/-- A comparison with a NaN is false (R176). -/
theorem State.fpCmp_false {g : Fmt → Nat → Nat → Bool × FlagSet} {fl : FlagSet}
    (h : g (fmtOf d) (asFp d (s.fr a)) (asFp d (s.fr b)) = (false, fl)) :
    s.fpCmp d b a rd g = s.fixedXF rd 0 fl 2 := by
  rw [State.fpCmp_eq h]
  rfl
theorem State.fpMinMax_nan_left {hi : Bool} (ha : fpNan d (s.fr a)) (hb : ¬ fpNan d (s.fr b)) : s.fpMinMax hi d b a rd =
    s.fixedF rd (fpWord d (asFp d (s.fr b))) (if fpSig d (s.fr a) then 16 else 0) 2 := by
  rw [State.fpMinMax_eq (fMinMax_nan_left ha hb)]
theorem State.fpMinMax_nan_right {hi : Bool} (ha : ¬ fpNan d (s.fr a)) (hb : fpNan d (s.fr b)) : s.fpMinMax hi d b a rd =
    s.fixedF rd (fpWord d (asFp d (s.fr a))) (if fpSig d (s.fr b) then 16 else 0) 2 := by
  rw [State.fpMinMax_eq (fMinMax_nan_right ha hb)]
theorem execFsgnj_eq (form : SgnForm) : execFsgnj form d b a rd s = .next (s.fixedF rd
    (setFld (if d then s.fr a else zext 32 (s.fr a)) (signPos d) 1
      (bitNat (fsgnjSign form ((s.fr a).getLsbD (signPos d)) ((s.fr b).getLsbD (signPos d))))) 0 1) := by
  cases form <;> rfl

variable {form : CvtForm} (w : Bool) {rm : Rnd} {m : BitVec 3} (h : s.mode (rndCode rm) = some m)
include h

theorem execFcvt_narrows : execFcvt .s_d w rm a rd s = .next (s.fixedF rd (fpWord false (fConvert .f64 .f32 m (asFp true (s.fr a))).1)
    (fConvert .f64 .f32 m (asFp true (s.fr a))).2 4) := by
  rw [execFcvt, State.withMode_legal h]
  rfl
theorem execFcvt_widens : execFcvt .d_s w rm a rd s = .next (s.fixedF rd (fpWord true (fConvert .f32 .f64 m (asFp false (s.fr a))).1)
    (fConvert .f32 .f64 m (asFp false (s.fr a))).2 4) := by
  rw [execFcvt, State.withMode_legal h]
theorem execFcvt_ofInt (hf : form = .s_i ∨ form = .s_n ∨ form = .d_i ∨ form = .d_n) : execFcvt form w rm a rd s =
    .next (s.fixedF rd (fpWord (cvtD form) (intToF (fmtOf (cvtD form)) m (s.cvtInt w (cvtSigned form) a)).1)
      (intToF (fmtOf (cvtD form)) m (s.cvtInt w (cvtSigned form) a)).2 4) := by
  rw [execFcvt, State.withMode_legal h]
  obtain rfl | rfl | rfl | rfl := hf <;> rfl
theorem execFcvt_toInt (hf : form = .i_s ∨ form = .n_s ∨ form = .i_d ∨ form = .n_d) : execFcvt form w rm a rd s =
    .next (s.fixedXF rd (intWord (cvtSigned form) (width w) (valToInt m (cvtSigned form) (width w)
        ((fmtOf (cvtD form)).decode (asFp (cvtD form) (s.fr a)))).1)
      (valToInt m (cvtSigned form) (width w) ((fmtOf (cvtD form)).decode (asFp (cvtD form) (s.fr a)))).2 4) := by
  rw [execFcvt, State.withMode_legal h]
  obtain rfl | rfl | rfl | rfl := hf <;> rfl
end

/-- Settles O12: each form is one result, read off the fields of its operands where R176 to R178 speak of NaNs, signs and classes. -/
theorem floatMovesComparesAndConversions : Obligations.FloatMovesComparesAndConversions := by
  unfold Obligations.FloatMovesComparesAndConversions
  intro s dd w rm b a d m x f wd top mag sign sa sb int bits mb eb fr ex nan sig
  have minMax {hi : Bool} {p : Nat × FlagSet} (h : fMinMax f hi (x dd a) (x dd b) = p) :
      (.next (s.fpMinMax hi dd b a d) : Out) = .next (s.fixedF d (wd dd p.1) p.2 2) := congrArg _ (State.fpMinMax_eq h)
  have cmp {g : Fmt → Nat → Nat → Bool × FlagSet} {p : Bool × FlagSet} (h : g f (x dd a) (x dd b) = p) :
      (.next (s.fpCmp dd b a d g) : Out) = .next (s.fixedXF d (if p.1 then 1 else 0) p.2 2) := congrArg _ (State.fpCmp_eq h)
  have signed (form : SgnForm) : exec (.fsgnj form dd b a d) s = .next (s.fixedF d (sign (fsgnjSign form sa sb)) 0 1) :=
    (execFsgnj_eq form).trans (by rw [setFld_sign]; rfl)
  refine ⟨minMax rfl, minMax rfl, cmp rfl, cmp rfl, cmp rfl, signed .plain, signed .n, signed .x, ?classified, ?nanCompared, ?nanLeft, ?nanRight,
    rfl, rfl, fun h => ?converted⟩
  case classified =>
    exact congrArg (fun k => (.next (s.fixedX d (BitVec.ofNat 64 (2 ^ k)) 1) : Out)) (fClass_asFp dd (s.fr a))
  case nanCompared =>
    have unordered {g : Fmt → Nat → Nat → Bool × FlagSet} {fl : FlagSet} (h : g f (x dd a) (x dd b) = (false, fl)) :
        (.next (s.fpCmp dd b a d g) : Out) = .next (s.fixedXF d 0 fl 2) := congrArg _ (State.fpCmp_false h)
    exact fun h => ⟨unordered (fEq_nan h), unordered (fLt_nan h), unordered (fLe_nan h)⟩
  case nanLeft =>
    intro ha hb hi
    have other := State.fpMinMax_nan_left (rd := d) (hi := hi) ha hb
    cases hi <;> exact congrArg _ other
  case nanRight =>
    intro ha hb hi
    have other := State.fpMinMax_nan_right (rd := d) (hi := hi) ha hb
    cases hi <;> exact congrArg _ other
  case converted =>
    refine ⟨execFcvt_narrows w h, execFcvt_widens w h, fun t ht => (execFcvt_ofInt w h ht).trans ?_,
      fun t ht => (execFcvt_toInt w h ht).trans ?_⟩
    · obtain rfl | rfl | rfl | rfl := ht <;> rfl
    · obtain rfl | rfl | rfl | rfl := ht <;> rfl

end Sys2Proof.Machine
end

section
/-! Instructions that release, claim, call and watch (06_frame_unit.md R203, R204, R209 to R213, R220). -/

namespace Sys2Proof.Machine
open Sys2Proof.Safety

/-! ## Resource ids and claims (R209, R210) -/

/-- The resource id of a slot of a core holds the core, the slot and nothing else. -/
theorem resourceId_fields {v : Word} {ep : Nat} (h : v = resourceId ep (v.toNat % 64)) (hep : ep < 8192) :
    zeroField v 19 45 = true ∧ fld v 6 13 = ep := by
  have hv : v.toNat = ep * 64 + v.toNat % 64 :=
    (congrArg BitVec.toNat h).trans ((BitVec.toNat_ofNat _ 64).trans (Nat.mod_eq_of_lt (by omega)))
  simp only [zeroField, fld, beq_iff_eq, Nat.shiftRight_eq_div_pow]
  omega

/-- A frame whose level no slot of the claim stack names holds no claim. -/
theorem Core.claimsOf_nil {c : Core} {w : Nat} (h : c.claims.filter (fun k => fld (vget 0 c.ceiling k) 8 3 == w) = []) :
    c.claimsOf w = [] :=
  congrArg List.reverse h

/-! ## POST, END and ENDS (R203, R204) -/

section
variable {s : State} {b a : Reg} {r : Release}

theorem execPost_releases (hp : s.postChecks (s.xr a) (s.xr b) = .ok r) (hr : hasRoom s 0 1) :
    execPost b a s = .next ((s.accept r).releaseThen (relScope r s.iss.ep) [relEvent r]) := by
  rw [execPost, hp]
  exact congrArg _ (State.withRoom_go hr)
theorem execEndTask_ends (hc : s.cc.claimsOf s.iss.win = []) :
    execEndTask s = .next ((s.releaseThen ((s.cf.endScope s.iss.ep).getD .module) []).ending) := by
  rw [execEndTask, hc]
theorem execEnds_ends (hc : s.cc.claimsOf s.iss.win = []) (hp : s.postChecks (s.xr a) (s.xr b) = .ok r) (hr : hasRoom s 0 1) :
    execEnds b a s = .next (((s.accept r).releaseThen
      (widerScope (relScope r s.iss.ep) ((s.cf.endScope s.iss.ep).getD .core)) [relEvent r]).ending) := by
  rw [execEnds, hc, hp]
  exact congrArg _ (State.withRoom_go hr)
end

/-! ## CLAIM and UNCLAIM (R210, R211) -/

section
variable {s : State} {a : Reg} {e : Word}

theorem execClaim_takes (hid : s.xr a = resourceId s.iss.ep ((s.xr a).toNat % 64)) (hep : s.iss.ep < 8192)
    (he : vget 0 s.cc.ceiling ((s.xr a).toNat % 64) = e) (hv : bitOf e 3 = true) (ha : fld e 16 16 = s.cf.asid.toNat)
    (hfree : bitOf e 11 = false) (hl : s.cf.level.toNat ≤ fld e 0 3) (hk : bitOf (s.cf.desc.getD 2 0) ((s.xr a).toNat % 64) = true) :
    execClaim a s = .next (s.modCore s.iss.ep (fun k => { k with
      ceiling := vset k.ceiling ((s.xr a).toNat % 64) (setFld (setFld e 8 3 s.cf.level.toNat) 11 1 1)
      claims := k.claims ++ [(s.xr a).toNat % 64] })) := by
  obtain ⟨high, core⟩ := resourceId_fields hid hep
  simp only [execClaim, show fld (s.xr a) 0 6 = (s.xr a).toNat % 64 from rfl, he, high, core, hv, ha, hfree, hk, Nat.not_lt.2 hl,
    BitVec.ofNat_toNat, BitVec.setWidth_eq, bne_self_eq_false, Bool.not_true, Bool.or_false, decide_false, Bool.false_eq_true, if_false]
theorem execUnclaim_drops (hid : s.xr a = resourceId s.iss.ep ((s.xr a).toNat % 64)) (hep : s.iss.ep < 8192)
    (he : vget 0 s.cc.ceiling ((s.xr a).toNat % 64) = e) (ht : s.cc.claims.getLast? = some ((s.xr a).toNat % 64))
    (hw : fld e 8 3 = s.iss.win) : execUnclaim a s = .next ((s.modCore s.iss.ep (fun k => { k with
      ceiling := vset k.ceiling ((s.xr a).toNat % 64) (setFld e 11 1 0)
      claims := k.claims.dropLast })).select s.iss.ep) := by
  obtain ⟨high, core⟩ := resourceId_fields hid hep
  simp only [execUnclaim, show fld (s.xr a) 0 6 = (s.xr a).toNat % 64 from rfl, he, high, core, ht, hw, beq_self_eq_true,
    bne_self_eq_false, Bool.and_true, Bool.not_true, Bool.or_false, Bool.false_eq_true, if_false]
end

/-! ## WATCH (R213) -/

/-- A number below 256 is a record index and nothing else. -/
theorem recordIndex_fields {v : Word} (h : v.toNat < 256) : zeroField v 8 56 = true := by
  rw [zeroField, fld, Nat.shiftRight_eq_div_pow, Nat.div_eq_of_lt h, Nat.zero_mod]
  rfl
/-- A frame in T-mode may name a record of a level below 6 only (R193, R203). -/
theorem recordLevel_permitted {fm : Bool} {w : Word} (h : fm = true ∨ fld w 0 3 < 6) : (!fm && decide (6 ≤ fld w 0 3)) = false := by
  obtain rfl | h := h
  · rfl
  · rw [decide_eq_false (Nat.not_le.2 h), Bool.and_false]

theorem execWatch_arms {s : State} {h : HReg} {c : WatchCond} {dd : Bool} {b a d : Reg} {t : Target} (hi : (s.xr d).toNat < 256)
    (hc : s.check s.det h (s.xr a) (if dd then 8 else 4) (if dd then 8 else 4) .load true false [0, 1, 2] = .ok t)
    (hb : s.cc.recbusy.getLsbD (s.xr d).toNat = false) (hl : s.cf.fm = true ∨ fld (s.recWord (s.xr d).toNat 0) 0 3 < 6)
    (hr : hasRoom s 0 1) : execWatch h c dd b a d s = .next (((s.noteCheck t.walk).accept (s.mkRelease (s.xr d).toNat s.iss.ep none)).releaseThen
      .core [(0, s.iss.ep, t.owner, .arm (ArmReq.mk t.owner t.space t.addr dd c (s.xr b) (s.mkRelease (s.xr d).toNat s.iss.ep none)))]) := by
  simp only [execWatch, recordIndex_fields hi, hc, hb, recordLevel_permitted hl, Bool.not_true, Bool.false_eq_true, if_false,
    State.withRoom_go hr]

/-- Settles O13: each instruction, its checks passed, releases, ends, claims or arms as its rule says. -/
theorem releaseInstructionsComplete : Obligations.ReleaseInstructionsComplete := by
  unfold Obligations.ReleaseInstructionsComplete
  intro s b a d r h c dd t sl e mine
  refine ⟨execPost_releases, fun hm => execEndTask_ends (Core.claimsOf_nil hm), fun hm => execEnds_ends (Core.claimsOf_nil hm), ?claim, ?unclaim,
    execWatch_arms⟩
  case claim => exact fun hid hep hv ha hfree hl hk => execClaim_takes hid hep rfl hv ha hfree hl hk
  case unclaim => exact fun hid hep ht hw => execUnclaim_drops hid hep rfl ht hw

/-! ## ECALL and EBREAK (R220) -/

theorem Frame.fm_iff {f : Frame} : f.fm = true ↔ 6 ≤ f.level.toNat := decide_eq_true_iff
/-- The cause of ECALL by the level of its frame (R193, R220). -/
theorem execEcall_eq (s : State) : execEcall s = .next (s.raise (if 6 ≤ s.cf.level.toNat then 11 else 8) 0) := by
  simp only [execEcall, Frame.fm_iff]

/-- Settles O14: the call is a fault raised at the address of its bundle. -/
theorem callsRaiseTheirCause : Obligations.CallsRaiseTheirCause := by
  unfold Obligations.CallsRaiseTheirCause
  intro s raised
  refine ⟨(execEcall_eq s).trans ?byLevel, rfl⟩
  split <;> rfl

end Sys2Proof.Machine
end

section
/-! Returns from traps, kills and the start of a migration (06_frame_unit.md R221, R222, R226). -/

namespace Sys2Proof.Machine

/-! ## ERET and FKILL (R221, R222) -/

section
variable {s : State} {a : Reg}

theorem execEret_returns (h : s.cf.trapFrame = true) : execEret s = .next (s.eret s.iss.ep) := by
  simp only [execEret, h, Bool.not_true, Bool.false_eq_true, if_false]
theorem execEret_outside (h : s.cf.trapFrame = false) : execEret s = .next s.illegalC := by
  simp only [execEret, h, Bool.not_false, if_true]
theorem execFkill_kills {w : Nat} (h : s.cf.trapFrame = true) (hw : s.cc.trappedWin = some w) :
    execFkill a s = .next ((s.frameFree s.iss.ep w (.kill ((s.xr a).setWidth 16))).popFrame s.iss.ep 7) := by
  simp only [execFkill, h, hw, Bool.not_true, Bool.false_eq_true, if_false]
theorem execFkill_outside (h : s.cf.trapFrame = false) : execFkill a s = .next s.illegalC := by
  simp only [execFkill, h, Bool.not_false, if_true]
end

/-! ## MIGR (R226) -/

section
variable {s : State} {b a d : Reg}

/-- The completion release of a migration, as it is before its record has moved (R226, R228). -/
def State.migrRelease (s : State) (dst i : Word) (c : Nat) (dv : Option (BitVec 22)) : Release :=
  Release.mk s.srcDev dst.toNat (BitVec.ofNat 8 i.toNat) c dv 0 0 0 0 0 true
/-- A core that is MIGRATING (R226). -/
def Core.migrating (c : Core) (m : Migration) : Core := { c with code := 2, mig := some m }
/-- A core that begins to migrate: its commit is on its way (R226). -/
def State.migrating (s : State) (ep : Nat) (m : Migration) : State :=
  (s.modCore ep (fun c => c.migrating m)).later (.migrationCommit ep)

theorem State.core_migrating (s : State) (ep : Nat) (m : Migration) : (s.migrating ep m).core ep = (s.core ep).migrating m :=
  s.core_modCore ep (fun c => c.migrating m)
theorem State.commit_mem_migrating (s : State) (ep : Nat) (m : Migration) : Msg.op (.migrationCommit ep) ∈ (s.migrating ep m).net :=
  List.mem_append_right _ (List.mem_singleton_self _)

/-- Past its checks MIGR ends its frame, lets a trapped one below go on, withdraws registrations, and the core migrates. -/
theorem execMigr_starts {c : Nat} {dv : Option (BitVec 22)} (hl : s.cf.level = 7) (hd : (s.xr a).toNat < 4096)
    (hv : (s.core (s.xr a).toNat).reserved = true) (hi : (s.xr d).toNat < 256) (hb : s.cc.recbusy.getLsbD (s.xr d).toNat = false)
    (ht : s.targetOk (s.xr b) true = some (c, dv)) :
    ∃ u : State, execMigr b a d s = .next (u.migrating s.iss.ep ⟨(s.xr a).toNat, s.migrRelease (s.xr a) (s.xr d) c dv, false⟩) := by
  have hf : s.cf.fm = true := Frame.fm_iff.2 (by rw [hl]; decide)
  simp only [execMigr, hf, hl, (coreId_fields hd).1, hv, recordIndex_fields hi, hb, ht, bne_self_eq_false, Bool.not_true, Bool.or_false,
    Bool.false_eq_true, if_false]
  exact ⟨_, rfl⟩
theorem execMigr_notFirmware (h : s.cf.level.toNat < 6) : execMigr b a d s = .next s.illegalC := by
  have hf : s.cf.fm = false := Bool.eq_false_iff.2 (mt Frame.fm_iff.1 (Nat.not_le.2 h))
  simp only [execMigr, hf, Bool.not_false, if_true]
theorem execMigr_level6 (h : s.cf.level = 6) : execMigr b a d s = .next (s.raise 52 6) := by
  have hf : s.cf.fm = true := Frame.fm_iff.2 (by rw [h]; decide)
  simp only [execMigr, hf, h, Bool.not_true, Bool.false_eq_true, if_false]
  rfl
end

/-- Settles O15: in a trap frame, and from a level-7 frame to a reserved core, each instruction is what its rule says; elsewhere it faults. -/
theorem trapReturnsAndMigrationComplete : Obligations.TrapReturnsAndMigrationComplete := by
  unfold Obligations.TrapReturnsAndMigrationComplete
  intro s b a d c dv
  refine ⟨execEret_returns, fun h => ⟨execEret_outside h, execFkill_outside h⟩, fun w => execFkill_kills, ?migr, execMigr_notFirmware,
    execMigr_level6⟩
  case migr =>
    intro hl hd hv hi hb ht
    obtain ⟨u, hu⟩ := execMigr_starts hl hd hv hi hb ht
    have hcore := u.core_migrating s.iss.ep ⟨(s.xr a).toNat, s.migrRelease (s.xr a) (s.xr d) c dv, false⟩
    exact ⟨_, hu, congrArg Core.code hcore, congrArg Core.mig hcore, u.commit_mem_migrating _ _⟩

end Sys2Proof.Machine
end

section
/-! The steps of a release and of the frame it starts (06_frame_unit.md R200 to R208, R215, R225 to R228;
08_vector_pool.md R269; 01_engines.md R22). -/

namespace Sys2Proof.Machine

/-! ## The steps of releases and frames act on the event they are -/

section
variable {s : State} {ep : Nat}

theorem exec_release_of_ev {r : Release} (h : s.ev = some (.release r)) : exec .release s = execRelease r s := by
  rw [show exec .release s = runRelease s from rfl, runRelease, h]
theorem exec_pull_of_ev {r : Release} (h : s.ev = some (.pull r)) : exec .pull s = execPull r s := by
  rw [show exec .pull s = runPull s from rfl, runPull, h]
theorem exec_record_of_ev {r : Release} {ws : List Word} (h : s.ev = some (.record r ws)) : exec .record s = execRecord r ws s := by
  rw [show exec .record s = runRecord s from rfl, runRecord, h]
theorem exec_releaseArrival_of_ev {e : Entry} (h : s.ev = some (.releaseArrival ep e)) :
    exec .releaseArrival s = execReleaseArrival ep e s := by
  rw [show exec .releaseArrival s = runReleaseArrival s from rfl, runReleaseArrival, h]
theorem exec_framePush_of_ev (h : s.ev = some (.framePush ep)) : exec .framePush s = execFramePush ep s := by
  rw [show exec .framePush s = runFramePush s from rfl, runFramePush, h]
theorem exec_fifoRingMove_of_ev {p : Nat} (h : s.ev = some (.fifoRingMove ep p)) : exec .fifoRingMove s = execFifoRingMove ep p s := by
  rw [show exec .fifoRingMove s = runFifoRingMove s from rfl, runFifoRingMove, h]
theorem exec_framePop_of_ev (h : s.ev = some (.framePop ep)) : exec .framePop s = execFramePop ep s := by
  rw [show exec .framePop s = runFramePop s from rfl, runFramePop, h]
theorem exec_trapEntry_of_ev (h : s.ev = some (.trapEntry ep)) : exec .trapEntry s = execTrapEntry ep s := by
  rw [show exec .trapEntry s = runTrapEntry s from rfl, runTrapEntry, h]
theorem exec_refillComplete_of_ev (h : s.ev = some (.refillComplete ep)) : exec .refillComplete s = execRefillComplete ep s := by
  rw [show exec .refillComplete s = runRefillComplete s from rfl, runRefillComplete, h]
theorem exec_frameLost_of_ev {w : Nat} (h : s.ev = some (.frameLost ep w)) : exec .frameLost s = execFrameLost ep w s := by
  rw [show exec .frameLost s = runFrameLost s from rfl, runFrameLost, h]
theorem exec_migrationCommit_of_ev (h : s.ev = some (.migrationCommit ep)) : exec .migrationCommit s = execMigrationCommit ep s := by
  rw [show exec .migrationCommit s = runMigrationCommit s from rfl, runMigrationCommit, h]
theorem exec_forwardPacket_of_ev {k : Nat} (h : s.ev = some (.forwardPacket k)) : exec .forwardPacket s = execForwardPacket k s := by
  rw [show exec .forwardPacket s = runForwardPacket s from rfl, runForwardPacket, h]
theorem exec_starvationReport_of_ev {p : Nat} (h : s.ev = some (.starvationReport ep p)) :
    exec .starvationReport s = execStarvationReport ep p s := by
  rw [show exec .starvationReport s = runStarvationReport s from rfl, runStarvationReport, h]
end

/-! ## A release on its way: RELEASE, PULL, RECORD, RELEASE_ARRIVAL (R200, R205) -/

section
variable {s : State} {r : Release} {ep : Nat} {e : Entry}

/-- A packet of a release on its way: `ev` between cores of the module, `fp` where the target is another device's (R260). -/
def State.sendOfRelease (s : State) (r : Release) (cls src dst : Nat) (ev : Event) (fp : FjPacket) : State :=
  match r.dstDev with
  | none => s.send cls src dst ev
  | some _ => s.send cls src fjPlace (.fjarlinkPacket 31 fp)

/-- A core that takes releases answers one with the request for its record. -/
theorem execRelease_pulls (hr : (s.core r.dst).refuses = false) (hf : (s.core r.dst).ringFull = false) :
    execRelease r s = .next (s.sendOfRelease r 0 r.dst r.srcEp (.pull r) (.pull r)) := by
  simp only [execRelease, hr, hf, Bool.false_eq_true, if_false]
  rfl
/-- A record that can be read is freed and sent; that of a graph engine's slot lies in no LM (R146). -/
theorem execPull_sends (hp : s.pullRefused r = false)
    (hb : 2 ≤ epClass r.srcEp ∨ s.lmBad r.srcEp (0x7C000 + 64 * r.recIdx.toNat) 64 = false) :
    execPull r s = .next ((s.unbusy r).sendOfRelease r 1 r.srcEp r.dst (.record r (s.pulled r)) (.record r (s.pulled r))) := by
  have readable : (decide (epClass r.srcEp < 2) && s.lmBad r.srcEp (0x7C000 + 64 * r.recIdx.toNat) 64) = false := by
    obtain hc | hb := hb
    · rw [decide_eq_false (Nat.not_lt.2 hc), Bool.false_and]
    · rw [hb, Bool.and_false]
  simp only [execPull, hp, readable, Bool.false_eq_true, if_false]
  rfl
theorem execReleaseArrival_queues (hl : (s.core ep).levelFull e.rel.prio.toNat = false) :
    execReleaseArrival ep e s = .next ((((if e.rel.srcDev == s.srcDev && e.slot.isNone && e.census.isNone
      then s.countRecv ep e.rel.asid else s).queueEntry ep e).select ep).nextSpawned ep e) := by
  simp only [execReleaseArrival, hl, Bool.false_eq_true, if_false]
end

/-! ## Starting a frame: FRAME_PUSH and FIFO_RING_MOVE (R205, R208) -/

section
variable {s : State} {ep p : Nat} {e : Entry} {l : List Entry}

/-- The entry whose descriptor was read at its arrival is started above the frames of its core. -/
theorem execFramePush_starts (hp : (s.core ep).push = e :: l) (hc : (s.core ep).code = 0) (hd : e.descStat ≠ 3) :
    execFramePush ep s =
      (let f := startFrame e ((s.core ep).segTop e.rel.prio.toNat) ((s.core ep).spLimit - (s.core ep).trapSeg) s.uid
       let t := ((if isMemCore ep then s.applyAll ep else s).preemptTop ep).modCore ep (fun c => { c with push := l })
       let t := { t.setFrame ep e.rel.prio.toNat f with uid := t.uid + 1 }
       .next ((if f.st == .faulting then t.later (.trapEntry ep) else t).select ep)) := by
  simp only [execFramePush, hp, hc, bne_self_eq_false, beq_iff_eq, hd, Bool.false_eq_true, if_false]

/-- The state whose ring has given up its oldest entry. -/
def State.ringTaken (s : State) (ep p : Nat) (fifo : Vector (List Entry) 8) (l : List Entry) : State :=
  let c := s.core ep
  s.setCore ep { c with
    fifo := fifo
    ring := vset c.ring p l
    ringHead := vset c.ringHead p ((vget 0 c.ringHead p + 1) % Nat.max 1 c.ringEntries) }

theorem execFifoRingMove_room (hr : vget [] (s.core ep).ring p = e :: l) (hf : (vget [] (s.core ep).fifo p).length < 32) :
    execFifoRingMove ep p s = .next (if (s.ringEntry ep p 0 e).2
      then ((s.ringTaken ep p (s.core ep).fifo l).entryLost ep e).later (.fifoRingMove ep p)
      else (s.ringTaken ep p (vset (s.core ep).fifo p (vget [] (s.core ep).fifo p ++ [(s.ringEntry ep p 0 e).1])) l).select ep) := by
  simp only [execFifoRingMove, hr, Nat.not_le.2 hf, if_false]
  split <;> rfl
end

/-! ## The top frame: FRAME_POP, TRAP_ENTRY and REFILL_COMPLETE (R204, R215, R269) -/

section
variable {s : State} {ep w : Nat}

theorem execFramePop_pops (ht : ((s.settle ep).core ep).top = some w) (he : ((s.settle ep).frame ep w).st = .ending)
    (hc : ((s.settle ep).core ep).code = 0) (ho : ((s.settle ep).frame ep w).outs = []) (hp : ((s.settle ep).core ep).push = []) :
    execFramePop ep s = .next ((s.settle ep).popFrame ep w) := by
  simp only [execFramePop, ht, he, hc, ho, hp, bne_self_eq_false, List.isEmpty_nil, Bool.not_true, Bool.or_false, Bool.false_eq_true, if_false]
theorem execTrapEntry_takes {f : PFault} (ht : ((s.settle ep).core ep).top = some w) (hf : ((s.settle ep).frame ep w).pending = some f)
    (he : ((s.settle ep).frame ep w).st = .faulting) (hc : ((s.settle ep).core ep).code = 0) (ho : ((s.settle ep).frame ep w).outs = [])
    (hp : ((s.settle ep).core ep).push = []) : execTrapEntry ep s = .next ((s.settle ep).takeTrap ep w f) := by
  simp only [execTrapEntry, ht, hf, he, hc, ho, hp, bne_self_eq_false, List.isEmpty_nil, Bool.not_true, Bool.or_false, Bool.false_eq_true,
    if_false]

variable (ht : (s.core ep).top = some w) (hs : (s.frame ep w).spilled = true) (hn : (s.frame ep w).nLanes ≠ 0)
include ht hs hn

theorem execRefillComplete_bad (hb : s.reserveBad ep w = true) :
    execRefillComplete ep s = .next ((((s.lose ep w).frameFree ep w .lost).uncover ep 8).select ep) := by
  simp only [execRefillComplete, ht, hs, beq_iff_eq, hn, hb, Bool.not_true, Bool.false_eq_true, if_false, if_true]

/-- The spilled frame gets banks of its own map: its rows come back from its reserve. -/
theorem execRefillComplete_refills {t t' : State} (hb : s.reserveBad ep w = false)
    (hg : ceilDiv (s.frame ep w).nLanes 16 ≤ (groupsOf (s.frame ep w).gmap).length)
    (hk : s.takeBanks ep w (groupsOf (s.frame ep w).gmap) = (t', some t)) :
    execRefillComplete ep s =
      (let u := t.modFrame ep w (fun f => { f with
        spilled := false, hold := (if f.hold == .refill then .none else f.hold)
        vlen := setFld f.vlen 16 16 ((groupsOf (s.frame ep w).gmap).foldl (fun n g => n + 2 ^ g) 0) })
      let img := (List.range 32).map (fun r => s.vread ep w (BitVec.ofNat 5 r))
      .next (((List.range 32).foldl (fun v r => v.vwrite ep w (BitVec.ofNat 5 r) (img.getD r [])) u).modGeode (epGeode ep)
        (fun x => { x with refillcnt := x.refillcnt + 1 }))) := by
  simp only [execRefillComplete, ht, hs, beq_iff_eq, hn, hb, hg, hk, Nat.not_lt.2 hg, Bool.not_true, Bool.false_eq_true, if_false, if_true]
end

/-! ## Frames lost and cores that migrate: FRAME_LOST, MIGRATION_COMMIT, FORWARD_PACKET, STARVATION_REPORT (R22, R225, R227, R228) -/

section
variable {s : State} {ep : Nat}

/-- A saved frame that is not the top one and that an error strikes (R225; log entry 75). -/
theorem execFrameLost_loses {w : Nat} (hw : w < 8) (hst : ((s.core ep).win w).st = .preempted ∨ ((s.core ep).win w).st = .trapped)
    (ht : (s.core ep).top ≠ some w) : execFrameLost ep w s = .next (((s.lose ep w).modCore ep (fun c => { c with
      mig := c.mig.map (fun m => { m with lost := true }) })).select ep) := by
  have top : ((s.core ep).top == some w) = false := beq_eq_false_iff_ne.2 ht
  have live : (((s.core ep).win w).st == .free) = false ∧ (((s.core ep).win w).st == .lost) = false := by
    obtain h | h := hst <;> rw [h] <;> exact ⟨rfl, rfl⟩
  simp only [execFrameLost, ge_iff_le, Nat.not_le.2 hw, live, top, decide_false, Bool.false_and, Bool.or_false, Bool.false_eq_true, if_false]
theorem execMigrationCommit_moves {m : Migration} (hu : ((s.settle ep).core ep).code = 2)
    (hm : (((s.settle ep).loseReserves ep).core ep).mig = some m) (hc : (((s.settle ep).loseReserves ep).core ep).code = 2)
    (hd : ((s.settle ep).loseReserves ep).streamDone ep m.dst = true) :
    execMigrationCommit ep s = .next (((s.settle ep).loseReserves ep).moveCore ep m) := by
  simp only [execMigrationCommit, hu, beq_self_eq_true, if_true, hm, hc, hd, bne_self_eq_false, Bool.not_true, Bool.false_eq_true, if_false]
theorem execForwardPacket_turns {k : Nat} {m : Msg} (hm : s.net[k]? = some m) (hc : (s.core m.dst).code = 3)
    (hf : bitOf (s.core m.dst).fwd 63 = true) (he : m.ch = .eject) : execForwardPacket k s = .next { s with net := s.net.set k { m with
      dst := fld (s.core m.dst).fwd 0 12, rt := routerOf m.dst, ch := .inject, since := s.now, wait := 0
      ev := moveEvent m.dst (fld (s.core m.dst).fwd 0 12) m.ev } } := by
  simp only [execForwardPacket, hm, hc, hf, he, bne_self_eq_false, Bool.not_true, Bool.or_false, Bool.false_eq_true, if_false]
theorem execStarvationReport_reports {p : Nat} (hs : (s.core ep).starve ≠ 0) (hw : (s.core ep).hasWork p = true)
    (ht : (s.core ep).top ≠ some p) : execStarvationReport ep p s = .next (s.out (.starvation ep p)) := by
  simp only [execStarvationReport, bne_iff_ne.2 hs, hw, bne_iff_ne.2 ht, Bool.and_true, if_true]
end

/-- Settles O30: each step acts on the event it is, and where its conditions hold does what its rule says. -/
theorem releasesArriveAndFramesArePushed : Obligations.ReleasesArriveAndFramesArePushed := by
  unfold Obligations.ReleasesArriveAndFramesArePushed
  intro s ep w k p r e
  refine ⟨?release, ?pull, ?record, ?arrival, ?push, ?ringMove, ?pop, ?trap, ?refillBad, ?refill, ?lost, ?migration, ?forward, ?starvation⟩
  case release => exact fun he hr hf => (exec_release_of_ev he).trans (execRelease_pulls hr hf)
  case pull => exact fun he hp hb => (exec_pull_of_ev he).trans (execPull_sends hp hb)
  case record => exact fun ws he => exec_record_of_ev he
  case arrival => exact fun he hl => (exec_releaseArrival_of_ev he).trans (execReleaseArrival_queues hl)
  case push => exact fun rest he hp hc hd => (exec_framePush_of_ev he).trans (execFramePush_starts hp hc hd)
  case ringMove =>
    intro l he hr hf c n off e'
    rw [exec_fifoRingMove_of_ev he, execFifoRingMove_room hr hf]
    have error : (s.ringEntry ep p 0 e).2 = s.lmBad ep off 128 := rfl
    rw [error]
    exact ⟨fun hb => congrArg _ (if_neg (Bool.eq_false_iff.1 hb)), fun hb => congrArg _ (if_pos hb)⟩
  case pop => exact fun he ht hst hc ho hp => (exec_framePop_of_ev he).trans (execFramePop_pops ht hst hc ho hp)
  case trap => exact fun f he ht hf hst hc ho hp => (exec_trapEntry_of_ev he).trans (execTrapEntry_takes ht hf hst hc ho hp)
  case refillBad => exact fun he ht hs hn hb => (exec_refillComplete_of_ev he).trans (execRefillComplete_bad ht hs hn hb)
  case refill =>
    exact fun t t' he ht hs hn hb hg hk => (exec_refillComplete_of_ev he).trans (execRefillComplete_refills ht hs hn hb hg hk)
  case lost => exact fun he hw hst ht => (exec_frameLost_of_ev he).trans (execFrameLost_loses hw hst ht)
  case migration => exact fun m he hu hm hc hd => (exec_migrationCommit_of_ev he).trans (execMigrationCommit_moves hu hm hc hd)
  case forward => exact fun m he hm hc hf hch => (exec_forwardPacket_of_ev he).trans (execForwardPacket_turns hm hc hf hch)
  case starvation => exact fun he hs hw ht => (exec_starvationReport_of_ev he).trans (execStarvationReport_reports hs hw ht)

end Sys2Proof.Machine
end

section
/-! The values after reset (06_frame_unit.md R230, 07_message_unit.md R261, 08_vector_pool.md R300, 09_matrix_array.md R334, 14_spawn.md R475,
15_guest_socket.md R494, 16_host_port.md R499 and R501, 17_package.md R521; log entries 2 and 3). -/

namespace Sys2Proof.Machine
open Sys2Proof.Safety

/-- A vector that holds the default everywhere reads it at every position, inside and outside. -/
@[simp] theorem vget_replicate {α : Type} (n : Nat) (d : α) (i : Nat) : vget d (Vector.replicate n d) i = d := by
  unfold vget
  split
  · exact Vector.getElem_replicate _
  · rfl

/-! ## Nothing is listed at reset: each unit is the one right after reset -/

theorem State.reset_core (ep : Nat) : State.reset.core ep = Core.reset := rfl
theorem State.reset_geode (g : Nat) : State.reset.geode g = Geode.reset := rfl
theorem Core.reset_win (w : Nat) : Core.reset.win w = Frame.free := vget_replicate 8 Frame.free w
/-- FUSTAT at reset is IDLE alone (R230). -/
theorem Core.reset_fustat : Core.reset.fustat = 0x80 := by decide

/-- Settles O50: every core, geode and queue is the one right after reset, and the rest is read off. -/
theorem resetLeavesTheStatedValues : Obligations.ResetLeavesTheStatedValues := by
  unfold Obligations.ResetLeavesTheStatedValues
  intro s
  refine ⟨fun ep => ?core, fun g => ?geode, rfl, rfl, rfl, rfl, rfl, fun q => ⟨rfl, rfl, rfl, rfl⟩, rfl, rfl, rfl, rfl, rfl, rfl, rfl⟩
  case core =>
    intro c
    rw [show c = Core.reset from State.reset_core ep]
    exact ⟨rfl, rfl, fun w => congrArg Frame.st (Core.reset_win w), rfl, rfl, rfl, rfl, rfl, rfl, rfl, rfl, fun k => vget_replicate 64 0 k, rfl,
      fun k => congrArg Handler.state (vget_replicate 64 Handler.empty k), rfl, rfl, rfl, rfl, rfl, rfl,
      fun k => vget_replicate 64 JoinCtr.free k, Core.reset_fustat⟩
  case geode =>
    intro q
    rw [show q = Geode.reset from State.reset_geode g]
    exact ⟨rfl, rfl, rfl, rfl, fun a => congrArg AccSet.tag (vget_replicate 4 AccSet.freeSet a), fun k => rfl, rfl⟩

end Sys2Proof.Machine
end

section
/-! Instructions of the message unit: SEND, REPLY, BIND, UNBIND and SWAPH (07_message_unit.md R252 to R259). -/

namespace Sys2Proof.Machine
open Sys2Proof.Safety

/-- The room that a result for x[rd] needs, none for x0 (R46). -/
theorem State.withRoom_resultsOf {s : State} {d : Reg} {entries : Nat} {go : State → State} (h : hasRoom s (resultsOf d) entries) :
    s.withRoom (if d = 0 then 0 else 1) entries go = go s :=
  State.withRoom_go h
/-- A result that a deterministic frame may not ask for (R378) is not asked for. -/
theorem State.det_result_permitted {s : State} {d : Reg} (h : s.det = false ∨ d = 0) : (s.det && d != 0) = false := by
  obtain h | rfl := h
  · rw [h, Bool.false_and]
  · rw [bne_self_eq_false, Bool.and_false]

/-! ## SEND and REPLY (R256, R257) -/

/-- A message of the issuing frame at an offset of LM that keeps R248 and lies in LM, with room for it and its status (R256). -/
def State.messageLegal (s : State) (x : Word) (d : Reg) : Prop :=
  let c := s.lmWordInOrder x.toNat
  zeroField x 19 45 = true ∧ x.toNat % 8 = 0 ∧ ctlOk c = true ∧ x.toNat + 8 + 8 * ctlWords c ≤ 0x80000 ∧
    (s.det = false ∨ d = 0) ∧ hasRoom s (resultsOf d) 1

/-- The state in which the message at an offset is counted and on its way to handler `h` of a destination (R256). -/
def State.messageSent (s : State) (x : Word) (d : Reg) (t : Dest) (h : Nat) : State :=
  let c := s.lmWordInOrder x.toNat
  let body := (List.range (ctlWords c)).map (fun k => s.lmWordInOrder (x.toNat + 8 + 8 * k))
  let (u, v) := s.newMail d
  let m := ActiveMsg.mk v.srcDev v.iss.ep t.core t.dev v.cf.asid v.cf.level v.cf.fm (setFld c 0 6 h) body v.iss.win v.cf.fid u
  (v.countSent v.iss.ep v.cf.asid).releaseThen .core [activeEvent m]

section
variable {s : State} {b a d : Reg} {t : Dest}

/-- A legal message leaves for a destination that may be sent to; the front end's is its event handler 63 (R255). -/
theorem State.sendMessage_sends {x bad : Word} {handler : Word → Nat} {dest : State → Option Dest} (hm : s.messageLegal x d)
    (hd : dest s = some t) (hok : s.destOk t (if t.fe then 63 else handler (s.lmWordInOrder x.toNat)) = true) :
    s.sendMessage x handler dest bad d = s.messageSent x d t (if t.fe then 63 else handler (s.lmWordInOrder x.toNat)) := by
  obtain ⟨hz, ha, hc, hl, hdet, hr⟩ := hm
  simp only [State.sendMessage, hz, ha, hc, hd, hok, gt_iff_lt, Nat.not_lt.2 hl, State.det_result_permitted hdet,
    State.withRoom_resultsOf hr, beq_iff_eq, bne_self_eq_false, Bool.not_true, Bool.or_false, decide_false, Bool.false_eq_true, if_false]
  rfl
theorem execSend_sends (hm : s.messageLegal (s.xr a) d) (hd : s.destWord (s.xr b) = some t)
    (hok : s.destOk t (if t.fe then 63 else fld (s.lmWordInOrder (s.xr a).toNat) 0 6) = true) :
    execSend b a d s = .next (s.messageSent (s.xr a) d t (if t.fe then 63 else fld (s.lmWordInOrder (s.xr a).toNat) 0 6)) := by
  rw [execSend]
  exact congrArg _ (State.sendMessage_sends (handler := fun c => fld c 0 6) (dest := fun u => u.destWord (s.xr b)) hm hd hok)
theorem execReply_sends {dev : BitVec 22} {src next : Nat} (hm : s.messageLegal (s.xr a) d) (hrep : s.cf.reply = some (dev, src, next))
    (hok : s.destOk (Dest.mk src (if dev == s.srcDev then none else some dev) false) next = true) : execReply a d s =
      .next (s.messageSent (s.xr a) d (Dest.mk src (if dev == s.srcDev then none else some dev) false) next) := by
  rw [execReply, hrep]
  exact congrArg _ (State.sendMessage_sends (handler := fun _ => next) hm rfl hok)
end

/-! ## BIND (R258) -/

/-- A block of BIND at an offset of LM, and the ring that it names, keep R258. -/
def State.bindBlockLegal (s : State) (o : Word) : Prop :=
  let w1 := s.lmWordInOrder (o.toNat + 8)
  zeroField o 19 45 = true ∧ o.toNat % 8 = 0 ∧ o.toNat + 16 ≤ 0x80000 ∧ zeroField w1 36 28 = true ∧ fld w1 32 4 ≤ 6 ∧
    fld w1 0 32 % 512 = 0 ∧ fld w1 0 32 + 512 * 2 ^ fld w1 32 4 ≤ 0x74000 ∧ s.kindOk (s.lmWordInOrder o.toNat) = true

/-- An entry that BIND binds to the block at an offset: BOUND, at the first slot of its ring, with nothing staged (R252, R258). -/
def State.boundTo (s : State) (o : Word) (e : Handler) : Handler :=
  let w0 := s.lmWordInOrder o.toNat
  let w1 := s.lmWordInOrder (o.toNat + 8)
  { e with kind := w0, asid := handlerAsid w0 s.cf.asid, state := 1, head := 0, rxlog2 := fld w1 32 4, rxbase := fld w1 0 32
           staged := 0, waiters := [] }

section
variable {s : State} {b a d : Reg}

/-- Past its checks BIND turns on whether the handler is free. -/
theorem execBind_checked (hi : s.handlerOk (s.xr a) = true) (hb : s.bindBlockLegal (s.xr b)) (hr : hasRoom s (resultsOf d) 0) :
    execBind b a d s = .next (if (s.cc.handler (s.xr a).toNat).state = 0
      then (s.setHandler s.iss.ep (s.xr a).toNat (s.boundTo (s.xr b) (s.cc.handler (s.xr a).toNat))).answerCode d 0
      else s.answerCode d 1) := by
  obtain ⟨hz, ha, hin, hw, hlg, hbase, hring, hk⟩ := hb
  simp only [execBind, hi, hz, ha, hw, hbase, hk, gt_iff_lt, Nat.not_lt.2 hin, Nat.not_lt.2 hlg, Nat.not_lt.2 hring,
    State.withRoom_resultsOf hr, bne_self_eq_false, Bool.not_true, Bool.or_false, decide_false, Bool.false_eq_true, if_false,
    beq_iff_eq, bne_iff_ne, ite_not]
  rfl
end

/-! ## UNBIND and SWAPH (R252, R259) -/

/-- An instruction on a handler entry, read off by its cases: one EMPTY, one of another ASID, one that the frame owns (R252). -/
theorem Out.of_entry {o : Out} {empty : Prop} [Decidable empty] {owns : Bool} {x y z : State}
    (h : o = .next (if empty then x else if owns = false then y else z)) :
    (empty → o = .next x) ∧ (¬ empty → owns = false → o = .next y) ∧ (¬ empty → owns = true → o = .next z) := by
  subst h
  refine ⟨fun he => ?_, fun he ho => ?_, fun he ho => ?_⟩
  · rw [if_pos he]
  · rw [if_neg he, if_pos ho]
  · rw [if_neg he, if_neg (ne_false_of_eq_true ho)]

/-- The SWAPH that waits for the commit of its kind word, if it has a result. -/
def State.commitWaiter (s : State) (u : Option Nat) : List (Nat × Nat × Nat) := u.toList.map (fun u => (s.iss.win, s.cf.fid, u))

section
variable {s : State} {b a d : Reg} {e : Handler}

/-- What UNBIND answers, or does to a handler of the ASID. -/
theorem execUnbind_checked (hi : s.handlerOk (s.xr a) = true) (hr : hasRoom s (resultsOf d) 0) (he : s.cc.handler (s.xr a).toNat = e) :
    execUnbind a d s = .next (if e.state = 0 then s.answerCode d 2 else if s.ownsHandler e = false then s.answerCode d 3
      else ((s.setHandler s.iss.ep (s.xr a).toNat { Handler.empty with busy := e.busy }).answerWaiters s.iss.ep e.waiters 2).answerCode d 0) := by
  simp only [execUnbind, hi, he, State.withRoom_resultsOf hr, beq_iff_eq, Bool.not_true, Bool.not_eq_true', Bool.false_eq_true, if_false]
/-- What SWAPH answers, or stages for a handler of the ASID. -/
theorem execSwaph_checked (hi : s.handlerOk (s.xr a) = true) (hk : s.kindOk (s.xr b) = true) (hr : hasRoom s (resultsOf d) 0)
    (he : s.cc.handler (s.xr a).toNat = e) :
    execSwaph b a d s = .next (if e.state = 0 then s.answerCode d 2 else if s.ownsHandler e = false then s.answerCode d 3
      else
        let r := s.newResult d
        (r.2.setHandler r.2.iss.ep (s.xr a).toNat
          { e with state := 2, staged := s.xr b, waiters := e.waiters ++ r.2.commitWaiter r.1 }).later
          (.handlerCommit r.2.iss.ep (s.xr a).toNat)) := by
  simp only [execSwaph, hi, hk, he, State.withRoom_resultsOf hr, beq_iff_eq, Bool.not_true, Bool.not_eq_true', Bool.false_eq_true, if_false]
  rfl
end

/-- Settles O25: a legal message is sent, and each handler instruction, its operands checked, turns on the state and owner of the entry. -/
theorem messageInstructionsComplete : Obligations.MessageInstructionsComplete := by
  unfold Obligations.MessageInstructionsComplete
  intro s b a d x room det c body sent legal
  refine ⟨fun hl t => execSend_sends hl, fun hl dev src next => execReply_sends hl, ?bind, ?unbind, ?swaph⟩
  case bind =>
    intro o w0 w1 lg base e hi hz ha hin hw hlg hbase hring hk hr
    have bind := execBind_checked hi ⟨hz, ha, hin, hw, hlg, hbase, hring, hk⟩ hr
    exact ⟨fun he => bind.trans (congrArg _ (if_neg he)), fun he => bind.trans (congrArg _ (if_pos he))⟩
  case unbind => exact fun hi hr => Out.of_entry (execUnbind_checked hi hr rfl)
  case swaph => exact fun hi hk hr => Out.of_entry (execSwaph_checked hi hk hr rfl)

end Sys2Proof.Machine
end

section
/-! Accesses, arms, code lines and HOST accesses at the ports that perform them (04_memory.md R145; 06_frame_unit.md R194, R213;
07_message_unit.md R236; 12_home_agents.md R417). -/

namespace Sys2Proof.Machine

/-! ## The steps act on the event they are -/

section
variable {s : State} {a : Access}

theorem exec_atomic_of_ev (h : s.ev = some (.atomic a)) : exec .atomic s = execAtomic a s := by
  rw [show exec .atomic s = runAtomic s from rfl, runAtomic, h]
theorem exec_arm_of_ev {q : ArmReq} (h : s.ev = some (.arm q)) : exec .arm s = execArm q s := by
  rw [show exec .arm s = runArm s from rfl, runArm, h]
theorem exec_armack_of_ev {q : ArmReq} {refused : Bool} (h : s.ev = some (.armack q refused)) : exec .armack s = execArmack q refused s := by
  rw [show exec .armack s = runArmack s from rfl, runArmack, h]
theorem exec_codeFill_of_ev {ep : Nat} {id : BitVec 16} {va : Word} (h : s.ev = some (.codeFill ep id va)) :
    exec .codeFill s = execCodeFill ep id va s := by
  rw [show exec .codeFill s = runCodeFill s from rfl, runCodeFill, h]
theorem exec_hostAccessRequest_of_ev (h : s.ev = some (.hostAccessRequest a)) : exec .hostAccessRequest s = execHostAccessRequest a s := by
  rw [show exec .hostAccessRequest s = runHostAccessRequest s from rfl, runHostAccessRequest, h]
theorem exec_nonPostedReadCompletion_of_ev {bytes : List Byte} {poison : Bool} (h : s.ev = some (.nonPostedReadCompletion a bytes poison)) :
    exec .nonPostedReadCompletion s = execNonPostedReadCompletion a bytes poison s := by
  rw [show exec .nonPostedReadCompletion s = runNonPostedReadCompletion s from rfl, runNonPostedReadCompletion, h]
end

/-! ## LOAD, STORE and ATOMIC at an LM port (R236) -/

section
variable {s : State} {a : Access}

/-- An event that brings an access to its LM port. -/
def bringsAccess (ev : Event) (a : Access) : Prop := ev = .load a ∨ ev = .store a ∨ ev = .atomic a

/-- A port that takes packets performs an access whole and answers with what it read. -/
theorem lmServe_access {ev : Event} (he : bringsAccess ev a) (hr : (s.core a.owner).portRefuses = false) (hp : a.pair? = none) : lmServe ev s =
    (s.lmPerform a.owner a.addr a.op).1.send 1 a.owner a.core
      (.data a (s.lmPerform a.owner a.addr a.op).2.1 (s.lmPerform a.owner a.addr a.op).2.2) := by
  obtain rfl | rfl | rfl := he <;> simp only [lmServe, hr, hp, Bool.false_eq_true, if_false]
/-- A port that takes packets performs the elements of a pair in turn and acknowledges the packet. -/
theorem lmServe_pair {x y : List Byte} (hr : (s.core a.owner).portRefuses = false) (hp : a.pair? = some (x, y)) : lmServe (.store a) s =
    ((s.lmPerform a.owner a.addr (.store x)).1.lmPerform a.owner (a.addr + x.length) (.store y)).1.send 1 a.owner a.core (.data a [] false) := by
  simp only [lmServe, hr, hp, Bool.false_eq_true, if_false]
end

/-! ## ARM at an LM port (R213) -/

section
variable {s : State} {q : ArmReq}

/-- A port with a free monitor takes an arm: a word that meets the condition releases at once. -/
theorem State.lmArm_takes (hm : (s.core q.owner).monitors.length < 16) (hr : (s.core q.owner).portRefuses = false) : s.lmArm q =
    if s.armHoldsLm q.owner q then (s.sendRelease q.owner q.rel).send 1 q.owner q.rel.srcEp (.armack q false)
    else (s.setCore q.owner { s.core q.owner with monitors := (s.core q.owner).monitors ++ [Monitor.mk
        (((List.range 16).find? (fun i => !(s.core q.owner).monitors.any (fun m => m.idx == i))).getD 0) q] }).send 1 q.owner q.rel.srcEp
      (.armack q false) := by
  simp only [State.lmArm, Nat.not_le.2 hm, hr, decide_false, Bool.or_false, Bool.false_eq_true, if_false]
theorem execArm_local (hs : q.space ≠ 2) (hm : (s.ring q.owner).mode = 0) (hl : (s.ring q.owner).entries.length < 64) :
    execArm q s = .next (s.lmArm q) := by
  rw [execArm, if_neg (mt eq_of_beq hs), State.arrive_off hm hl]
  rfl
theorem execArm_global (hs : q.space = 2) : execArm q s = .next (s.homeArrive
    (HomeReq.mk (.armReq q) 512 q.rel.srcEp q.rel.asid q.owner (lineOf q.addr) false 0 0 false 0 0 false false 0 false
      q.rel.prio.toNat true)) := by
  rw [execArm, if_pos (beq_iff_eq.2 hs)]
end

/-! ## CODE_FILL and HOST accesses (R145, R194) -/

section
variable {s : State} {a : Access}

theorem execCodeFill_fills {ep : Nat} {id : BitVec 16} {va : Word} (h : (s.fillCode ep id va.toNat).1 = 0) :
    execCodeFill ep id va s = .next (s.fillCode ep id va.toNat).2 := by
  simp only [execCodeFill, h, beq_self_eq_true, if_true]
theorem execHostAccessRequest_write {b : List Byte} (h : a.op = .store b) :
    execHostAccessRequest a s = .next ((s.out (.hostWrite a.addr b)).send 1 hostEp a.core (.data a [] false)) := by
  rw [execHostAccessRequest, h]
theorem execHostAccessRequest_read {n : Nat} (h : a.op = .load n) : execHostAccessRequest a s = .next (s.out (.hostRead a)) := by
  rw [execHostAccessRequest, h]
/-- A completion of the size asked for answers with its bytes, none cut and none filled in. -/
theorem execNonPostedReadCompletion_whole {bytes : List Byte} {poison : Bool} (h : bytes.length = a.op.size) :
    execNonPostedReadCompletion a bytes poison s = .next (s.send 1 hostEp a.core (.data a bytes poison)) := by
  rw [execNonPostedReadCompletion, List.take_left' h]
end

/-- Settles O29: a port whose trace ring is off performs what arrives, and each other step is the effect of its event. -/
theorem accessesAtTheirPorts : Obligations.AccessesAtTheirPorts := by
  unfold Obligations.AccessesAtTheirPorts
  intro s a q p serves r answered
  refine ⟨?single, ?pair, ?arm, fun he hs => (exec_arm_of_ev he).trans (execArm_global hs), exec_armack_of_ev, exec_armack_of_ev,
    fun id va he hk => (exec_codeFill_of_ev he).trans (execCodeFill_fills hk), ?host,
    fun bytes poison he hb => (exec_nonPostedReadCompletion_of_ev he).trans (execNonPostedReadCompletion_whole hb)⟩
  case single =>
    intro ⟨hm, hl, hr⟩ hp
    have performed {ev : Event} (he : bringsAccess ev a) : s.arrive a.owner ev lmHdr lmServe = answered :=
      (State.arrive_off hm hl).trans (lmServe_access he hr hp)
    exact ⟨fun he => (exec_load_of_ev he).trans (congrArg _ (performed (.inl rfl))),
      fun he => (exec_store_of_ev he).trans (congrArg _ (performed (.inr (.inl rfl)))),
      fun he => (exec_atomic_of_ev he).trans (congrArg _ (performed (.inr (.inr rfl))))⟩
  case pair =>
    intro x y ⟨hm, hl, hr⟩ hp he t
    exact (exec_store_of_ev he).trans (congrArg _ ((State.arrive_off hm hl).trans (lmServe_pair hr hp)))
  case arm =>
    intro he hs ⟨hm, hl, hr⟩ hroom
    rw [exec_arm_of_ev he, execArm_local hs hm hl, State.lmArm_takes hroom hr]
    exact ⟨fun hc => congrArg _ (if_pos hc), fun hc => congrArg _ (if_neg (ne_true_of_eq_false hc))⟩
  case host =>
    intro he
    rw [exec_hostAccessRequest_of_ev he]
    exact ⟨fun _ => execHostAccessRequest_write, fun _ => execHostAccessRequest_read⟩

end Sys2Proof.Machine
end

section
/-! Active messages and commits at the core of their handler, and the handle entry that a window waits for (07_message_unit.md R247 to R253;
04_memory.md R114, R117). -/

namespace Sys2Proof.Machine

/-! ## The steps act on the event they are -/

section
variable {s : State}

theorem exec_active_of_ev {m : ActiveMsg} (h : s.ev = some (.active m)) : exec .active s = execActive m s := by
  rw [show exec .active s = runActive s from rfl, runActive, h]
theorem exec_handlerCommit_of_ev {ep h : Nat} (he : s.ev = some (.handlerCommit ep h)) :
    exec .handlerCommit s = execHandlerCommit ep h s := by
  rw [show exec .handlerCommit s = runHandlerCommit s from rfl, runHandlerCommit, he]
theorem exec_handleEntryRead_of_ev {ep win index : Nat} {asid : BitVec 16} (h : s.ev = some (.handleEntryRead ep win asid index)) :
    exec .handleEntryRead s = execHandleEntryRead ep win asid index s := by
  rw [show exec .handleEntryRead s = runHandleEntryRead s from rfl, runHandleEntryRead, h]
end

/-! ## ACTIVE (R247, R249, R250) -/

/-- The handler that serves a message at its core: the one named, or handler 0 where that is EMPTY (R249). -/
def Core.servingHandler (c : Core) (m : ActiveMsg) : Nat :=
  if (c.handler (fld m.control 0 6)).state = 0 then 0 else fld m.control 0 6
/-- The status of a message that is taken: 2 where handler 0 takes it for another (R250). -/
def Core.takenStatus (c : Core) (m : ActiveMsg) : Nat := if (c.handler (fld m.control 0 6)).state = 0 then 2 else 0

theorem Core.servingHandler_takenStatus (c : Core) (m : ActiveMsg) :
    (if (c.handler (fld m.control 0 6)).state == 0 then (0, 2) else (fld m.control 0 6, 0)) = (c.servingHandler m, c.takenStatus m) := by
  simp only [Core.servingHandler, Core.takenStatus, beq_iff_eq]
  split <;> rfl

/-- The state in which a message has its slot in the ring of handler `h`: its task's release is on its way, and it is answered (R249). -/
def State.messageTaken (s : State) (m : ActiveMsg) (h : Nat) (e : Handler) (st : Nat) : State :=
  let k := e.head
  let off := e.rxbase + 512 * k
  let u := (s.setHandler m.dst h { e with busy := e.busy ||| BitVec.ofNat 64 (2 ^ k), head := (k + 1) % 2 ^ e.rxlog2 }).lmWrite m.dst off
    ((m.control :: m.body).flatMap (fun w => toBytes 8 w.toNat))
  let arg := fun (i : Nat) => m.body.getD i 0
  let words := [e.kind, BitVec.ofNat 64 (e.asid.toNat * 2 ^ 48), BitVec.ofNat 64 off, m.control, arg 0, arg 1, arg 2, arg 3]
  let r := Release.mk m.srcDev m.src 0 m.dst none (BitVec.ofNat 3 (fld e.kind 0 3)) e.asid 0 0 (BitVec.ofNat 16 h) m.fm
  let (en, v) := u.mkEntry m.dst r words (some (h, k)) (some (m.srcDev, m.src, fld m.control 8 6))
  ((if m.srcDev == v.srcDev then v.countRecv m.dst m.asid else v).respondMessage m st).later (.releaseArrival m.dst en)

section
variable {s : State} {m : ActiveMsg} {h st : Nat} {e : Handler}

/-- At a core that runs, a message of the ASID of the handler that serves it turns on the slot at HEAD. -/
theorem execActive_served (hh : (s.core m.dst).servingHandler m = h) (hst : (s.core m.dst).takenStatus m = st)
    (he : (s.core m.dst).handler h = e) (hp : (s.core m.dst).portRefuses = false)
    (hc : (s.core m.dst).code ≠ 3 ∧ (s.core m.dst).code ≠ 4 ∧ (s.core m.dst).code ≠ 5) (hopen : e.state ≠ 0)
    (ha : fld e.kind 0 3 < 6 → h ≠ 0 → m.asid = e.asid) :
    execActive m s = .next (if e.busy.getLsbD e.head = true then s.respondMessage m 1 else s.messageTaken m h e st) := by
  obtain ⟨h3, h4, h5⟩ := hc
  have running : ((s.core m.dst).code == 3 || (s.core m.dst).code == 4 || (s.core m.dst).code == 5) = false := by
    rw [beq_eq_false_iff_ne.2 h3, beq_eq_false_iff_ne.2 h4, beq_eq_false_iff_ne.2 h5]
    rfl
  have isOpen : (e.state == 0) = false := beq_eq_false_iff_ne.2 hopen
  have sameAsid : (decide (fld e.kind 0 3 < 6) && h != 0 && m.asid != e.asid) = false := by
    simp only [Bool.and_eq_false_iff, decide_eq_false_iff_not, bne_eq_false_iff_eq]
    tauto
  rw [execActive, Core.servingHandler_takenStatus, hh, hst]
  simp only [he, hp, running, isOpen, sameAsid, Bool.false_eq_true, if_false]
  rfl
end

/-! ## HANDLER_COMMIT (R252, R253) -/

theorem execHandlerCommit_commits {s : State} {ep h : Nat} {e : Handler} (he : (s.core ep).handler h = e) (hs : e.state = 2) :
    execHandlerCommit ep h s = .next ((s.setHandler ep h { e with
      kind := e.staged, asid := handlerAsid e.staged e.asid, state := 1, staged := 0, waiters := [] }).answerWaiters ep e.waiters 0) := by
  simp only [execHandlerCommit, he, hs, bne_self_eq_false, Bool.false_eq_true, if_false]

/-! ## HANDLE_ENTRY_READ (R114, R117) -/

/-- The words of an entry given to the window that waits for it, if its frame is still of the ASID. -/
def State.giveEntry (s : State) (ep win : Nat) (asid : BitVec 16) (index : Nat) (ws : List Word) : State :=
  s.modFrame ep win (fun f =>
    if f.hold == .answer && f.asid == asid then { f with answer := some (BitVec.ofNat 64 index :: ws) } else f)
/-- A slab whose handle cache keeps an entry just read, the newest of at most 1,024. -/
def Slab.keepEntry (b : Slab) (asid : BitVec 16) (index : Nat) (ws : List Word) : Slab :=
  let l := b.hcache ++ [(asid, index, ws)]
  { b with hcache := l.drop (l.length - 1024) }

section
variable {s : State} {ep win index : Nat} {asid : BitVec 16}

theorem execHandleEntryRead_cached {e : BitVec 16 × Nat × List Word}
    (h : (s.slab (epSlab ep)).hcache.find? (fun e => e.1 == asid && e.2.1 == index) = some e) :
    execHandleEntryRead ep win asid index s = .next (s.giveEntry ep win asid index e.2.2) := by
  simp only [execHandleEntryRead, h, Option.isSome_some, if_true]
  rfl
theorem execHandleEntryRead_fromTable (h : (s.slab (epSlab ep)).hcache.find? (fun e => e.1 == asid && e.2.1 == index) = none) :
    execHandleEntryRead ep win asid index s = .next ((s.modSlab (epSlab ep) (fun b =>
      b.keepEntry asid index (s.paWords (s.entryAddr asid index) 4))).giveEntry ep win asid index (s.paWords (s.entryAddr asid index) 4)) := by
  simp only [execHandleEntryRead, h, Option.isSome_none, Bool.false_eq_true, if_false]
  rfl
end

/-- Settles O38: a message turns on the slot of the handler that serves it, a commit on its entry's state and a read on the slab's cache. -/
theorem messageArrivalsAndHandleReads : Obligations.MessageArrivalsAndHandleReads := by
  unfold Obligations.MessageArrivalsAndHandleReads
  intro s m ep h win asid index
  refine ⟨?active, fun he hs => (exec_handlerCommit_of_ev he).trans (execHandlerCommit_commits rfl hs), ?read⟩
  case active =>
    intro c h0 h st e k hev hp h3 h4 h5 hopen ha
    have served := (exec_active_of_ev hev).trans (execActive_served (e := e) rfl rfl rfl hp ⟨h3, h4, h5⟩ hopen ha)
    exact ⟨fun hb => served.trans (congrArg _ (if_pos hb)), fun hb => served.trans (congrArg _ (if_neg (ne_true_of_eq_false hb)))⟩
  case read =>
    intro sl give hit he
    rw [exec_handleEntryRead_of_ev he]
    exact ⟨fun _ => execHandleEntryRead_cached, execHandleEntryRead_fromTable⟩

end Sys2Proof.Machine
end

section
/-! The guards of a vector instruction, and what it does without lanes (08_vector_pool.md R265, R271, R276, R277). -/

namespace Sys2Proof.Machine
open Sys2Proof.Safety

/-! ## Rounding codes and scalar operands that are not reserved (R55, R288) -/

section
variable {s : State}

theorem State.mode_isSome {r : BitVec 3} (hf : s.cf.fcsr.toNat / 32 % 8 ≤ 4) (h5 : r ≠ 5) (h6 : r ≠ 6) : (s.mode r).isSome = true := by
  obtain rfl | h7 := eq_or_ne r 7
  · rw [State.dyn_legal hf, Option.isSome_some]
  · have hr : r.toNat ≤ 4 := by bv_omega
    rw [State.mode, if_neg (mt eq_of_beq h7), if_pos hr, Option.isSome_some]
theorem rndCode_not_reserved (rm : Rnd) : rndCode rm ≠ 5 ∧ rndCode rm ≠ 6 := by cases rm <;> decide

theorem rounding_legal {fp : Bool} {m : Option (BitVec 3)} (h : fp = true → m.isSome = true) : (fp && m.isNone) = false := by
  cases fp with
  | false => rfl
  | true => rw [Bool.true_and, Option.isNone_eq_false_iff, h rfl]
theorem roundingForm_legal {fp rounds : Bool} {m : Option (BitVec 3)} (h : fp = true → rounds = true → m.isSome = true) :
    (fp && rounds && m.isNone) = false := rounding_legal fun hc => (Bool.and_eq_true_iff.1 hc).elim h
theorem scalar_legal {c : Bool} {r : Reg} (h : c = true → r.toNat < 16) : (c && decide (16 ≤ r.toNat)) = false := by
  cases c with
  | false => rfl
  | true => rw [Bool.true_and, decide_eq_false (Nat.not_le.2 (h rfl))]
end

/-! ## A guard that passes before an effect that cannot fault (R276, R277, R284) -/

/-- A vector instruction whose guards pass and whose effect leaves the bundle going on has its effect, then consumes its streams. -/
theorem State.vGuard_passes {s : State} {aSlot bad pairs ok : Bool} {srcs : List Reg} {dst : Option Reg} {rtag : Tag} {go : State → State}
    (hr : vReady s srcs dst pairs rtag) (hb : bad = false) (ho : ok = true) (hi : (go s).iss = s.iss) :
    s.vGuard (VIn.mk aSlot srcs dst bad pairs ok rtag) go = (go s).consume srcs := by
  obtain ⟨-, -, -, -, -, hgo⟩ := id hr
  exact s.vGuard_ready _ go hr hb ho (hi ▸ hgo)

/-! ## Without lanes (R276) -/

section
variable {s : State} (hn : s.cf.nLanes = 0)
include hn

theorem State.eval56_noLanes (aSlot : Bool) : s.eval56 aSlot = (if aSlot then s.iss.w1 else s.iss.w0).setWidth 64 := by
  rw [State.eval56, hn, Nat.zero_mul, Nat.zero_add]
  exact BitVec.ofNat_toNat ..
theorem State.vGuard_noLanes {aSlot bad pairs ok : Bool} {srcs : List Reg} {dst : Option Reg} {rtag : Tag} {go : State → State}
    (hb : bad = false) : s.vGuard (VIn.mk aSlot srcs dst bad pairs ok rtag) go
      = s.raise 56 ((if aSlot then s.iss.w1 else s.iss.w0).setWidth 64) := by
  simp only [State.vGuard, hb, hn, State.eval56_noLanes hn, beq_self_eq_true, Bool.true_or, Bool.false_eq_true, if_false, if_true]

theorem State.vElem_noLanes {e : Ew} {rm : BitVec 3} {b a d : Reg} {op : EwOp} (hm : (s.mode rm).isSome = true)
    (hb : e.x = true → b.toNat < 16) : s.vElem e rm b a d op = s.raise 56 (s.iss.w1.setWidth 64) := by
  unfold State.vElem
  have scalar (h : (e.x && isFp (s.vt a) && !e.shift) = true) : b.toNat < 16 := by
    simp only [Bool.and_eq_true] at h
    obtain ⟨⟨hx, -⟩, -⟩ := h
    exact hb hx
  exact State.vGuard_noLanes hn (Bool.or_eq_false_iff.2 ⟨roundingForm_legal fun _ _ => hm, scalar_legal scalar⟩)
theorem State.vReduce_noLanes {sc rounds : Bool} {rm : BitVec 3} {a d : Reg} {op : Tag → EwOp} (hm : (s.mode rm).isSome = true)
    (hd : sc = true → d.toNat < 16) : s.vReduce sc rounds rm a d op = s.raise 56 (s.iss.w1.setWidth 64) := by
  unfold State.vReduce
  exact State.vGuard_noLanes hn (Bool.or_eq_false_iff.2
    ⟨roundingForm_legal fun _ _ => hm, scalar_legal fun h => hd (Bool.and_eq_true_iff.1 h).1⟩)
theorem State.vFused_noLanes {neg : Bool} {c b a d : Reg} (hm : s.dyn.isSome = true) :
    s.vFused neg c b a d = s.raise 56 (s.iss.w1.setWidth 64) := by
  unfold State.vFused
  exact State.vGuard_noLanes hn (rounding_legal fun _ => hm)
theorem State.vSpecial_noLanes {rm : Rnd} {a d : Reg} {lat : Nat} {op : BitVec 3 → Nat → Nat × FlagSet}
    (hm : (s.mode (rndCode rm)).isSome = true) : s.vSpecial rm a d lat op = s.raise 56 (s.iss.w1.setWidth 64) := by
  unfold State.vSpecial
  exact State.vGuard_noLanes hn (rounding_legal fun _ => hm)
/-- What asks for lanes before anything else finds none. -/
theorem State.lanesFirst_noLanes {t : State} :
    (if s.cf.nLanes == 0 then s.raise 56 (s.eval56 false) else t) = s.raise 56 (s.iss.w0.setWidth 64) :=
  (if_pos (beq_iff_eq.2 hn)).trans (congrArg _ (State.eval56_noLanes hn false))
theorem execVsbind_noLanes {a d : Reg} : execVsbind a d s = .next (s.raise 56 (s.iss.w0.setWidth 64)) :=
  congrArg _ (State.lanesFirst_noLanes hn)
theorem execVsfree_noLanes {d : Reg} : execVsfree d s = .next (s.raise 56 (s.iss.w0.setWidth 64)) :=
  congrArg _ (State.lanesFirst_noLanes hn)
theorem execVfree_noLanes : execVfree s = .next s := congrArg _ (if_pos (beq_iff_eq.2 hn))
end

/-- VSCAN with fx[3] set is illegal whatever else it meets (R40, R292; log entry 10). -/
theorem execVscan_reserved {s : State} {rm : BitVec 3} {a d : Reg} : execVscan true rm a d s = .next s.illegalA := rfl

/-- Settles O57: once its codes and registers are legal, the guard of each instruction finds no lanes, and VFREE no grant. -/
theorem vectorInstructionsNeedLanes : Obligations.VectorInstructionsNeedLanes := by
  unfold Obligations.VectorInstructionsNeedLanes
  intro s x e sat r rm t cond tb fmt h c b a d hn hf h5 h6 hx he A C
  have hr : (s.mode r).isSome = true := State.mode_isSome hf h5 h6
  have hrm : (s.mode (rndCode rm)).isSome = true := State.mode_isSome hf (rndCode_not_reserved rm).1 (rndCode_not_reserved rm).2
  have hdyn : s.dyn.isSome = true := State.mode_isSome hf (by decide) (by decide)
  have binary {op : EwOp} {lat : Nat} {sh same takes rounds : Bool} {rtag : Tag} {q : BitVec 3} (hq : (s.mode q).isSome = true) :
      (.next (s.vElem (Ew.mk x false sh same takes rounds lat rtag) q b a d op) : Out) = A := congrArg _ (State.vElem_noLanes hn hq hx)
  have two {op : EwOp} {lat : Nat} {sh same takes rounds : Bool} {rtag : Tag} :
      (.next (s.vElem (Ew.mk x false sh same takes rounds lat rtag) r b a d op) : Out) = A := binary hr
  have unary {op : EwOp} : (.next (s.vElem (s.ewUnary a) r 0 a d op) : Out) = A :=
    congrArg _ (State.vElem_noLanes hn hr (absurd · Bool.false_ne_true))
  have fused {neg : Bool} : (.next (s.vFused neg c b a d) : Out) = A := congrArg _ (State.vFused_noLanes hn hdyn)
  have reduce {rounds : Bool} {q : BitVec 3} {op : Tag → EwOp} (hq : (s.mode q).isSome = true) :
      (.next (s.vReduce e rounds q a d op) : Out) = A := congrArg _ (State.vReduce_noLanes hn hq he)
  have special {lat : Nat} {op : BitVec 3 → Nat → Nat × FlagSet} : (.next (s.vSpecial rm a d lat op) : Out) = A :=
    congrArg _ (State.vSpecial_noLanes hn hrm)
  have guardA {srcs : List Reg} {dst : Option Reg} {bad pairs ok : Bool} {rtag : Tag} {go : State → State} (hb : bad = false) :
      (.next (s.vGuard (VIn.mk true srcs dst bad pairs ok rtag) go) : Out) = A := congrArg _ (State.vGuard_noLanes hn hb)
  have guardC {srcs : List Reg} {dst : Option Reg} {pairs ok : Bool} {rtag : Tag} {go : State → State} :
      (.next (s.vGuard (VIn.mk false srcs dst false pairs ok rtag) go) : Out) = C := congrArg _ (State.vGuard_noLanes hn rfl)
  exact ⟨⟨two, two, two, two, two, two, two, two, two, two, binary rfl, unary, unary, guardA rfl⟩,
    ⟨fused, fused, guardA rfl, guardA (rounding_legal fun _ => hdyn)⟩,
    ⟨reduce hr, reduce rfl, reduce rfl, guardA (rounding_legal fun _ => hr), execVscan_reserved, guardA rfl⟩,
    ⟨special, special, special, special⟩,
    ⟨guardA (Option.isNone_eq_false_iff.2 hr), guardA rfl, guardA rfl, guardA rfl, guardA rfl⟩,
    ⟨guardC, guardC, guardC, guardC, execVsbind_noLanes hn, execVsfree_noLanes hn⟩, execVfree_noLanes hn⟩

end Sys2Proof.Machine
end

section
/-! Elementwise vector instructions (08_vector_pool.md R274, R277, R287, R288). -/

namespace Sys2Proof.Machine
open Sys2Proof.Safety

/-! ## The elements of an operation by its tag (R277, R287) -/

section
variable {t : Tag} {sat : Bool} {g : Fmt → BitVec 3 → Nat → Nat → Nat × FlagSet} {int : Int → Int → Int} {m : BitVec 3}

theorem arithOp_fp {f : Fmt} (h : tagFmt t = some f) : arithOp t sat g int m = g f m := by
  funext p q
  rw [arithOp, h]
theorem arithOp_int (h : tagFmt t = none) :
    arithOp t sat g int m = fun p q => narrow (tagSigned t) sat (tagBits t) (int (elemInt t p) (elemInt t q)) := by
  funext p q
  rw [arithOp, h]
theorem tagFmt_of_isIntTag (h : isIntTag t = true) : tagFmt t = none := by
  cases t with
  | i32 | n32 | i16 | n16 | i8 | n8 => rfl
  | _ => cases h
theorem tagFmt_of_not_isFp (h : isFp t = false) : tagFmt t = none := Option.not_isSome_iff_eq_none.1 (Bool.eq_false_iff.1 h)
theorem isArith_of_isIntTag (h : isIntTag t = true) : isArith t = true := by rw [isArith, h, Bool.or_true]
theorem not_isFp_of_shifts (h : isIntTag t = true ∨ t = .raw) : ¬ isFp t = true := by
  obtain h | rfl := h
  · rw [isFp, tagFmt_of_isIntTag h]
    exact Bool.false_ne_true
  · exact Bool.false_ne_true
end

/-! ## The guard and the operands of an elementwise form (R288) -/

section
variable {s : State} {rm : BitVec 3} {b a d : Reg} {x shift same takes rounds : Bool} {lat : Nat} {rtag : Tag} {op : EwOp}

theorem State.ewSecond_scalar {n w : Nat} {fp : Bool} : s.ewSecond (Ew.mk x false false same takes rounds lat rtag) b n w fp =
    if x then List.replicate n ((if fp then s.fr b else s.xr b).toNat % 2 ^ w) else s.ve b w := by
  cases x with
  | false => rfl
  | true => cases fp <;> rfl
theorem State.ewSecond_count {n w : Nat} {fp : Bool} : s.ewSecond (Ew.mk x false true same takes rounds lat rtag) b n w fp =
    if x then List.replicate n (s.xr b).toNat else s.ve b w := by
  cases x with
  | false => rfl
  | true => cases fp <;> rfl

/-- A form of two sources, or of one and a scalar, whose guards pass answers its operation on each element. -/
theorem State.vElem_binary {op' : Nat → Nat → Nat × FlagSet} {snd : List Nat} (ht : takes = true)
    (hr : vReady s (if x then [a] else [a, b]) (some d) (s.vt a == .fp64) rtag)
    (hm : isFp (s.vt a) = true → rounds = true → (s.mode rm).isSome = true)
    (hb : x = true → isFp (s.vt a) = true → shift = false → b.toNat < 16) (hs : x = false → same = true → s.vt b = s.vt a)
    (hop : op ((s.mode rm).getD 0) = op')
    (hsnd : s.ewSecond (Ew.mk x false shift same takes rounds lat rtag) b (s.ve a (tagBits (s.vt a))).length (tagBits (s.vt a))
      (isFp (s.vt a)) = snd) :
    s.vElem (Ew.mk x false shift same takes rounds lat rtag) rm b a d op =
      vResult s (if x then [a] else [a, b]) d rtag (tagBits (s.vt a)) (List.zipWith op' (s.ve a (tagBits (s.vt a))) snd) lat := by
  subst hop hsnd
  have scalar (h : (x && isFp (s.vt a) && !shift) = true) : b.toNat < 16 := by
    simp only [Bool.and_eq_true, Bool.not_eq_true'] at h
    obtain ⟨⟨hx, hf⟩, hsh⟩ := h
    exact hb hx hf hsh
  have tags : (takes && (x || false || !same || s.vt b == s.vt a)) = true := by
    rw [ht]
    cases x with
    | true => rfl
    | false =>
      cases same with
      | false => rfl
      | true => rw [hs rfl rfl, beq_self_eq_true, Bool.or_true, Bool.and_true]
  unfold State.vElem
  simp only [Bool.or_false] at tags ⊢
  exact State.vGuard_passes hr (Bool.or_eq_false_iff.2 ⟨roundingForm_legal hm, scalar_legal scalar⟩) tags rfl
/-- A form of one source whose guards pass answers its operation on each element. -/
theorem State.vElem_unary {op' : Nat → Nat → Nat × FlagSet} (ht : isArith (s.vt a) = true)
    (hr : vReady s [a] (some d) (s.vt a == .fp64) (s.vt a)) (hm : isFp (s.vt a) = true → (s.mode rm).isSome = true)
    (hop : op ((s.mode rm).getD 0) = op') : s.vElem (s.ewUnary a) rm 0 a d op =
      vResult s [a] d (s.vt a) (tagBits (s.vt a)) ((s.ve a (tagBits (s.vt a))).map (fun p => op' p p)) 4 := by
  rw [← hop, ← List.zipWith_self]
  have tags : (isArith (s.vt a) && true) = true := by rw [ht, Bool.and_true]
  unfold State.vElem
  exact State.vGuard_passes hr (Bool.or_eq_false_iff.2 ⟨roundingForm_legal fun hf _ => hm hf, rfl⟩) tags rfl
end

/-- Settles O16: the guard of each form passes, its operands are those of its form, and its operation is that of the tag. -/
theorem vectorElementwiseResults : Obligations.VectorElementwiseResults := by
  unfold Obligations.VectorElementwiseResults
  intro s x sat rm b a d c t w fp n m srcs snd cnt two sh int rounded scalar
  have arith (hr : vReady s srcs (some d) (t == .fp64) t) (ht : isArith t = true) (hs : x = false → s.vt b = t) (hm : rounded) (hb : scalar)
      {sat : Bool} {lat : Nat} {g : Fmt → BitVec 3 → Nat → Nat → Nat × FlagSet} {i : Int → Int → Int} {op : Nat → Nat → Nat × FlagSet}
      (hop : arithOp t sat g i m = op) :
      (.next (s.vElem (s.ewArith x a lat) rm b a d (arithOp t sat g i)) : Out) = .next (two op lat) :=
    congrArg _ (State.vElem_binary ht hr (fun hf _ => hm hf) (fun hx hf _ => hb hx hf) (fun hx _ => hs hx) hop State.ewSecond_scalar)
  refine ⟨fun hr ht hs hm hb => ⟨fun f hf => ?fp, fun hf => ?int⟩, fun hr ht hs => ?minmax, fun hr hm hb => ?bits, fun hr ht hs => ?shifts,
    fun hr ht hs hb => ?compare, fun hr ht hm => ⟨fun f hf => ?unaryFp, fun hf => ?unaryInt⟩⟩
  case fp =>
    have form := @arith hr ht hs hm hb
    exact ⟨form (arithOp_fp hf), form (arithOp_fp hf), form (arithOp_fp hf), form (arithOp_fp hf), form (arithOp_fp hf)⟩
  case int =>
    have form := @arith hr ht hs hm hb
    have hf := tagFmt_of_not_isFp hf
    exact ⟨form (arithOp_int hf), form (arithOp_int hf), form (arithOp_int hf)⟩
  case minmax =>
    have hf := not_isFp_of_shifts (.inl ht)
    have form := @arith hr (isArith_of_isIntTag ht) hs (absurd · hf) (fun _ => (absurd · hf))
    exact ⟨form (arithOp_int (tagFmt_of_isIntTag ht)), form (arithOp_int (tagFmt_of_isIntTag ht))⟩
  case bits =>
    have form {op : Nat → Nat → Nat × FlagSet} : (.next (s.vElem (s.ewBits x a) rm b a d (fun _ => op)) : Out) = .next (two op 4) :=
      congrArg _ (State.vElem_binary rfl hr (fun hf _ => hm hf) (fun hx hf _ => hb hx hf) (fun _ => (absurd · Bool.false_ne_true)) rfl
        State.ewSecond_scalar)
    exact ⟨form, form, form⟩
  case shifts =>
    have hf := not_isFp_of_shifts ht
    have takes : (isIntTag t || t == .raw) = true := by
      rw [Bool.or_eq_true, beq_iff_eq]
      exact ht
    have form {op op' : Nat → Nat → Nat} (hop : ∀ p q, op p q = op' p q) :
        (.next (s.vElem (s.ewShift x a) rm b a d (fun _ p q => (op p q, 0))) : Out) = .next (sh op') := by
      rw [← funext fun p => funext (hop p)]
      exact congrArg _ (State.vElem_binary takes hr (fun h => absurd h hf) (fun _ h => absurd h hf) (fun hx _ => hs hx) rfl
        State.ewSecond_count)
    refine ⟨form fun p q => ?left, form fun p q => ?right⟩
    case left => rw [Nat.shiftLeft_eq]
    case right => rw [Nat.shiftRight_eq_div_pow]
  case compare =>
    exact congrArg _ (State.vElem_binary ht hr (fun _ => (absurd · Bool.false_ne_true)) (fun hx hf _ => hb hx hf) (fun hx _ => hs hx) rfl
      State.ewSecond_scalar)
  case unaryFp => exact ⟨congrArg _ (State.vElem_unary ht hr hm (arithOp_fp hf)), congrArg _ (State.vElem_unary ht hr hm (arithOp_fp hf))⟩
  case unaryInt =>
    have hf := tagFmt_of_not_isFp hf
    exact ⟨congrArg _ (State.vElem_unary ht hr hm (arithOp_int hf)), congrArg _ (State.vElem_unary ht hr hm (arithOp_int hf))⟩

end Sys2Proof.Machine
end

section
/-! Vector moves, forms of three sources, reductions and scans (08_vector_pool.md R289 to R293; 03_numbers.md R98). -/

namespace Sys2Proof.Machine
open Sys2Proof.Safety

/-! ## Moves (R289) -/

theorem execVmov_fills {s : State} {tg : BitVec 4} {g : Tag} {a d : Reg} (hg : tagOf tg.toNat = some g)
    (hr : vReady s [] (some d) (g == .fp64) g) : execVmov true tg a d s = .next ((s.vOut d g (packElems (tagBits g)
      (List.replicate (if tagBits g = 64 then s.cf.nLanes / 2 else s.cf.nLanes * (32 / tagBits g)) ((s.xr a).toNat % 2 ^ tagBits g)))
      0 4).consume []) := by
  simp only [execVmov, hg, Option.getD_some, beq_iff_eq, if_true, Bool.true_and]
  exact congrArg _ (State.vGuard_passes hr rfl rfl rfl)

/-! ## Fused forms (R290) -/

section
variable {s : State} {c b a d : Reg} (neg : Bool) (hr : vReady s [a, b, c] (some d) (s.vt a == .fp64) (s.vt a)) (hb : s.vt b = s.vt a)
  (hc : s.vt c = s.vt a)
include hr hb hc

/-- FP elements are rounded once under FRM. -/
theorem State.vFused_fp {f : Fmt} (hf : tagFmt (s.vt a) = some f) (hm : (s.mode 7).isSome = true) : s.vFused neg c b a d =
    vResult s [a, b, c] d (s.vt a) (tagBits (s.vt a)) (List.zipWith (fun p q => fMulAdd f ((s.mode 7).getD 0) false neg p q.1 q.2)
      (s.ve a (tagBits (s.vt a))) ((s.ve b (tagBits (s.vt a))).zip (s.ve c (tagBits (s.vt a))))) 6 := by
  simp only [State.vFused, hf, hb, hc, isArith, isFp, Option.isSome_some, beq_self_eq_true]
  exact State.vGuard_passes hr (rounding_legal fun _ => hm) rfl rfl
/-- Integer elements are exact, then wrapped. -/
theorem State.vFused_int (hf : tagFmt (s.vt a) = none) (ht : isArith (s.vt a) = true) : s.vFused neg c b a d =
    vResult s [a, b, c] d (s.vt a) (tagBits (s.vt a)) (List.zipWith
      (fun p (q : Nat × Nat) => narrow false false (tagBits (s.vt a)) (if neg then elemInt (s.vt a) p * elemInt (s.vt a) q.1 - elemInt (s.vt a) q.2
        else elemInt (s.vt a) p * elemInt (s.vt a) q.1 + elemInt (s.vt a) q.2))
      (s.ve a (tagBits (s.vt a))) ((s.ve b (tagBits (s.vt a))).zip (s.ve c (tagBits (s.vt a))))) 6 := by
  simp only [State.vFused, hf, ht, hb, hc, isFp, Option.isSome_none, beq_self_eq_true]
  exact State.vGuard_passes hr rfl rfl rfl
end

theorem execVdot_ready {s : State} {c b a d : Reg} (hr : vReady s [a, b, c] (some d) false (s.vt c)) (hb : s.vt b = s.vt a)
    (hc : dotTag (s.vt a) = some (s.vt c)) (hm : isFp (s.vt a) = true → (s.mode 7).isSome = true) : execVdot c b a d s =
    .next (vResult s [a, b, c] d (s.vt c) 32 (List.zipWith (fun p q => dotLane (s.vt a) (s.vt c) ((s.mode 7).getD 0) p q.1 q.2) (s.vr a)
      ((s.vr b).zip (s.vr c))) 8) := by
  have rounding (h : (s.vt a == .fp16 || s.vt a == .bf16) = true) : (s.mode 7).isSome = true := by
    simp only [Bool.or_eq_true, beq_iff_eq] at h
    obtain h | h := h <;> exact hm (by rw [h]; rfl)
  simp only [execVdot, hb, hc, beq_self_eq_true]
  exact congrArg _ (State.vGuard_passes hr (rounding_legal rounding) rfl rfl)

/-! ## Reductions (R292, R98) -/

theorem scalarTag_beq {t : Tag} (h : t = .fp32 ∨ t = .fp64 ∨ t = .i32 ∨ t = .n32) :
    (t == .fp32 || t == .fp64 || t == .i32 || t == .n32) = true := by obtain rfl | rfl | rfl | rfl := h <;> rfl

section
variable {s : State} {rounds : Bool} {rm : BitVec 3} {a d : Reg} {op : Tag → EwOp} {r : Nat × FlagSet} (ht : isArith (s.vt a) = true)
  (hm : isFp (s.vt a) = true → rounds = true → (s.mode rm).isSome = true)
  (hop : treeReduce (op (s.vt a) ((s.mode rm).getD 0)) 10 (s.ve a (tagBits (s.vt a))) 0 = r)
include ht hm hop

/-- The value of the tree in every element of v[rd]. -/
theorem State.vReduce_wide (hr : vReady s [a] (some d) (s.vt a == .fp64) (s.vt a)) : s.vReduce false rounds rm a d op =
    (s.vOut d (s.vt a) (packElems (tagBits (s.vt a)) (List.replicate (s.ve a (tagBits (s.vt a))).length r.1)) r.2 10).consume [a] := by
  subst hop
  unfold State.vReduce
  exact State.vGuard_passes hr (Bool.or_eq_false_iff.2 ⟨roundingForm_legal hm, rfl⟩) (by rw [ht]; rfl) rfl
/-- The value of the tree in a scalar register. -/
theorem State.vReduce_one (hr : vReady s [a] none (s.vt a == .fp64) (s.vt a))
    (hs : s.vt a = .fp32 ∨ s.vt a = .fp64 ∨ s.vt a = .i32 ∨ s.vt a = .n32) (hd : isFp (s.vt a) = true → d.toNat < 16) :
    s.vReduce true rounds rm a d op = (if isFp (s.vt a) then s.fixedF d (fpWord (s.vt a == .fp64) r.1) r.2 10
      else s.fixedXF d (intWord (tagSigned (s.vt a)) 32 r.1) r.2 10).consume [a] := by
  subst hop
  unfold State.vReduce
  refine State.vGuard_passes hr (Bool.or_eq_false_iff.2 ⟨roundingForm_legal hm, scalar_legal hd⟩) (by rw [ht, scalarTag_beq hs]; rfl) ?_
  cases isFp (s.vt a) <;> rfl
end

/-- Settles O17: the guard of each form passes, and its result is that of its tag or of its tree. -/
theorem vectorMovesFusedAndReductions : Obligations.VectorMovesFusedAndReductions := by
  unfold Obligations.VectorMovesFusedAndReductions
  intro s sat tg rm c b a d t w fp m frm out all n
  refine ⟨fun hr => congrArg _ (State.vGuard_passes hr rfl rfl rfl), fun g hg hr => execVmov_fills hg hr, fun hr ht hb hc => ?fused,
    fun hr hb => congrArg _ (State.vGuard_passes hr rfl (beq_iff_eq.2 hb) rfl), fun hr hb hc hm => execVdot_ready hr hb hc hm,
    fun ht => ⟨fun hr => ?wide, fun hr hs hd => ?one⟩,
    fun hr hs hm => congrArg _ (State.vGuard_passes hr (rounding_legal hm) (scalarTag_beq hs) rfl), execVscan_reserved,
    fun ht hr => congrArg _ (State.vGuard_passes hr rfl (beq_iff_eq.2 ht) rfl),
    fun ht hr => congrArg _ (State.vGuard_passes hr rfl (beq_iff_eq.2 ht) rfl)⟩
  case fused =>
    refine ⟨fun f hf hm => ⟨congrArg _ (State.vFused_fp false hr hb hc hf hm), congrArg _ (State.vFused_fp true hr hb hc hf hm)⟩,
      fun hf => ?int⟩
    case int =>
      have int (neg : Bool) := congrArg (.next : State → Out) (State.vFused_int neg hr hb hc (tagFmt_of_not_isFp hf) ht)
      exact ⟨int false, int true⟩
  case wide =>
    have wide {rounds : Bool} {rm : BitVec 3} {op : Tag → EwOp} (hm : fp = true → rounds = true → (s.mode rm).isSome = true) :=
      congrArg (.next : State → Out) (State.vReduce_wide (op := op) ht hm rfl hr)
    exact ⟨fun hm => wide (fun hf _ => hm hf), wide (fun _ _ => rfl), wide (fun _ _ => rfl)⟩
  case one =>
    have one {rounds : Bool} {rm : BitVec 3} {op : Tag → EwOp} (hm : fp = true → rounds = true → (s.mode rm).isSome = true) :=
      congrArg (.next : State → Out) (State.vReduce_one (op := op) ht hm rfl hr hs hd)
    exact ⟨fun hm => one (fun hf _ => hm hf), one (fun _ _ => rfl), one (fun _ _ => rfl)⟩

end Sys2Proof.Machine
end

section
/-! The special functions and the format operations of vectors (08_vector_pool.md R294 to R299). -/

namespace Sys2Proof.Machine
open Sys2Proof.Safety

section
variable {s : State} {a d : Reg} {m : BitVec 3}

/-- A special function of FP32 elements under a legal mode (R294). -/
theorem State.vSpecial_ready {rm : Rnd} {lat : Nat} {op : BitVec 3 → Nat → Nat × FlagSet} (ht : s.vt a = .fp32)
    (hr : vReady s [a] (some d) false .fp32) (hm : s.mode (rndCode rm) = some m) :
    s.vSpecial rm a d lat op = vResult s [a] d .fp32 32 ((s.ve a 32).map (op m)) lat := by
  simp only [State.vSpecial, hm, ht, Option.isNone_some, Option.getD_some, Bool.and_false]
  exact State.vGuard_passes hr rfl rfl rfl

/-- The tags that VCVT takes: neither is RAW, the target no BX, and a BX source goes to FP32 (R295). -/
theorem convTags_taken {t td : Tag} (h1 : t ≠ .raw) (h2 : td ≠ .raw) (hx : isBx td = false) (h : isBx t = true → td = .fp32) :
    (!(t == .raw || td == .raw || isBx td || (isBx t && td != .fp32))) = true := by
  rw [beq_eq_false_iff_ne.2 h1, beq_eq_false_iff_ne.2 h2, hx]
  cases hb : isBx t with
  | false => rfl
  | true => rw [h hb]; rfl
end

/-- Settles O18: the guard of each form passes, and its lanes are those of its function or format. -/
theorem vectorFunctionsAndFormats : Obligations.VectorFunctionsAndFormats := by
  unfold Obligations.VectorFunctionsAndFormats
  intro s rm r3 td fmt fs b a d t l out
  refine ⟨fun m ht hr hm => ?special, fun m hr hm h1 h2 hx hb => ?convert, fun hr => congrArg _ (State.vGuard_passes hr rfl rfl rfl),
    ?quantise, fun hr => congrArg _ (State.vGuard_passes hr rfl rfl rfl), fun hr hi => congrArg _ (State.vGuard_passes hr rfl hi rfl)⟩
  case special =>
    have special {op : BitVec 3 → Nat → Nat × FlagSet} := congrArg (.next : State → Out) (State.vSpecial_ready (lat := 10) (op := op) ht hr hm)
    exact ⟨special, special, special, special⟩
  case convert =>
    have hd : (s.mode r3).isNone = false := Option.isNone_eq_false_iff.2 (Option.isSome_of_mem hm)
    refine (congrArg _ (State.vGuard_passes hr hd (convTags_taken h1 h2 hx hb) rfl)).trans ?_
    simp only [hm, withFlags, beq_iff_eq, Option.getD_some, List.length_map]
    rfl
  case quantise =>
    intro tq ht hr
    refine (congrArg _ (State.vGuard_passes hr rfl (beq_iff_eq.2 ht) rfl)).trans ?_
    simp only [withFlags, List.map_map, List.foldl_map, List.length_map]
    rfl

end Sys2Proof.Machine
end

section
/-! Lane grants and streams: VCLAIM, VFREE, VSBIND and VSFREE (08_vector_pool.md R265, R266, R271, R283, R286). -/

namespace Sys2Proof.Machine
open Sys2Proof.Safety

/-! ## Claims (R265, R266) -/

theorem Frame.not_fm (f : Frame) : (!f.fm) = decide (f.level.toNat < 6) := by
  rw [Frame.fm, ← decide_not]
  exact decide_eq_decide.2 Nat.not_le

section
variable {s : State} {b a d : Reg}

/-- What a claim of `n` lanes, of which it needs `m`, is given: groups, or no lane where the minimum cannot be met, on a memory core, and for
a T-mode frame in the firmware column. -/
def State.granted (s : State) (n m : Nat) (borrow : Bool) : State × Nat × BitVec 16 × Bool :=
  if decide (n < m) || isMemCore s.iss.ep || (decide (s.cf.level.toNat < 6) && s.firmware s.iss.ep) then (s, 0, 0, false)
  else s.claimLanes s.iss.ep s.iss.win n m borrow
/-- The state that owes a grant for x[rd] and VLEN of the frame at issue in `s`, and has its write-back on its way. -/
def State.oweGrant (s : State) (d : Reg) (p : State × Nat × BitVec 16 × Bool) : State :=
  let v := ResVal.grant p.2.1 p.2.2.1 p.2.2.2
  ((p.1.addResult (.lanes d) none v 0 1).2).later (.variableResultWriteback s.iss.ep s.iss.win s.cf.fid p.1.uid v 0 false)

theorem execVclaim_owes {borrow : Bool} (hn : s.cf.nLanes = 0) (hc : ∀ r ∈ s.cf.outs, ∀ g, r.dst ≠ .lanes g) (hd : s.det = false)
    (hr : hasRoom s 1 0) : execVclaim borrow b a d s =
      .next (s.oweGrant d (s.granted (min (min (s.xr a).toNat 256) s.cf.descLanes) (s.xr b).toNat borrow)) := by
  have noClaim : s.cf.outs.any (fun r => match r.dst with | .lanes _ => true | _ => false) = false := by
    refine List.any_eq_false.2 fun r hr => ?_
    split
    · exact absurd ‹_› (hc r hr _)
    · exact Bool.false_ne_true
  have unclaimed : ¬ ((s.cf.nLanes != 0 || s.cf.outs.any (fun r => match r.dst with | .lanes _ => true | _ => false)) = true) := by
    rw [noClaim, hn]
    exact Bool.false_ne_true
  have notDet {q : Bool} : ¬ ((s.det && q) = true) := by
    rw [hd]
    exact Bool.false_ne_true
  rw [State.granted, ← Frame.not_fm]
  exact congrArg _ ((if_neg unclaimed).trans ((if_neg notDet).trans (State.withRoom_go hr)))
end

/-! ## Streams bound and unbound (R283, R286) -/

section
variable {s : State} {a d : Reg}

/-- A stream that a descriptor binds: nothing of it is taken yet. -/
def boundStream (w0 w1 w2 : Word) (sid : Nat) : Stream := Stream.mk true (w0.getLsbD 36) w0 w1 w2 0 [] sid
/-- The state whose issuing frame has a stream bound to v[d], with its tag. -/
def State.bindStream (s : State) (d : Reg) (t : Stream) : State :=
  { s.setCf ((s.cf.putStream (d.toNat - 28) t).putTag d t.tag) with uid := s.uid + 1 }

theorem execVsbind_binds {w0 w1 w2 w3 : Word} (hn : s.cf.nLanes ≠ 0) (hd : 28 ≤ d.toNat) (hb : (s.cf.stream (d.toNat - 28)).bound = false)
    (ha : (s.xr a).toNat % 8 = 0) (hl : (s.xr a).toNat + 32 ≤ 0x80000)
    (hw : (List.range 4).map (fun i => s.lmWordInOrder ((s.xr a).toNat + 8 * i)) = [w0, w1, w2, w3])
    (hok : streamOk [w0, w1, w2, w3] s.cf.nLanes = true) :
    execVsbind a d s = .next (if w0.getLsbD 36 then s.bindStream d (boundStream w0 w1 w2 (s.uid + 1))
      else (s.bindStream d (boundStream w0 w1 w2 (s.uid + 1))).later (.streamFill s.iss.ep s.iss.win (d.toNat - 28))) := by
  simp only [execVsbind, hw, hok, hb, ha, beq_iff_eq, hn, Nat.not_lt.2 hd, Nat.not_lt.2 hl, bne_self_eq_false, decide_false,
    Bool.not_true, Bool.or_false, Bool.false_eq_true, if_false]
  rfl

/-- A read stream is unbound, and its register keeps its row. -/
theorem State.closeStreams_read {ep w j : Nat} {first : Bool} (hw : ((s.frame ep w).stream j).write = false) :
    s.closeStreams ep w [j] first = s.modFrame ep w (fun f => f.putStream j Stream.unbound) := by
  simp only [State.closeStreams, List.foldl_cons, List.foldl_nil, hw, Bool.not_false, Bool.or_true, if_true]
  rfl
/-- A write stream is kept until its entries are written, and each of them is on its way. -/
theorem State.closeStreams_write {ep w j : Nat} {first : Bool} (hb : ((s.frame ep w).stream j).bound = true)
    (hw : ((s.frame ep w).stream j).write = true) : s.closeStreams ep w [j] first =
      ((s.frame ep w).stream j).buf.foldl (fun t _ => t.later (.streamWrite ep w 4))
        { (s.modFrame ep w (fun f => f.putStream j Stream.unbound)).modCore ep (fun c => ({ c with
            closing := c.closing ++ [Closing.mk (s.frame ep w).fid w ((s.frame ep w).stream j) first s.uid] } : Core).trimClosing) with
          uid := s.uid + 1 } := by
  simp only [State.closeStreams, List.foldl_cons, List.foldl_nil, hb, hw, Bool.not_true, Bool.or_false, Bool.false_eq_true, if_false]
  rfl
theorem execVsfree_closes (hn : s.cf.nLanes ≠ 0) (hd : 28 ≤ d.toNat) (hb : (s.cf.stream (d.toNat - 28)).bound = true) :
    execVsfree d s = .next (s.closeStreams s.iss.ep s.iss.win [d.toNat - 28] true) := by
  simp only [execVsfree, hb, beq_iff_eq, hn, Nat.not_lt.2 hd, Bool.not_true, Bool.false_eq_true, if_false]
end

/-- Settles O19: each instruction, its conditions met, is the grant it owes or ends, or the stream it binds or unbinds. -/
theorem laneGrantsAndStreamsComplete : Obligations.LaneGrantsAndStreamsComplete := by
  unfold Obligations.LaneGrantsAndStreamsComplete
  intro s x b a d w0 w1 w2 w3 f n j
  refine ⟨fun hn hc hd hr => execVclaim_owes hn ?noClaim hd hr, congrArg _ (if_congr beq_iff_eq rfl rfl), execVsbind_binds,
    fun hn h28 hb => ?unbind⟩
  case noClaim =>
    intro r hr g hg
    have h := List.all_eq_true.1 hc r hr
    rw [hg] at h
    exact absurd h Bool.false_ne_true
  case unbind =>
    have closes := execVsfree_closes hn h28 hb
    exact ⟨fun hw => closes.trans (congrArg _ (State.closeStreams_read hw)),
      fun hw => closes.trans (congrArg _ (State.closeStreams_write hb hw))⟩

end Sys2Proof.Machine
end

section
/-! Vector loads and stores at issue (08_vector_pool.md R278 to R281). -/

namespace Sys2Proof.Machine
open Sys2Proof.Safety

/-! ## The accesses of one instruction (R172, R279) -/

@[simp] theorem State.pieces_iss (s : State) (res : Option Nat) (l : List (Target × Nat × Nat × AccOp)) : (s.pieces res l).iss = s.iss :=
  foldl_keeps State.iss _ (fun _ _ => State.accessG_iss ..) _ _

/-- A vector access whose guards pass begins its accesses and consumes its streams. -/
theorem State.vGuard_begins {s u : State} {ok pairs : Bool} {srcs : List Reg} {dst : Option Reg} {rtag : Tag} {go : State → State}
    {res : Option Nat} {l : List (Target × Nat × Nat × AccOp)} (hr : vReady s srcs dst pairs rtag) (ho : ok = true)
    (hgo : go s = u.pieces res l) (hi : u.iss = s.iss) :
    s.vGuard (VIn.mk false srcs dst false pairs ok rtag) go = (u.pieces res l).consume srcs := by
  rw [State.vGuard_passes hr rfl ho (by rw [hgo, State.pieces_iss, hi]), hgo]

/-! ## Images: VLD and VST (R279) -/

section
variable {s : State} {h : HReg} {tag : Tag} {a d : Reg} {t : Target}

/-- Where the accesses of an image of `n` bytes begin and how long they are: aligned pieces through a REMOTE handle, else one access. -/
def imagePieces (t : Target) (n : Nat) : List (Nat × Nat) := if t.space = 1 then vecPieces t.addr n 0 n else [(0, n)]

theorem execVld_issues (hr : vReady s [] (some d) (tag == .fp64) tag) (hroom : hasRoom s 1 1)
    (hc : s.check s.det h (s.xr a) (imageBytes tag s.cf.nLanes) (vecAlign tag) .load false false [0, 1] = .ok t) :
    execVld h tag a d s =
      .next ((s.addResult (.v d tag) none (.word 0) 0 (imagePieces t (imageBytes tag s.cf.nLanes)).length).2.pieces (some s.uid)
        ((imagePieces t (imageBytes tag s.cf.nLanes)).map (fun p => (t, p.1, p.1, .load p.2)))) := by
  refine congrArg _ (State.vGuard_begins hr rfl ?_ (State.addResult_iss ..))
  simp only [hc, State.withRoom_go hroom, beq_iff_eq]
  rfl
theorem execVst_issues (hr : vReady s [d] none (s.vt d == .fp64) (s.vt d)) (hroom : hasRoom s 0 1)
    (hc : s.check s.det h (s.xr a) (imageBytes (s.vt d) s.cf.nLanes) (vecAlign (s.vt d)) .store false false [0, 1] = .ok t) :
    execVst h a d s = .next ((s.pieces none ((imagePieces t (imageBytes (s.vt d) s.cf.nLanes)).map
      (fun p => (t, p.1, p.1, .store (((imageOf (s.vt d) (s.vr d)).drop p.1).take p.2))))).consume [d]) := by
  refine congrArg _ (State.vGuard_begins hr rfl ?_ rfl)
  simp only [hc, State.withRoom_go hroom, beq_iff_eq]
  rfl
end

/-! ## Gathers and scatters: VLDX and VSTX (R280) -/

section
variable {s : State} {h : HReg} {tag : Tag} {b a d : Reg} {ts : List Target}

/-- The bytes of one access of a gather or scatter: a lane, or with FP64 a pair of lanes. -/
def elemBytes (tag : Tag) : Nat := if tag = .fp64 then 8 else 4

theorem elemBytes_eq (tag : Tag) : (if tag == .fp64 then 8 else 4) = elemBytes tag := if_congr beq_iff_eq rfl rfl

theorem execVldx_issues (hr : vReady s [b] (some d) (tag == .fp64) tag) (hroom : hasRoom s 1 1) (hi : indexTag (s.vt b) = true)
    (hx : isBx tag = false) (hc : s.laneTargets h (elemBytes tag) .load (s.laneOffs (tag == .fp64) b a) = .ok ts) :
    execVldx h tag b a d s = .next (((s.addResult (.v d tag) none (.word 0) 0 ts.length).2.pieces (some s.uid)
      (ts.zipIdx.map (fun p => (p.1, 0, elemBytes tag * p.2, .load (elemBytes tag))))).consume [b]) := by
  refine congrArg _ (State.vGuard_begins hr (by rw [hi, hx]; rfl) ?_ (State.addResult_iss ..))
  simp only [elemBytes_eq, hc, State.withRoom_go hroom]
  rfl
theorem execVstx_issues (hr : vReady s [b, d] none (s.vt d == .fp64) (s.vt d)) (hroom : hasRoom s 0 1) (hi : indexTag (s.vt b) = true)
    (hx : isBx (s.vt d) = false) (hc : s.laneTargets h (elemBytes (s.vt d)) .store (s.laneOffs (s.vt d == .fp64) b a) = .ok ts) :
    execVstx h b a d s = .next ((s.pieces none (ts.zipIdx.map (fun p => (p.1, 0, elemBytes (s.vt d) * p.2,
      .store (((lanesBytes (s.vr d)).drop (elemBytes (s.vt d) * p.2)).take (elemBytes (s.vt d))))))).consume [b, d]) := by
  refine congrArg _ (State.vGuard_begins hr (by rw [hi, hx]; rfl) ?_ rfl)
  simp only [elemBytes_eq, hc, State.withRoom_go hroom]
end

/-- Settles O20: past guards, checks and room nothing is left of an issue but the result owed, the accesses and the streams read. -/
theorem vectorLoadsAndStoresIssue : Obligations.VectorLoadsAndStoresIssue := by
  unfold Obligations.VectorLoadsAndStoresIssue
  intro s h tag b a d t ts n k ps
  exact ⟨fun hc hroom hr => execVld_issues hr hroom hc, fun hc hroom hr => execVst_issues hr hroom hc,
    fun hc hroom hi hx hr => execVldx_issues hr hroom hi hx hc, fun hc hroom hi hx hr => execVstx_issues hr hroom hi hx hc⟩

end Sys2Proof.Machine
end

section
/-! Steps of the vector streams and of the matrix array (08_vector_pool.md R284; 09_matrix_array.md R308 to R326; 11_copy_engines.md R386,
R387). -/

namespace Sys2Proof.Machine

/-! ## The steps act on the event they are -/

section
variable {s : State} {g : Nat}

theorem exec_streamFill_of_ev {ep w j : Nat} (h : s.ev = some (.streamFill ep w j)) : exec .streamFill s = execStreamFill ep w j s := by
  rw [show exec .streamFill s = runStreamFill s from rfl, runStreamFill, h]
theorem exec_streamWrite_of_ev {ep w j : Nat} (h : s.ev = some (.streamWrite ep w j)) : exec .streamWrite s = execStreamWrite ep w j s := by
  rw [show exec .streamWrite s = runStreamWrite s from rfl, runStreamWrite, h]
theorem exec_slotLoadDone_of_ev {k q : Nat} (h : s.ev = some (.slotLoadDone g k q)) : exec .slotLoadDone s = execSlotLoadDone g k q s := by
  rw [show exec .slotLoadDone s = runSlotLoadDone s from rfl, runSlotLoadDone, h]
theorem exec_gangFormation_of_ev {sq : Option Nat} (h : s.ev = some (.gangFormation g sq)) :
    exec .gangFormation s = execGangFormation g sq s := by
  rw [show exec .gangFormation s = runGangFormation s from rfl, runGangFormation, h]
theorem exec_passStart_of_ev (h : s.ev = some (.passStart g)) : exec .passStart s = execPassStart g s := by
  rw [show exec .passStart s = runPassStart s from rfl, runPassStart, h]
theorem exec_passStep_of_ev (h : s.ev = some (.passStep g)) : exec .passStep s = execPassStep g s := by
  rw [show exec .passStep s = runPassStep s from rfl, runPassStep, h]
theorem exec_drainJobStart_of_ev (h : s.ev = some (.drainJobStart g)) : exec .drainJobStart s = execDrainJobStart g s := by
  rw [show exec .drainJobStart s = runDrainJobStart s from rfl, runDrainJobStart, h]
theorem exec_drainJobDone_of_ev (h : s.ev = some (.drainJobDone g)) : exec .drainJobDone s = execDrainJobDone g s := by
  rw [show exec .drainJobDone s = runDrainJobDone s from rfl, runDrainJobDone, h]
theorem exec_refreshWindow_of_ev (h : s.ev = some .refreshWindow) : exec .refreshWindow s = execRefreshWindow s := by
  rw [show exec .refreshWindow s = runRefreshWindow s from rfl, runRefreshWindow, h]
end

/-! ## Streams: STREAM_FILL and STREAM_WRITE (R284) -/

section
variable {s : State} {ep w j : Nat}

/-- The next step of a read stream, as LM holds it. -/
def State.streamEntry (s : State) (ep w : Nat) (t : Stream) : StreamEnt :=
  StreamEnt.mk 0 (s.lmRead ep (t.off (t.pos + t.buf.length)) (imageBytes t.tag (s.frame ep w).nLanes)) false
/-- The state in which a read stream has taken its next step: a head enters its register. -/
def State.streamFilled (s : State) (ep w j : Nat) (t : Stream) : State :=
  let b := s.streamEntry ep w t
  let u := s.setFrame ep w ((s.frame ep w).putStream j { t with buf := t.buf ++ [b] })
  if t.buf.isEmpty then u.putHead ep w j t b else u

theorem execStreamFill_takes {t : Stream} (ht : (s.frame ep w).stream j = t) (hb : t.bound = true) (hw : t.write = false)
    (hl : t.buf.length < 4) (hk : t.pos + t.buf.length < t.steps) (htop : (s.core ep).top = some w) (hs : (s.frame ep w).spilled = false)
    (hbad : s.lmBad ep (t.off (t.pos + t.buf.length)) (imageBytes t.tag (s.frame ep w).nLanes) = false) :
    execStreamFill ep w j s = .next (if (t.buf ++ [s.streamEntry ep w t]).length < 4 && t.pos + t.buf.length + 1 < t.steps
      then (s.streamFilled ep w j t).later (.streamFill ep w j) else s.streamFilled ep w j t) := by
  have takes : (!t.bound || t.write || decide (4 ≤ t.buf.length) || decide (t.steps ≤ t.pos + t.buf.length)
      || (s.core ep).top != some w) = false := by
    rw [hb, hw, htop, decide_eq_false (Nat.not_le.2 hl), decide_eq_false (Nat.not_le.2 hk), bne_self_eq_false]
    rfl
  subst ht
  refine congrArg _ ((if_neg (ne_true_of_eq_false takes)).trans ((if_neg (ne_true_of_eq_false hs)).trans ?_))
  simp only [hbad, Bool.false_eq_true, if_false]
  rfl
theorem execStreamWrite_writes {x : Nat × Stream} (hx : (s.core ep).writing w j = some x) (hr : (s.core ep).streamReady ep w x.1 x.2 = true) :
    execStreamWrite ep w j s = .next (s.streamOut ep w j) := by
  simp only [execStreamWrite, hx, hr, if_true]
end

/-! ## Slot loads: SLOT_LOAD_DONE (R308, R309, R386) -/

section
variable {s : State} {g k q : Nat} {l : SlotLoad} {r : List SlotLoad}

/-- The state in which the load of a slot whose end has come is ready. -/
def State.loadReady (s : State) (g k q : Nat) : State :=
  s.modArr g (fun a => a.modSlot k (fun t => { t with loads := t.loads.map (fun l => if l.seq == q then { l with ready := true } else l) }))

variable (hl : (((s.loadReady g k q).arr g).slot k).loads = l :: r) (hq : l.seq = q) (hr : ((s.loadReady g k q).arr g).readers k q = [])
include hl hq hr

theorem execSlotLoadDone_lm {c o : Nat} (hs : l.src = .lm c o) : execSlotLoadDone g k q s =
    (let u := s.loadReady g k q
     .next (if u.lmBad c o (64 * cb l.bfmt) then (u.machineCheck c 7).slotEnd g k q false 2 1
      else (u.slotStore g k l.bfmt (u.lmRead c o (64 * cb l.bfmt))).slotEnd g k q true 0 0)) := by
  rw [State.loadReady] at hl hr
  simp only [execSlotLoadDone, hl, hq, hr, hs, bne_self_eq_false, List.isEmpty_nil, Bool.not_true, Bool.or_false, Bool.false_eq_true, if_false]
  rfl
theorem execSlotLoadDone_bedrock {o : Nat} (hs : l.src = .bedrock o) (hb : l.started = true)
    (hw : (groupsTouched o (64 * cb l.bfmt)).any (inWindow (s.loadReady g k q).sched) = false) : execSlotLoadDone g k q s =
    (let u := s.loadReady g k q
     let n := 64 * cb l.bfmt
     .next (if memBad u.bad (bedKey (g / 128) o) n then (u.countLoads (g / 128) (groupsTouched o n) false).slotEnd g k q false 2 1
      else ((u.slotStore g k l.bfmt (memRead u.mem (bedKey (g / 128) o) n)).countLoads (g / 128) (groupsTouched o n) false).slotEnd
        g k q true 0 0)) := by
  rw [State.loadReady] at hl hr hw
  simp only [execSlotLoadDone, hl, hq, hr, hs, hb, hw, bne_self_eq_false, List.isEmpty_nil, Bool.not_true, Bool.or_false, Bool.false_eq_true,
    if_false]
  rfl
end

/-! ## Passes: PASS_START and PASS_STEP (R320 to R322) -/

section
variable {s : State} {g : Nat} {p : Pass}

theorem execPassStart_begins (hr : (s.arr g).running = none) (hc : (s.arr g).choose = some p)
    (hf : p.state = 1 → ((s.arr g).slot (pwSlot p.word)).bfmt = pwB p.word) :
    execPassStart g s = .next ((s.modArr g (fun a => a.putPass { p with state := 2 })).laterOnce (.passStep g)) := by
  have loaded : (p.state == 1 && ((s.arr g).slot (pwSlot p.word)).bfmt != pwB p.word) = false := by
    rw [Bool.and_eq_false_imp, beq_iff_eq, bne_eq_false_iff_eq]
    exact hf
  simp only [execPassStart, hr, hc, loaded, Bool.false_eq_true, if_false]

/-- The state in which a pass has computed its next step. -/
def State.passStepped (s : State) (g : Nat) (p : Pass) : State := s.stepAll g p (p.stepFrom p.step)
/-- A pass that has computed its next step. -/
def State.steppedPass (s : State) (g : Nat) (p : Pass) : Pass :=
  { (((s.passStepped g p).arr g).passes.find? (fun q => q.pid == p.pid)).getD p with state := 3, step := p.stepFrom p.step + 1 }

variable (hr : (s.arr g).running = some p) (hj : p.stepFrom p.step < p.steps)
include hr hj

theorem execPassStep_ends (he : (s.steppedPass g p).steps ≤ (s.steppedPass g p).stepFrom (p.stepFrom p.step + 1)) :
    execPassStep g s = .next (((s.passStepped g p).lastStep g (s.steppedPass g p)).arrayKick g) := by
  simp only [execPassStep, hr, hj, if_true]
  exact congrArg _ (if_pos he)
theorem execPassStep_goesOn (he : (s.steppedPass g p).stepFrom (p.stepFrom p.step + 1) < (s.steppedPass g p).steps)
    (hc : ∀ h, (((s.passStepped g p).modArr g (fun a => a.putPass (s.steppedPass g p))).arr g).choose = some h →
      h.prio ≤ (s.steppedPass g p).prio) :
    execPassStep g s = .next (((s.passStepped g p).modArr g (fun a => a.putPass (s.steppedPass g p))).laterOnce (.passStep g)) := by
  simp only [execPassStep, hr, hj, if_true]
  refine congrArg _ ((if_neg (Nat.not_le.2 he)).trans ?_)
  split
  · exact if_neg (Nat.not_lt.2 (hc _ ‹_›))
  · rfl
end

/-! ## Drains: DRAIN_JOB_START and DRAIN_JOB_DONE (R323 to R326) -/

section
variable {s : State} {g : Nat} {d : DrainJob}

theorem execDrainJobStart_takes {l : List DrainJob} (hd : (s.arr g).draining = none) (hr : (s.arr g).dready = d :: l) :
    execDrainJobStart g s = .next ((s.modArr g (fun a => { a with draining := some d, dready := l })).laterOnce (.drainJobDone g)) := by
  simp only [execDrainJobStart, hd, hr]
/-- The state in which a drain job has written its slices and the drain unit is free. -/
def State.drained (s : State) (g : Nat) (d : DrainJob) : State :=
  (d.members.foldl (fun t m => t.drainMember g d m) s).modArr g (fun a => { a with draining := none })
/-- The state in which the pass of a drain job, if it has one, is done. -/
def State.passDrained (s : State) (g : Nat) (pid : Option Nat) : State :=
  pid.elim s (fun p => (s.modArr g (fun a => a.donePass p)).laterOnce (.gangFormation g none))

theorem execDrainJobDone_writes (hd : (s.arr g).draining = some d) :
    execDrainJobDone g s = .next (((s.drained g d).passDrained g d.pid).arrayKick g) := by
  simp only [execDrainJobDone, hd]
  cases d.pid <;> rfl
end

/-- Settles O31: each step acts on the event it is, and where its conditions hold does what its rule says. -/
theorem streamsAndArrayWorkGoOn : Obligations.StreamsAndArrayWorkGoOn := by
  unfold Obligations.StreamsAndArrayWorkGoOn
  intro s ep w j g k q f t a
  refine ⟨fun he hb hw hl hk htop hs hbad => (exec_streamFill_of_ev he).trans (execStreamFill_takes rfl hb hw hl hk htop hs hbad),
    fun x he hx hr => (exec_streamWrite_of_ev he).trans (execStreamWrite_writes hx hr), fun l r he hl hq hr => ?load,
    fun sq he => exec_gangFormation_of_ev he, fun p he hr hc hf => (exec_passStart_of_ev he).trans (execPassStart_begins hr hc hf),
    fun p he hr hj => ?pass, fun d l he hd hr => (exec_drainJobStart_of_ev he).trans (execDrainJobStart_takes hd hr),
    fun d he hd => ?drained, exec_refreshWindow_of_ev⟩
  case load =>
    rw [exec_slotLoadDone_of_ev he]
    exact ⟨fun c o => execSlotLoadDone_lm hl hq hr, fun o => execSlotLoadDone_bedrock hl hq hr⟩
  case pass =>
    rw [exec_passStep_of_ev he]
    exact ⟨execPassStep_ends hr hj, execPassStep_goesOn hr hj⟩
  case drained =>
    rw [exec_drainJobDone_of_ev he, execDrainJobDone_writes hd]
    cases d.pid <;> rfl

end Sys2Proof.Machine
end

section
/-! Instructions of the matrix array: MCFG, MBLD, MZERO, MGANG, MDRAIN, MSTAT and MCANCEL (09_matrix_array.md R305 to R332). -/

namespace Sys2Proof.Machine
open Sys2Proof.Safety

/-! ## Fields as quotients and remainders -/

theorem fld_zero_eq_mod (v : Word) (n : Nat) : fld v 0 n = v.toNat % 2 ^ n := rfl
theorem fld_eq_div_mod (v : Word) (lo n : Nat) : fld v lo n = v.toNat / 2 ^ lo % 2 ^ n := by
  rw [fld, Nat.shiftRight_eq_div_pow]

/-! ## Work taken by the array, or refused because it is full (R305, R307) -/

/-- What comes of an instruction that has passed its checks where `n` of `limit` places in the array are taken. With none free it answers 1,
or raises cause 58 where x0 takes no answer; otherwise its work is queued. -/
def State.queuedOrFull (s : State) (d : Reg) (limit n : Nat) (queued : State) : State :=
  if limit ≤ n then (if d = 0 then s.raise58 9 else s.withRoom 1 0 (fun u => answering u d 1))
  else s.withRoom (resultsOf d) 1 (fun _ => queued)

/-- What the model is left with, in an instruction that queues work, once the other checks have passed. -/
theorem State.queuedOrFull_eq {s : State} {d : Reg} {limit n : Nat} {go : State → State} :
    (if limit ≤ n then (if (d == 0) = true then s.raise58 9 else s.withRoom 1 0 (fun u => (u.newResult d).2.answerCf (u.newResult d).1 1))
      else s.withRoom (if (d == 0) = true then 0 else 1) 1 go) = s.queuedOrFull d limit n (go s) := by
  simp only [beq_iff_eq]
  exact if_congr Iff.rfl rfl rfl

/-- What an instruction does that queues work for the array, read off by whether the array is full. -/
theorem Out.of_queuedOrFull {o : Out} {s queued : State} {d : Reg} {limit n : Nat} (h : o = .next (s.queuedOrFull d limit n queued)) :
    (limit ≤ n → d ≠ 0 → hasRoom s (resultsOf d) 0 → o = .next (answering s d 1)) ∧
      (n < limit → hasRoom s (resultsOf d) 1 → o = .next queued) := by
  subst h
  refine ⟨fun hf hd hr => congrArg _ ?_, fun hn hr => congrArg _ ?_⟩
  · rw [resultsOf, if_neg hd] at hr
    rw [State.queuedOrFull, if_pos hf, if_neg hd, State.withRoom_go hr]
  · rw [State.queuedOrFull, if_neg (Nat.not_le.2 hn), State.withRoom_go hr]

/-- The place in the work order of a geode that an instruction takes, its successor accepted (R307). -/
def State.place (s : State) (sw : SuccWord) : Nat := ((s.acceptSucc sw).arr (epGeode s.iss.ep)).seq
/-- The state in which the successor of an instruction is busy and its place in the work order taken. -/
def State.placed (s : State) (sw : SuccWord) : State :=
  (s.acceptSucc sw).modArr (epGeode s.iss.ep) (fun m => { m with seq := m.seq + 1 })

/-! ## MCFG (R313) -/

section
variable {s : State} {a d : Reg}

theorem execMcfg_takes {md : List Word} (hn : s.noArray = false) (ha : (s.xr a).toNat % 8 = 0) (hl : (s.xr a).toNat + 32 ≤ 0x80000)
    (hw : (List.range 4).map (fun k => s.lmWordInOrder ((s.xr a).toNat + 8 * k)) = md) (hok : mdOk md = true) :
    execMcfg a s = .next (s.modCf (fun f => { f with mdesc := some md })) := by
  simp only [execMcfg, hn, ha, hw, hok, gt_iff_lt, Nat.not_lt.2 hl, bne_self_eq_false, decide_false, Bool.or_false, Bool.not_true,
    Bool.false_eq_true, if_false]
end

/-! ## MBLD (R308) -/

/-- A load word at an offset of LM keeps R308, and names a slot, a format and a legal source. -/
def State.loadWordLegal (s : State) (o : Word) (slot fmt : Nat) (src : LoadSrc) : Prop :=
  let w1 := s.lmWordInOrder (o.toNat + 8)
  o.toNat % 8 = 0 ∧ o.toNat + 16 ≤ 0x80000 ∧ zeroField w1 23 41 = true ∧ zeroField w1 11 5 = true ∧ zeroField w1 3 5 = true ∧
    fld w1 16 7 = slot ∧ fld w1 8 3 = fmt ∧ fmt < 5 ∧
    s.loadSource (BitVec.ofNat 3 (fld w1 0 3)) (s.lmWordInOrder o.toNat) (64 * cb fmt) = .inl src

/-- The scope at which the accesses are covered that a load reads after (R308, R141). -/
def LoadSrc.scope : LoadSrc → Scope
  | .bedrock _ => .module
  | _ => .core

/-- The state in which a load of a format is on its slot (R308). -/
def State.loadQueued (s : State) (sw : SuccWord) (slot fmt : Nat) (src : LoadSrc) (d : Reg) : State :=
  let n := s.place sw
  let l := SlotLoad.mk n fmt src sw.rel? false false
  (answering ((s.placed sw).modArr (epGeode s.iss.ep) (fun m => m.modSlot slot (fun t => { t with loads := t.loads ++ [l] }))) d 0).releaseThen
    (widerScope src.scope (succScope s.iss.ep sw.rel?)) [(4, 0, 0, .slotLoadDone (epGeode s.iss.ep) slot n)]

section
variable {s : State} {sw : SuccWord} {c b a d : Reg}

/-- Past its checks MBLD turns on whether the geode's four loads are taken. -/
theorem execMbld_checked {slot fmt : Nat} {src : LoadSrc} (hn : s.noArray = false) (hl : s.loadWordLegal (s.xr b) slot fmt src)
    (hok : legalSucc sw) (hs : s.succWord (s.xr a) = sw) (hdet : s.det = false ∨ d = 0) :
    execMbld b a d s = .next (s.queuedOrFull d 4 s.ca.loadCount (s.loadQueued sw slot fmt src d)) := by
  obtain ⟨ha, hin, hz23, hz11, hz3, rfl, rfl, hf, hsrc⟩ := hl
  simp only [execMbld, hn, ha, gt_iff_lt, Nat.not_lt.2 hin, hz23, hz11, hz3, Nat.not_le.2 hf, hsrc, hs, State.det_result_permitted hdet,
    bne_self_eq_false, decide_false, Bool.or_false, Bool.not_true, Bool.false_eq_true, if_false]
  obtain rfl | ⟨r, rfl⟩ := hok <;> exact congrArg _ State.queuedOrFull_eq

/-! ## MGANG (R316, R317) -/

/-- The registrations of the issuing core that wait for a gang. -/
def State.registered (s : State) : Nat := (s.ca.regs.filter (fun r => r.core == s.slice)).length

/-- The slice of the issuing core is enabled, and live in the set that a pass word names, which is the frame's (R316, R324). -/
def State.sliceLive (s : State) (w : Word) : Prop :=
  s.sliceOn = true ∧ s.myTag (s.ca.set (pwSet w)) = true ∧ (s.ca.sliceView (pwSet w) s.slice).1 = true

/-- The state in which the core is registered for a pass, and a gang that the registration completes has formed (R316, R317). -/
def State.gangQueued (s : State) (sw : SuccWord) (w : Word) (md : List Word) (q : Bool) (scale : Half) (d : Reg) : State :=
  let g := epGeode s.iss.ep
  let n := s.place sw
  let r := (s.placed sw).mkReg n w md q scale sw.rel?
  ((answering (((s.placed sw).modArr g (fun m => { m with regs := m.regs ++ [r] })).formGang g) d 0).noteArray sw.rel?).releaseThen
    (s.gangScope sw.rel?) [(4, 0, 0, .gangFormation g (some n))]

/-- Past its checks MGANG turns on whether the core's four registrations are taken. -/
theorem execMgang_checked {q : Bool} {md : List Word} (hn : s.noArray = false) (hm : s.cf.mdesc = some md)
    (hw : pwBad (s.xr b) true = false) (hok : legalSucc sw) (hs : s.succWord (s.xr a) = sw) (hlive : s.sliceLive (s.xr b))
    (hi : (s.ca.sliceView (pwSet (s.xr b)) s.slice).2 = (pwA (s.xr b) == 4)) (hA : aOk md (s.xr b) = true)
    (hC : q = true → cOk md (s.xr b) = true ∧ acOverlap md (s.xr b) = false) (hdet : s.det = false ∨ d = 0) :
    execMgang c q b a d s = .next (s.queuedOrFull d 4 s.registered
      (s.gangQueued sw (s.xr b) md q (if q then ((s.placed sw).fr c).setWidth 32 else 0) d)) := by
  obtain ⟨hon, htag, hl⟩ := hlive
  have regions : (q && (!cOk md (s.xr b) || acOverlap md (s.xr b))) = false := by
    cases q with
    | false => rfl
    | true => rw [(hC rfl).1, (hC rfl).2]; rfl
  simp only [execMgang, hn, hm, hw, hs, hon, htag, hl, hi, hA, regions, State.det_result_permitted hdet, bne_self_eq_false,
    Bool.or_false, Bool.not_true, Bool.false_eq_true, if_false]
  obtain rfl | ⟨r, rfl⟩ := hok <;> exact congrArg _ State.queuedOrFull_eq

/-! ## MDRAIN (R324) -/

/-- The state in which a drain of the core's slice is queued, to start behind the frame's accesses as a module release (R141, R324). -/
def State.drainQueued (s : State) (sw : SuccWord) (w : Word) (md : List Word) (q : Bool) (scale : Half) (d : Reg) : State :=
  let g := epGeode s.iss.ep
  let n := s.place sw
  let r := (s.placed sw).mkReg n w md true scale sw.rel?
  ((answering ((s.placed sw).modArr g (fun m => { m with drains := m.drains ++ [DrainJob.mk n none m.cmask q [r]] })) d 0).noteArray
    sw.rel?).releaseThen (widerScope .module (succScope s.iss.ep sw.rel?)) [(4, 0, 0, .gangFormation g (some n))]

/-- Past its checks MDRAIN turns on whether the geode's eight drains are taken. -/
theorem execMdrain_checked {q : Bool} {md : List Word} (hn : s.noArray = false) (hm : s.cf.mdesc = some md)
    (hw : pwBad (s.xr b) false = false) (hA : pwA (s.xr b) = 0) (hB : pwB (s.xr b) = 0) (hslot : pwSlot (s.xr b) = 0)
    (hok : legalSucc sw) (hs : s.succWord (s.xr a) = sw) (hlive : s.sliceLive (s.xr b)) (hC : cOk md (s.xr b) = true)
    (hdet : s.det = false ∨ d = 0) :
    execMdrain c q b a d s = .next (s.queuedOrFull d 8 s.ca.queuedDrains
      (s.drainQueued sw (s.xr b) md q (((s.placed sw).fr c).setWidth 32) d)) := by
  obtain ⟨hon, htag, hl⟩ := hlive
  simp only [execMdrain, hn, hm, hw, hA, hB, hslot, hs, hon, htag, hl, hC, State.det_result_permitted hdet, bne_self_eq_false,
    Bool.or_false, Bool.not_true, Bool.false_eq_true, if_false]
  obtain rfl | ⟨r, rfl⟩ := hok <;> exact congrArg _ State.queuedOrFull_eq
end

/-! ## MZERO (R312) -/

section
variable {s : State} {a d : Reg}

/-- The state in which a set is tagged for the issuing frame and the zeroing of its slice queued, to be answered as `u` (R307, R312). -/
def State.zeroQueued (s : State) (g : Nat) (z : Word) (q : Bool) (u : Option Nat) : State :=
  let n := (s.arr g).seq
  let t := s.modArr g (fun k => { k with seq := k.seq + 1 })
  let tag := (t.cf.level, t.cf.asid)
  (t.modArr g (fun k => { (k.modSet (pwSet z) (fun e => { e with tag := some tag })) with
    zeros := k.zeros ++ [ZeroJob.mk n t.slice z tag q t.iss.ep t.iss.win t.cf.fid u] })).arrayKick g

theorem execMzero_queues {q : Bool} (hn : s.noArray = false) (hw : pwBad (s.xr a) false = false) (hslot : pwSlot (s.xr a) = 0)
    (hB : pwB (s.xr a) = 0) (hon : s.sliceOn = true)
    (htag : (s.ca.set (pwSet (s.xr a))).tag = none ∨ s.myTag (s.ca.set (pwSet (s.xr a))) = true)
    (hdet : s.det = false ∨ d = 0) (hr : hasRoom s (resultsOf d) 0) :
    execMzero q a d s = .next ((s.newResult d).2.zeroQueued (epGeode s.iss.ep) (s.xr a) q (s.newResult d).1) := by
  have notForeign : ((s.ca.set (pwSet (s.xr a))).tag.isSome && !s.myTag (s.ca.set (pwSet (s.xr a)))) = false := by
    obtain h | h := htag
    · rw [h]; rfl
    · rw [h, Bool.not_true, Bool.and_false]
  simp only [execMzero, hn, hw, hslot, hB, hon, notForeign, State.det_result_permitted hdet, bne_self_eq_false, beq_iff_eq,
    State.withRoom_resultsOf hr, Bool.or_false, Bool.not_true, Bool.false_eq_true, if_false]
  rfl

/-! ## MSTAT (R332) -/

/-- The state of the array that MSTAT answers for a selector and a slot (R332). -/
def State.arrayStatus (s : State) (sel k : Nat) : Nat :=
  let setBits := fun (i : Nat) => bitNat (s.ca.set i).tag.isNone * 8 + bitNat (s.myTag (s.ca.set i)) * 4
    + bitNat ((s.ca.set i).live.getLsbD s.slice) * 2 + bitNat ((s.ca.set i).i32.getLsbD s.slice)
  match sel with
  | 0 => s.ca.cmask.toNat
  | 1 => setBits 0 + 16 * setBits 1 + 256 * setBits 2 + 4096 * setBits 3
  | 2 => s.ca.slotState k + 256 * (s.ca.readers k s.ca.seq).length
  | _ => s.registered + 256 * s.ca.queuedPasses + 2 ^ 16 * s.ca.queuedDrains

theorem execMstat_answers {sel : Nat} (hn : s.noArray = false) (h15 : zeroField (s.xr a) 15 49 = true) (h4 : zeroField (s.xr a) 4 4 = true)
    (hr : hasRoom s (resultsOf d) 0) (hsel : fld (s.xr a) 0 4 = sel) (hlt : sel < 4) (hk : sel = 2 ∨ fld (s.xr a) 8 7 = 0)
    (hdet : s.det = false ∨ sel = 0) :
    execMstat a d s = .next (answering s d (s.arrayStatus sel (fld (s.xr a) 8 7))) := by
  have slotUsed : (sel != 2 && !zeroField (s.xr a) 8 7) = false := by
    obtain rfl | hk := hk
    · rfl
    · rw [zeroField, hk, beq_self_eq_true, Bool.not_true, Bool.and_false]
  have permitted : (s.det && sel != 0) = false := by
    obtain h | rfl := hdet
    · rw [h, Bool.false_and]
    · rw [bne_self_eq_false, Bool.and_false]
  simp only [execMstat, hn, h15, h4, hsel, slotUsed, permitted, Nat.not_le.2 hlt, State.withRoom_resultsOf hr, beq_iff_eq, decide_false,
    Bool.or_false, Bool.not_true, Bool.false_eq_true, if_false]
  rfl

/-! ## MCANCEL (R319) -/

/-- The oldest unformed registration of each core of the geode at a priority, for an ASID (R319). -/
def State.oldestRegs (s : State) (p : Nat) (asid : BitVec 16) : List Registration :=
  (List.range 8).filterMap (fun c => s.ca.regs.find? (fun r => r.core == c && r.level.toNat == p && r.asid == asid))
/-- The ASID whose registrations an MCANCEL withdraws: firmware names one, a frame in T-mode has its own (R319). -/
def State.cancelAsid (s : State) (x : Word) : BitVec 16 := if s.cf.fm then BitVec.ofNat 16 (x.toNat / 2 ^ 16) else s.cf.asid

/-- A field as long as the bit vector it is read into is cut off there. -/
theorem ofNat_fld (v : Word) (lo n : Nat) : BitVec.ofNat n (fld v lo n) = BitVec.ofNat n (v.toNat / 2 ^ lo) := by
  rw [fld_eq_div_mod]
  exact BitVec.eq_of_toNat_eq (Nat.mod_mod ..)

theorem execMcancel_withdraws {p : Nat} (hn : s.noArray = false) (hpr : fld (s.xr a) 0 3 = p) (h32 : zeroField (s.xr a) 32 32 = true)
    (h3 : zeroField (s.xr a) 3 13 = true) (hp : s.cf.fm = true ∨ p < 6) (hdet : s.det = false) (hr : hasRoom s (resultsOf d) 0) :
    let hit := s.oldestRegs p (s.cancelAsid (s.xr a))
    let g := epGeode s.iss.ep
    execMcancel a d s =
      .next ((((s.newResult d).2.withdraw g hit).answerCf (s.newResult d).1 (BitVec.ofNat 64 hit.length)).arrayKick g) := by
  subst hpr
  simp only [execMcancel, hn, h32, h3, recordLevel_permitted hp, hdet, State.withRoom_resultsOf hr, ofNat_fld, beq_iff_eq, Bool.or_false,
    Bool.not_true, Bool.false_eq_true, if_false]
  rfl
end

/-- Settles O21: past its checks each instruction takes its descriptor, answers, or queues its work unless the array is full. -/
theorem matrixInstructionsComplete : Obligations.MatrixInstructionsComplete := by
  unfold Obligations.MatrixInstructionsComplete
  intro s q c b a d md sw src g w room det ok u n v answer full mine hn
  refine ⟨execMcfg_takes hn, ?load, ?gang, ?drain, ?zero, ?status, ?cancel⟩
  case load =>
    intro o w1 f k ha hin hz23 hz11 hz3 hf hsrc ⟨hok, hs⟩ hdet
    have legal : s.loadWordLegal w k f src :=
      ⟨ha, hin, hz23, hz11, hz3, fld_eq_div_mod .., fld_eq_div_mod .., hf, by rw [fld_zero_eq_mod]; exact hsrc⟩
    have checked := execMbld_checked hn legal hok hs hdet
    exact Out.of_queuedOrFull checked
  case gang =>
    intro hm hw ⟨hok, hs⟩ hon ⟨htag, hl⟩ hi hA hC hdet
    have checked := execMgang_checked (c := c) hn hm hw hok hs ⟨hon, htag, hl⟩ hi hA hC hdet
    exact Out.of_queuedOrFull checked
  case drain =>
    intro hm hw hA hB hslot ⟨hok, hs⟩ hon ⟨htag, hl⟩ hC hdet
    have checked := execMdrain_checked (c := c) (q := q) hn hm hw hA hB hslot hok hs ⟨hon, htag, hl⟩ hC hdet
    exact Out.of_queuedOrFull checked
  case zero => exact execMzero_queues hn
  case status =>
    intro x sel k four h15 h4 hr
    have slot : fld x 8 7 = k := fld_eq_div_mod ..
    have answers {i : Nat} (hi : sel = i) := execMstat_answers (a := a) hn h15 h4 hr ((fld_zero_eq_mod ..).trans hi)
    rw [slot] at answers
    exact ⟨fun h0 hk => answers h0 (by decide) (.inr hk) (.inr rfl), fun h1 hk hd => answers h1 (by decide) (.inr hk) (.inl hd),
      fun h2 hd => answers h2 (by decide) (.inl rfl) (.inl hd), fun h3 hk hd => answers h3 (by decide) (.inr hk) (.inl hd)⟩
  case cancel =>
    intro x p asid hit h32 h3 hp hdet hr
    exact execMcancel_withdraws hn (fld_zero_eq_mod ..) h32 h3 hp hdet hr

end Sys2Proof.Machine
end

section
/-! Instructions of the census network: SOLICIT, RESPOND, CBAR, TILEREG, TILEDEL, TILEMOVE and CENSQ (10_census.md R336 to R364). -/

namespace Sys2Proof.Machine
open Sys2Proof.Safety

/-! ## SOLICIT and CBAR: requests behind the accesses of their scope (R341, R363) -/

/-- The state in which a census of a block is on its way to the module root, its successor busy (R341). -/
def State.solicitQueued (s : State) (sw : SuccWord) (w : List Word) (d : Reg) : State :=
  let (u, t) := (s.acceptSucc sw).newResult d
  t.releaseThen (widerScope (solRelScope w) (succScope t.iss.ep sw.rel?))
    [(0, t.iss.ep, censusRoot, .solicitRequest (Solicit.mk w t.cf.asid t.iss.ep t.iss.win t.cf.fid u sw.rel? none 0 none))]
/-- A block of CBAR at an offset of LM keeps R363: its reserved fields are zero and its values in range. -/
def State.barBlockLegal (s : State) (o : Word) : Prop :=
  let y := s.lmWords o.toNat 4
  let w := y.getD 0 0
  blockOk o 32 = true ∧ (zeroField w 44 20 = true ∧ zeroField w 28 4 = true ∧ zeroField w 3 1 = true ∧
    zeroField (y.getD 1 0) 32 32 = true) ∧ (1 ≤ fld w 0 3 ∧ fld w 0 3 ≤ 3) ∧ (1 ≤ fld w 4 4 ∧ fld w 4 4 ≤ 8) ∧
    fld w 16 12 ≠ 0 ∧ (fld w 0 3 = 3 → fld w 32 12 = 0) ∧ (fld w 0 3 ≠ 3 → s.disabled (fld w 32 12) = false)
/-- The state in which the contribution of the block at an offset is on its way to the node of its scope (R363). -/
def State.barQueued (s : State) (sw : SuccWord) (o : Word) (d : Reg) : State :=
  let y := s.lmWords o.toNat 4
  let w := y.getD 0 0
  let n := scopeNode (fld w 0 3) (fld w 32 12)
  let (u, t) := (s.acceptSucc sw).newResult d
  t.releaseThen (widerScope (barScope (fld w 0 3)) (succScope t.iss.ep sw.rel?))
    [(1, t.iss.ep, nodeAgent n, .barrierContribution (BarReq.mk n t.cf.asid w ((y.getD 1 0).setWidth 32) t.iss.ep o.toNat sw.rel? t.iss.win
      t.cf.fid u))]

section
variable {s : State} {b a d : Reg} {sw : SuccWord}

theorem execSolicit_queues {w : List Word} (hm : isMemCore s.iss.ep = false) (hb : blockOk (s.xr a) 64 = true)
    (hw : s.lmWords (s.xr a).toNat 8 = w) (hz : solReservedOk w = true) (hv : s.solOk w = true) (hs : s.succWord (s.xr b) = sw)
    (hok : legalSucc sw) (hdet : s.det = false ∨ d = 0) (hr : hasRoom s (resultsOf d) 1) :
    execSolicit b a d s = .next (s.solicitQueued sw w d) := by
  simp only [execSolicit, hm, hb, hw, hz, hv, hs, State.det_result_permitted hdet, State.withRoom_resultsOf hr, beq_iff_eq, Bool.or_false,
    Bool.not_true, Bool.false_eq_true, if_false]
  obtain rfl | ⟨r, rfl⟩ := hok <;> rfl
theorem execCbar_queues (hn : s.noPort false = false) (hl : s.barBlockLegal (s.xr a))
    (hs : s.succWord ((s.lmWords (s.xr a).toNat 4).getD 2 0) = sw) (hok : legalSucc sw) (hdet : s.det = false ∨ d = 0)
    (hr : hasRoom s (resultsOf d) 1) : execCbar a d s = .next (s.barQueued sw (s.xr a) d) := by
  obtain ⟨hb, ⟨hz44, hz28, hz3, hz32⟩, ⟨hsc, hsc'⟩, ⟨hop, hop'⟩, hnp, hmod, hcore⟩ := hl
  have target : (if fld ((s.lmWords (s.xr a).toNat 4).getD 0 0) 0 3 = 3 then fld ((s.lmWords (s.xr a).toNat 4).getD 0 0) 32 12 != 0
      else s.disabled (fld ((s.lmWords (s.xr a).toNat 4).getD 0 0) 32 12)) = false := by
    split
    · exact bne_eq_false_iff_eq.2 (hmod ‹_›)
    · exact hcore ‹_›
  simp only [execCbar, hn, hb, hz44, hz28, hz3, hz32, beq_eq_false_iff_ne.2 (Nat.ne_of_gt hsc), beq_eq_false_iff_ne.2 (Nat.ne_of_gt hop),
    beq_eq_false_iff_ne.2 hnp, Nat.not_lt.2 hsc', Nat.not_lt.2 hop', target, hs, State.det_result_permitted hdet,
    State.withRoom_resultsOf hr, beq_iff_eq, decide_false, Bool.or_false, Bool.not_true, Bool.false_eq_true, if_false]
  obtain rfl | ⟨r, rfl⟩ := hok <;> rfl
end

/-! ## RESPOND (R346) -/

/-- A row of a census port is that of a census, for the core that it was sent to. -/
def OpenRow.isOf (census asId : Nat) (y : OpenRow) : Bool := y.q.id == census && y.asId == asId
/-- The payload of `p` words at an offset of LM (R346). -/
def State.payloadAt (s : State) (o p : Nat) : List Half := (List.range p).map (fun k => BitVec.ofNat 32 (ofBytes (s.lmInOrder (o + 4 * k) 4)))
/-- The state in which a responder has put a payload in the row of its census (R346). -/
def State.responseNoted (s : State) (r : Responder) (pay : List Half) : State :=
  (s.modPort s.iss.ep (fun c => { c with
    rows := c.rows.map (fun y => if y.isOf r.census r.partIdx then { y with pays := y.pays ++ [(s.cf.fid, pay, false)] } else y) })).modCf
    (fun f => { f with responder := some { r with responded := true } })

theorem execRespond_responds {s : State} {a : Reg} {r : Responder} {row : OpenRow} (hm : isMemCore s.iss.ep = false)
    (hf : s.cf.responder = some r) (hd : r.responded = false) (hrow : (s.port s.iss.ep).rows.find? (OpenRow.isOf r.census r.partIdx) = some row)
    (hz : zeroField (s.xr a) 19 45 = true) (ha : (s.xr a).toNat % 4 = 0) (hl : (s.xr a).toNat + 4 * solP row.q.words ≤ 0x80000)
    (hr : hasRoom s 0 1) : execRespond a s =
      .next ((s.responseNoted r (s.payloadAt (s.xr a).toNat (solP row.q.words))).releaseThen (solRelScope row.q.words) []) := by
  rw [show OpenRow.isOf r.census r.partIdx = fun y => y.q.id == r.census && y.asId == r.partIdx from rfl] at hrow
  simp only [execRespond, hm, hf, hd, hrow, hz, ha, gt_iff_lt, Nat.not_lt.2 hl, State.withRoom_go hr, bne_self_eq_false, decide_false,
    Bool.or_false, Bool.not_true, Bool.false_eq_true, if_false]
  rfl

/-! ## TILEREG (R338) -/

/-- The lowest free entry of a core's directory. -/
def State.freeTile (s : State) (ep : Nat) : Option Nat := (List.range 128).find? (fun n => ((s.port ep).dir.find n).isNone)
/-- A block of TILEREG at an offset of LM, and the tile that it names, keep R338. -/
def State.tileBlockLegal (s : State) (o : Word) : Prop :=
  let y := s.lmWords o.toNat 4
  let w1 := y.getD 1 0
  let k := y.getD 2 0
  blockOk o 32 = true ∧ (zeroField w1 51 13 = true ∧ zeroField w1 19 13 = true) ∧
    (64 ≤ fld w1 32 19 ∧ fld w1 32 19 % 64 = 0 ∧ fld w1 0 19 % 64 = 0 ∧ fld w1 0 19 + fld w1 32 19 ≤ 0x74000) ∧
    (zeroField k 57 7 = true ∧ zeroField k 3 2 = true) ∧ (s.cf.fm = true ∨ fld k 0 3 < 6)
/-- The entry that TILEREG makes of the block at an offset: RESIDENT, with no responder and no stamp (R338). -/
def State.tileOf (s : State) (o : Word) : Tile :=
  let y := s.lmWords o.toNat 4
  let w1 := y.getD 1 0
  Tile.mk 1 (y.getD 0 0) s.cf.asid (fld w1 0 19) (fld w1 32 19) (y.getD 2 0) (y.getD 3 0) 0 false 0 false 0 0 none
/-- What TILEREG does with a tile where an entry is free, or where none is, which raises cause 59 if x0 takes no answer (R338). -/
def State.tileRegistered (s : State) (t : Tile) (d : Reg) : Option Nat → State
  | none => if d = 0 then s.raise59 6 else s.withRoom 1 0 (fun u => answering u d (2 ^ 63 + 1))
  | some n => s.withRoom (resultsOf d) 0 (fun s =>
    let (u, v) := s.newResult d
    (v.modPort v.iss.ep (fun p => { p with dir := p.dir.put n t })).answerCf u (BitVec.ofNat 64 n))

/-- Past its checks TILEREG turns on whether the directory has a free entry. -/
theorem execTilereg_checked {s : State} {a d : Reg} (hn : s.noPort true = false) (hl : s.tileBlockLegal (s.xr a)) :
    execTilereg a d s = .next (s.tileRegistered (s.tileOf (s.xr a)) d (s.freeTile s.iss.ep)) := by
  obtain ⟨hb, ⟨hz51, hz19⟩, ⟨hlen, hlen64, hbase, hin⟩, ⟨hz57, hz3⟩, hlvl⟩ := hl
  simp only [execTilereg, hn, hb, hz51, hz19, Nat.not_lt.2 hlen, hlen64, hbase, gt_iff_lt, Nat.not_lt.2 hin, hz57, hz3,
    recordLevel_permitted hlvl, bne_self_eq_false, beq_iff_eq, decide_false, Bool.or_false, Bool.not_true, Bool.false_eq_true, if_false]
  rw [State.freeTile]
  cases (List.range 128).find? (fun n => ((s.port s.iss.ep).dir.find n).isNone) <;> rfl

theorem State.tileRegistered_entry {s : State} {t : Tile} {d : Reg} {n : Nat} (hr : hasRoom s (resultsOf d) 0) :
    s.tileRegistered t d (some n) = ((s.newResult d).2.modPort (s.newResult d).2.iss.ep (fun p => { p with dir := p.dir.put n t })).answerCf
      (s.newResult d).1 (BitVec.ofNat 64 n) :=
  by rw [State.tileRegistered, State.withRoom_go hr]
theorem State.tileRegistered_full {s : State} {t : Tile} {d : Reg} (hd : d ≠ 0) (hr : hasRoom s (resultsOf d) 0) :
    s.tileRegistered t d none = answering s d (2 ^ 63 + 1) := by
  rw [resultsOf, if_neg hd] at hr
  exact (if_neg hd).trans (State.withRoom_go hr)

/-! ## TILEDEL and TILEMOVE: what an entry refuses (R339, R356) -/

/-- The code that an entry answers to an instruction on tiles: 2 where it is free, 3 where it is of another ASID, 1 where it is busy, and 0
where the instruction goes on. -/
def State.tileCode (s : State) (busy : Tile → Bool) : Option Tile → Nat
  | none => 2
  | some t => if (t.asid != s.cf.asid && !s.cf.fm) = true then 3 else if busy t = true then 1 else 0
/-- A tile is not RESIDENT, and may not be deleted (R339). -/
def Tile.notResident (t : Tile) : Bool := t.st != 1
/-- A tile is not RESIDENT or is removed, and may not be moved (R356). -/
def Tile.notMovable (t : Tile) : Bool := t.st != 1 || t.removed

section
variable {s : State} {busy : Tile → Bool} {t : Tile}

theorem State.tileCode_foreign (ha : t.asid ≠ s.cf.asid) (hf : s.cf.fm = false) : s.tileCode busy (some t) = 3 :=
  if_pos (by rw [bne_iff_ne.2 ha, hf]; rfl)
/-- An entry of the frame's ASID, or one that firmware names, is not another's. -/
theorem tileOwner_permitted (ho : t.asid = s.cf.asid ∨ s.cf.fm = true) : (t.asid != s.cf.asid && !s.cf.fm) = false := by
  obtain h | h := ho
  · rw [h, bne_self_eq_false, Bool.false_and]
  · rw [h, Bool.not_true, Bool.and_false]
theorem State.tileCode_busy (ho : t.asid = s.cf.asid ∨ s.cf.fm = true) (hb : busy t = true) : s.tileCode busy (some t) = 1 := by
  rw [State.tileCode, if_neg (ne_true_of_eq_false (tileOwner_permitted ho)), if_pos hb]
end

/-! ## TILEDEL (R339) -/

/-- The state in which a tile is deleted: freed where it has no LIVE responder, else marked as removed (R339). -/
def State.tileDeleted (s : State) (ep n : Nat) (t : Tile) : State :=
  if t.live = 0 then s.modPort ep (fun p => { p with dir := p.dir.del n }) else s.modTile ep n (fun t => { t with removed := true })

section
variable {s : State} {a d : Reg} (hn : s.noPort false = false) (hz : zeroField (s.xr a) 7 57 = true) (hr : hasRoom s (resultsOf d) 0)
include hn hz hr

theorem execTiledel_refused {k : Nat} (hk : s.tileCode Tile.notResident ((s.port s.iss.ep).dir.find (s.xr a).toNat) = k) (h0 : k ≠ 0) :
    execTiledel a d s = .next (answering s d k) := by
  subst hk
  simp only [execTiledel, hn, hz, State.withRoom_resultsOf hr, beq_iff_eq, Bool.not_or, Bool.not_true, Bool.false_eq_true, if_false]
  revert h0
  cases (s.port s.iss.ep).dir.find (s.xr a).toNat with
  | none => exact fun _ => rfl
  | some t =>
    rw [State.tileCode]
    split
    · exact fun _ => congrArg _ (if_pos ‹_›)
    · split
      · exact fun _ => congrArg _ ((if_neg ‹_›).trans (if_pos ‹_›))
      · exact fun h0 => absurd rfl h0
theorem execTiledel_deletes {t : Tile} (he : (s.port s.iss.ep).dir.find (s.xr a).toNat = some t)
    (ho : t.asid = s.cf.asid ∨ s.cf.fm = true) (hst : t.st = 1) : execTiledel a d s =
      .next (((s.newResult d).2.tileDeleted (s.newResult d).2.iss.ep (s.xr a).toNat t).answerCf (s.newResult d).1 0) := by
  have mine : (t.asid == s.cf.asid || s.cf.fm) = true := by
    simpa only [Bool.or_eq_true, beq_iff_eq] using ho
  simp only [execTiledel, hn, hz, he, mine, hst, State.withRoom_resultsOf hr, State.tileDeleted, beq_iff_eq, bne_self_eq_false,
    Bool.not_true, Bool.false_eq_true, if_false]
  exact congrArg _ (apply_ite (fun u => State.answerCf u (s.newResult d).1 0) ..).symm
end

/-! ## TILEMOVE (R356) -/

/-- The words of TILEMOVE keep R356. -/
def moveWordsLegal (x w : Word) : Prop := zeroField x 17 47 = true ∧ zeroField x 7 1 = true ∧ zeroField w 31 33 = true
/-- A tile may be moved to the base and the core that a word names (R356). -/
def State.moveTargetLegal (s : State) (w : Word) (t : Tile) : Prop :=
  (fld w 12 19 % 64 = 0 ∧ fld w 12 19 + t.len ≤ 0x74000) ∧ fld w 0 12 ≠ s.iss.ep ∧ s.disabled (fld w 0 12) = false ∧
    (s.cf.fm = true ∨ s.cc.firewalled (fld w 0 12) = false)
/-- The successor of a move: none, or the record that its word names, released to the destination (R356). -/
def State.moveSucc (s : State) (x w : Word) (sw : SuccWord) : Prop :=
  (bitOf x 16 = true ∧ sw = .none) ∨
    (bitOf x 16 = false ∧ ∃ r, s.postChecks (BitVec.ofNat 64 (fld x 8 8)) (BitVec.ofNat 64 (fld w 0 12)) = .ok r ∧ sw = .ok r)
/-- The state in which a tile is MOVING and its reservation on its way to the destination (R356). -/
def State.moveQueued (s : State) (sw : SuccWord) (n : Nat) (w : Word) (t : Tile) (d : Reg) : State :=
  let dst := fld w 0 12
  let (id, v) := (s.acceptSucc sw).fresh
  let m := TileMove.mk v.iss.ep n dst (fld w 12 19) none t.key t.asid t.len t.kind t.user sw.rel? id v.cf.level.toNat
  let v := v.modTile v.iss.ep n (fun t => { t with st := 2, peer := dst, moved := 0, move := some m })
  let (u, v) := v.newResult d
  (v.answerCf u 0).releaseThen (widerScope .module (succScope v.iss.ep sw.rel?)) [(0, v.iss.ep, dst, .tileReserve m)]

section
variable {s : State} {b a d : Reg} (hn : s.noPort true = false) (hl : moveWordsLegal (s.xr a) (s.xr b))
include hn hl

theorem execTilemove_refused {k : Nat} (hk : s.tileCode Tile.notMovable ((s.port s.iss.ep).dir.find (fld (s.xr a) 0 7)) = k) (h0 : k ≠ 0)
    (hd : d ≠ 0) (hr : hasRoom s (resultsOf d) 0) : execTilemove b a d s = .next (answering s d k) := by
  obtain ⟨hz17, hz7, hz31⟩ := hl
  rw [resultsOf, if_neg hd] at hr
  simp only [execTilemove, hn, hz17, hz7, hz31, State.withRoom_go hr, beq_iff_eq, hd, Bool.or_false, Bool.not_true, Bool.false_eq_true,
    if_false]
  subst hk
  revert h0
  cases (s.port s.iss.ep).dir.find (fld (s.xr a) 0 7) <;> exact fun h0 => congrArg _ (if_pos (bne_iff_ne.2 h0))
theorem execTilemove_moves {t : Tile} {sw : SuccWord} (he : (s.port s.iss.ep).dir.find (fld (s.xr a) 0 7) = some t)
    (ho : t.asid = s.cf.asid ∨ s.cf.fm = true) (hst : t.st = 1) (hrem : t.removed = false) (ht : s.moveTargetLegal (s.xr b) t)
    (hdet : s.det = false) (hs : s.moveSucc (s.xr a) (s.xr b) sw) (hr : hasRoom s (resultsOf d) 1) :
    execTilemove b a d s = .next (s.moveQueued sw (fld (s.xr a) 0 7) (s.xr b) t d) := by
  obtain ⟨hz17, hz7, hz31⟩ := hl
  obtain ⟨⟨hbase, hin⟩, hdst, hdis, hfw⟩ := ht
  have reachable : (!s.cf.fm && s.cc.firewalled (fld (s.xr b) 0 12)) = false := by
    obtain h | h := hfw
    · rw [h, Bool.not_true, Bool.false_and]
    · rw [h, Bool.and_false]
  simp only [execTilemove, hn, hz17, hz7, hz31, he, tileOwner_permitted ho, hst, hrem, hbase, gt_iff_lt, Nat.not_lt.2 hin, hdst, hdis,
    reachable, hdet, State.withRoom_resultsOf hr, bne_self_eq_false, beq_iff_eq, decide_false, Bool.or_false, Bool.not_true,
    Bool.false_eq_true, if_false]
  obtain ⟨hnone, rfl⟩ | ⟨hrec, r, hp, rfl⟩ := hs
  · simp only [hnone, if_true]
    rfl
  · simp only [hrec, hp, Bool.false_eq_true, if_false]
    rfl
end

/-! ## CENSQ (R364) -/

/-- The census of an id that the issuing frame may ask about. -/
def State.censusSeen (s : State) (id : Nat) : Option CensusSlot :=
  s.census.slots.find? (fun c => c.q.id == id && (s.cf.fm || c.q.asid == s.cf.asid))
/-- How many answers the module root holds for a census. -/
def State.answersAtRoot (s : State) (id : Nat) : Nat :=
  match (s.node 516).under.find? (fun u => u.id == id) with
  | some u => u.got.length
  | none => 0
/-- What CENSQ answers of a census: its progress while it is LIVE, all answers once it is written, 0 of none (R364). -/
def State.censusProgress (s : State) (id : Nat) : Nat :=
  match s.censusSeen id with
  | some c => if c.st = 2 then s.answersAtRoot id * 2 ^ 32 + 2 else c.roots * 2 ^ 32 + 3
  | none => 0

section
variable {s : State} {id : Nat} {c : CensusSlot}

theorem State.censusProgress_live (hc : s.censusSeen id = some c) (hst : c.st = 2) :
    s.censusProgress id = s.answersAtRoot id * 2 ^ 32 + 2 := by
  rw [State.censusProgress, hc]
  exact if_pos hst
theorem State.censusProgress_written (hc : s.censusSeen id = some c) (hst : c.st ≠ 2) : s.censusProgress id = c.roots * 2 ^ 32 + 3 := by
  rw [State.censusProgress, hc]
  exact if_neg hst
theorem State.censusProgress_none (hc : s.censusSeen id = none) : s.censusProgress id = 0 := by
  rw [State.censusProgress, hc]

theorem execCensq_answers {a d : Reg} {k : Nat} (hn : s.noPort false = false) (hz : zeroField (s.xr a) 16 48 = true) (hdet : s.det = false)
    (hr : hasRoom s (resultsOf d) 0) (hk : s.censusProgress (s.xr a).toNat = k) : execCensq a d s = .next (answering s d k) := by
  simp only [execCensq, hn, hz, hdet, State.withRoom_resultsOf hr, beq_iff_eq, Bool.not_true, Bool.false_eq_true, if_false]
  subst hk
  rfl
end

/-- Settles O24: past its checks each instruction queues its request, or answers what its entry or census is found to be. -/
theorem censusInstructionsComplete : Obligations.CensusInstructionsComplete := by
  unfold Obligations.CensusInstructionsComplete
  intro s b a d sw x room o det
  refine ⟨?solicit, ?respond, ?cbar, ?tilereg, ?tiledel, ?tilemove, ?censq⟩
  case solicit =>
    intro w hm hb hz hv hs hok hdet hr
    -- Elaborated without the goal, as `( … :)` does: the goal takes a pair apart, which unification would unfold.
    exact (execSolicit_queues hm hb rfl hz hv hs hok hdet hr :)
  case respond => exact fun r hm hf hd row hrow hz ha hl hr => execRespond_responds hm hf hd hrow hz ha hl hr
  case cbar =>
    intro y w sc score hn hb hz44 hz28 hz3 hz32 hsc hsc' hop hop' hnp hmod hcore hs hok hdet hr
    exact (execCbar_queues hn ⟨hb, ⟨hz44, hz28, hz3, hz32⟩, ⟨hsc, hsc'⟩, ⟨hop, hop'⟩, hnp, hmod, hcore⟩ hs hok hdet hr :)
  case tilereg =>
    intro y w1 k len base free hn hb hz51 hz19 hlen hlen64 hbase hin hz57 hz3 hlvl hr
    have checked := execTilereg_checked (d := d) hn ⟨hb, ⟨hz51, hz19⟩, ⟨hlen, hlen64, hbase, hin⟩, ⟨hz57, hz3⟩, hlvl⟩
    refine ⟨fun n hf => checked.trans ?_, fun hf hd => checked.trans ?_⟩ <;> rw [show s.freeTile s.iss.ep = _ from hf]
    · exact congrArg _ (State.tileRegistered_entry hr)
    · exact congrArg _ (State.tileRegistered_full hd hr)
  case tiledel =>
    intro e hn hz hr
    have refused {k : Nat} (hk : s.tileCode Tile.notResident e = k) (h0 : k ≠ 0) := execTiledel_refused hn hz hr hk h0
    have deletes {t : Tile} (he : e = some t) ho hst := execTiledel_deletes hn hz hr he ho hst
    refine ⟨fun he => refused (congrArg _ he) (by decide),
      fun t he ha hf => refused ((congrArg _ he).trans (State.tileCode_foreign ha hf)) (by decide),
      fun t he ho hst => refused ((congrArg _ he).trans (State.tileCode_busy ho (bne_iff_ne.2 hst))) (by decide),
      fun t he ho hst hlive => (deletes he ho hst).trans ?_, fun t he ho hst hlive => (deletes he ho hst).trans ?_⟩
    · rw [State.tileDeleted, if_pos hlive]
    · rw [State.tileDeleted, if_neg hlive]
  case tilemove =>
    intro w n dst base hn hz17 hz7 hz31
    have legal : moveWordsLegal x w := ⟨hz17, hz7, hz31⟩
    have refused {k : Nat} (hk : s.tileCode Tile.notMovable ((s.port s.iss.ep).dir.find n) = k) (h0 : k ≠ 0) :=
      execTilemove_refused (d := d) hn legal hk h0
    refine ⟨fun he => refused (congrArg _ he) (by decide), fun t he => ⟨
      fun ha hf => refused ((congrArg _ he).trans (State.tileCode_foreign ha hf)) (by decide),
      fun ho hbusy => refused ((congrArg _ he).trans (State.tileCode_busy ho ?_)) (by decide),
      fun ho hst hrem hbase hin hdst hdis hfw hdet hsw hr => ?_⟩⟩
    · rw [Tile.notMovable, Bool.or_eq_true, bne_iff_ne]
      exact hbusy
    · have hs : s.moveSucc x w sw := by
        split at hsw
        · exact .inl ⟨‹_›, hsw⟩
        · split at hsw
          · exact .inr ⟨eq_false_of_ne_true ‹_›, _, ‹_›, hsw⟩
          · exact hsw.elim
      exact (execTilemove_moves hn legal he ho hst hrem ⟨⟨hbase, hin⟩, hdst, hdis, hfw⟩ hdet hs hr :)
  case censq =>
    intro mine got hit hn hz hdet hr
    have answers {k : Nat} (hk : s.censusProgress o = k) := execCensq_answers hn hz hdet hr hk
    exact ⟨fun c hc hst => answers (State.censusProgress_live hc hst), fun c hc hst => answers (State.censusProgress_written hc hst),
      fun hc => answers (State.censusProgress_none hc)⟩

end Sys2Proof.Machine
end

section
/-! Steps of censuses, of tile moves and of barriers (10_census.md R343 to R363). -/

namespace Sys2Proof.Machine

/-! ## The steps act on the event they are -/

section
variable {s : State} {q : Solicit} {m : TileMove} {ep id n : Nat}

theorem exec_solicitRequest_of_ev (h : s.ev = some (.solicitRequest q)) : exec .solicitRequest s = execSolicitRequest q s := by
  rw [show exec .solicitRequest s = runSolicitRequest s from rfl, runSolicitRequest, h]
theorem exec_remoteCensus_of_ev (h : s.ev = some (.remoteCensus q)) : exec .remoteCensus s = execRemoteCensus q s := by
  rw [show exec .remoteCensus s = runRemoteCensus s from rfl, runRemoteCensus, h]
theorem exec_censusLive_of_ev (h : s.ev = some .censusLive) : exec .censusLive s = execCensusLive s := by
  rw [show exec .censusLive s = runCensusLive s from rfl, runCensusLive, h]
theorem exec_epochMarkApply_of_ev (h : s.ev = some (.epochMarkApply ep n)) : exec .epochMarkApply s = execEpochMarkApply ep n s := by
  rw [show exec .epochMarkApply s = runEpochMarkApply s from rfl, runEpochMarkApply, h]
theorem exec_solicitScan_of_ev (h : s.ev = some (.solicitScan ep id q)) : exec .solicitScan s = execSolicitScan ep id q s := by
  rw [show exec .solicitScan s = runSolicitScan s from rfl, runSolicitScan, h]
theorem exec_coreAnswer_of_ev (h : s.ev = some (.coreAnswer ep id n)) : exec .coreAnswer s = execCoreAnswer ep id n s := by
  rw [show exec .coreAnswer s = runCoreAnswer s from rfl, runCoreAnswer, h]
theorem exec_answerFold_of_ev {child : Nat} {a : Option Answer} (h : s.ev = some (.answerFold n id child a)) :
    exec .answerFold s = execAnswerFold n id child a s := by
  rw [show exec .answerFold s = runAnswerFold s from rfl, runAnswerFold, h]
theorem exec_censusResultWrite_of_ev (h : s.ev = some (.censusResultWrite id)) : exec .censusResultWrite s = execCensusResultWrite id s := by
  rw [show exec .censusResultWrite s = runCensusResultWrite s from rfl, runCensusResultWrite, h]
theorem exec_censusComplete_of_ev (h : s.ev = some (.censusComplete id)) : exec .censusComplete s = execCensusComplete id s := by
  rw [show exec .censusComplete s = runCensusComplete s from rfl, runCensusComplete, h]
theorem exec_tileReserve_of_ev (h : s.ev = some (.tileReserve m)) : exec .tileReserve s = execTileReserve m s := by
  rw [show exec .tileReserve s = runTileReserve s from rfl, runTileReserve, h]
theorem exec_tileCommit_of_ev (h : s.ev = some (.tileCommit m)) : exec .tileCommit s = execTileCommit m s := by
  rw [show exec .tileCommit s = runTileCommit s from rfl, runTileCommit, h]
theorem exec_tileCommitArrival_of_ev {stamp : Nat} {sv : Bool} (h : s.ev = some (.tileCommitArrival m stamp sv)) :
    exec .tileCommitArrival s = execTileCommitArrival m stamp sv s := by
  rw [show exec .tileCommitArrival s = runTileCommitArrival s from rfl, runTileCommitArrival, h]
theorem exec_barrierContribution_of_ev {b : BarReq} (h : s.ev = some (.barrierContribution b)) :
    exec .barrierContribution s = execBarrierContribution b s := by
  rw [show exec .barrierContribution s = runBarrierContribution s from rfl, runBarrierContribution, h]
end

/-! ## Requests at the module root (R343, R344, R362) -/

section
variable {s : State} {q : Solicit} {full : State → State}

/-- The state in which a request waits at the module root. -/
def State.requestQueued (s : State) (q : Solicit) : State := s.modRoot (fun r => { r with queue := r.queue ++ [q] })

theorem State.fillSlots_empty (hq : s.census.queue = []) (n : Nat) : s.fillSlots n = s := by
  cases n with
  | zero => rfl
  | succ n => rw [State.fillSlots, hq]
/-- No queued request becomes LIVE while no id may be issued (R344). -/
theorem State.fillSlots_blocked (hm : s.census.mayLive = false) (n : Nat) : s.fillSlots n = s := by
  cases n with
  | zero => rfl
  | succ n =>
    cases hq : s.census.queue with
    | nil => exact State.fillSlots_empty hq _
    | cons q l => rw [State.fillSlots, hq, hm]; rfl
theorem State.fillSlots_oldest {l : List Solicit} {n : Nat} (hq : s.census.queue = q :: l) (hm : s.census.mayLive = true) :
    s.fillSlots (n + 1) = ((s.modRoot (fun r => { r with queue := l })).makeLive q).fillSlots n := by
  rw [State.fillSlots, hq, hm]
  rfl

theorem State.takeRequest_live (hq : s.census.queue = []) (hm : s.census.mayLive = true) : s.takeRequest q full = s.makeLive q := by
  rw [State.takeRequest, State.fillSlots_empty hq, hq, hm]
  rfl
theorem State.takeRequest_queues (hm : s.census.mayLive = false) (hl : s.census.queue.length < 48) :
    s.takeRequest q full = s.requestQueued q := by
  rw [State.takeRequest, State.fillSlots_blocked hm, hm, Bool.and_false]
  exact if_neg (Nat.not_le.2 hl)

theorem execSolicitRequest_live (hq : s.census.queue = []) (hm : s.census.mayLive = true) :
    execSolicitRequest q s = .next (s.makeLive q) := by
  rw [execSolicitRequest, State.takeRequest_live hq hm]
theorem execSolicitRequest_queues (hm : s.census.mayLive = false) (hl : s.census.queue.length < 48) :
    execSolicitRequest q s = .next (s.requestQueued q) := by
  rw [execSolicitRequest, State.takeRequest_queues hm hl]
theorem execRemoteCensus_live (hq : s.census.queue = []) (hm : s.census.mayLive = true) :
    execRemoteCensus q s = .next (s.makeLive q) := by
  rw [execRemoteCensus, State.takeRequest_live hq hm]
theorem execRemoteCensus_queues (hm : s.census.mayLive = false) (hl : s.census.queue.length < 48) :
    execRemoteCensus q s = .next (s.requestQueued q) := by
  rw [execRemoteCensus, State.takeRequest_queues hm hl]
theorem execCensusLive_blocked (hm : s.census.mayLive = false) : execCensusLive s = .next s := by
  rw [execCensusLive, State.fillSlots_blocked hm]
theorem execCensusLive_oldest {l : List Solicit} (hq : s.census.queue = q :: l) (hm : s.census.mayLive = true) :
    execCensusLive s = .next (((s.modRoot (fun r => { r with queue := l })).makeLive q).fillSlots 15) := by
  rw [execCensusLive, State.fillSlots_oldest hq hm]
end

/-! ## Epoch marks and solicits at a core (R345, R347, R360, R361) -/

section
variable {s : State} {q : Solicit} {ep id n : Nat}

theorem execEpochMarkApply_applies (hc : (s.core ep).code ≠ 2) : execEpochMarkApply ep n s = .next (s.applyMark ep n) :=
  congrArg _ (if_neg (mt eq_of_beq hc))
theorem execEpochMarkApply_held (hc : (s.core ep).code = 2) :
    execEpochMarkApply ep n s = .next (s.modPort ep (fun p => { p with held := p.held ++ [.epochMarkApply ep n] })) :=
  congrArg _ (if_pos (beq_iff_eq.2 hc))

/-- The entries of a port that answer a census: those that match and are not blocked (R340, R358). -/
def CensusPort.answering (p : CensusPort) (q : Solicit) : List (Nat × Tile) :=
  (p.dir.filter (fun e => e.2.matching q)).filter (fun e => !e.2.blocked q.id)
/-- The state in which a census has the lowest free row of a port, with nothing answered (R345). -/
def State.rowOpened (s : State) (ep id : Nat) (q : Solicit) : State :=
  let row := ((List.range 64).find? (fun k => !(s.port ep).rows.any (fun r => r.row == k))).getD 0
  s.modPort ep (fun p => { p with rows := p.rows ++ [OpenRow.mk row q id 0 0 0 0 []] })

theorem execSolicitScan_opens (h2 : (s.core ep).code ≠ 2) (h4 : (s.core ep).code ≠ 4) : execSolicitScan ep id q s =
    .next ((((s.port ep).answering q).foldl (fun t e => t.spawnResponder ep id q e.1 e.2) (s.rowOpened ep id q)).answerKick ep) := by
  have live : ((s.core ep).code == 2 && !(s.port ep).dir.any (fun t => t.2.st == 2)) = false := by
    rw [beq_eq_false_iff_ne.2 h2, Bool.false_and]
  exact congrArg _ ((if_neg (ne_true_of_eq_false live)).trans (if_neg (mt eq_of_beq h4)))
end

/-! ## The answer of a core (R347, R353) -/

/-- What a row answers: the payloads of its ended responders folded, with their counts (R347). -/
def OpenRow.answer (r : OpenRow) : Answer :=
  { foldAnswers (solOp r.q.words) ((r.pays.filter (fun x => x.2.2)).map (fun x => Answer.mk 1 0 0 0 x.2.1)) with
    nresp := r.nresp, nmiss := r.nmiss, nfault := r.nfault }

theorem execCoreAnswer_answers {s : State} {ep id n : Nat} {r : OpenRow} (hrow : (s.port ep).rows.find? (OpenRow.isOf n id) = some r)
    (hl : r.left = 0) (hd : (s.port ep).defers r.q = false) (hp : (s.core ep).respondPending r = false) : execCoreAnswer ep id n s =
      .next ((s.modPort ep (fun p => { p with rows := p.rows.filter (fun x => !x.isOf n id) })).answerUp ep id n r.answer) := by
  rw [show OpenRow.isOf n id = fun y => y.q.id == n && y.asId == id from rfl] at hrow
  simp only [execCoreAnswer, hrow, hl, hd, hp, bne_self_eq_false, Bool.or_false, Bool.false_eq_true, if_false]
  rfl

/-! ## Answers folded at a node (R350, R351) -/

/-- A census at a node with the answer of a child kept. -/
def NodeCensus.keeping (u : NodeCensus) (child : Nat) (a : Answer) : NodeCensus := { u with got := u.got.put child a }
/-- The state in which a node has answered a census. -/
def State.nodeClosed (s : State) (n id : Nat) : State := s.modNode n (fun c => { c with under := c.under.filter (fun x => x.id != id) })
/-- The state in which the folded answer of a node has gone on: to the node above, or at the module root into the result (R350, R351). -/
def State.foldedUp (s : State) (n id unreach roots : Nat) (f : Answer) : State :=
  if n == 516 then s.censusAnswered id unreach roots f
  else s.send 1 (nodeEp n) (nodeEp (nodeAbove n).1) (.answerFold (nodeAbove n).1 id (nodeAbove n).2 (some f))

section
variable {s : State} {n id child : Nat} {a : Answer} {u : NodeCensus} (hu : (s.node n).under.find? (fun u => u.id == id) = some u)
  (hn : u.need.contains child = true) (hg : u.got.find child = none)
include hu hn hg

theorem execAnswerFold_keeps (hl : (u.keeping child a).got.length < u.need.length) : execAnswerFold n id child (some a) s =
    .next (s.modNode n (fun c => { c with under := c.under.map (fun x => if x.id == id then u.keeping child a else x) })) := by
  simp only [execAnswerFold, hu, hn, hg, Option.isSome_none, Option.isNone_some, Bool.and_false, Bool.or_false, Bool.not_true,
    Bool.false_eq_true, if_false, beq_self_eq_true, if_true]
  exact congrArg _ (if_pos hl)
theorem execAnswerFold_folds {c : CensusSlot} (hl : u.need.length ≤ (u.keeping child a).got.length)
    (hc : s.census.slots.find? (fun c => c.q.id == id) = some c) : execAnswerFold n id child (some a) s =
      .next ((s.nodeClosed n id).foldedUp n id c.unreach u.need.length
        (foldAnswers (solOp c.q.words) ((u.keeping child a).got.map Prod.snd))) := by
  simp only [execAnswerFold, hu, hn, hg, Option.isSome_none, Option.isNone_some, Bool.and_false, Bool.or_false, Bool.not_true,
    Bool.false_eq_true, if_false, beq_self_eq_true, if_true]
  refine congrArg _ ((if_neg (Nat.not_lt.2 hl)).trans ?_)
  rw [show (s.modNode n _).census.slots.find? (fun c => c.q.id == id) = some c from hc]
  rfl
end

/-! ## The result of a census, and its end (R352, R362) -/

/-- The state in which the result of a census is on its way to the asker's LM, its slot waiting for the acknowledgements (R352). -/
def State.resultSent (s : State) (id : Nat) (c : CensusSlot) : State :=
  let b := resultBytes c
  let k := ceilDiv b.length 8
  (List.range k).foldl (fun t k => t.send 0 censusRoot c.q.asker
      (.store (rootStore censusRoot c.q.asker (solRoff c.q.words + 8 * k) id 1 c.q.asid ((b.drop (8 * k)).take 8))))
    (s.modRoot (fun r => { r with slots := r.slots.map (fun x => if x.slot == c.slot then { x with acks := k } else x) }))
/-- The state in which a written census is over: its slot free, its flags at the asker's geode, its successor released (R352, R362). -/
def State.censusOver (s : State) (c : CensusSlot) : State :=
  let st := if c.answer.nfault == 0 && c.unreach == 0 then 0 else 2
  let t := (s.modRoot (fun r => { r with slots := r.slots.filter (fun x => x.slot != c.slot) })).modGeode (epGeode c.q.asker)
    (fun g => { g with sticky := g.sticky ||| c.answer.flags })
  ((t.releaseSucc censusRoot c.q.rel st c.answer.flags.toNat).fireDone censusRoot c.q.fire st c.answer.flags.toNat).laterOnce .censusLive

section
variable {s : State} {id : Nat} {c : CensusSlot} (hc : s.census.slots.find? (fun c => c.q.id == id && c.st == 3) = some c)
include hc

theorem execCensusResultWrite_stores : execCensusResultWrite id s = .next (s.resultSent id c) := by
  rw [execCensusResultWrite, hc]
  rfl
theorem execCensusComplete_ends : execCensusComplete id s = .next (s.censusOver c) := by
  rw [execCensusComplete, hc]
  rfl
end

/-! ## Tile moves (R356, R357, R360) -/

section
variable {s : State} {m : TileMove}

theorem execTileReserve_takes {k : Nat} (ho : s.scanOwed m = false) (hr : (s.core m.dst).refuses = false) (hf : s.freeTile m.dst = some k) :
    execTileReserve m s = .next ((s.modPort m.dst (fun p => { p with
      dir := p.dir.put k (Tile.mk 3 m.key m.asid m.base m.len m.kind m.user 0 false 0 false m.src 0 none) })).send 1 m.dst m.src
        (.tileCommit { m with dentry := some k })) := by
  rw [State.freeTile] at hf
  simp only [execTileReserve, ho, hr, hf, Bool.false_eq_true, if_false]
theorem execTileReserve_noRoom (ho : s.scanOwed m = false) (hr : (s.core m.dst).refuses = false) (hf : s.freeTile m.dst = none) :
    execTileReserve m s = .next (s.send 1 m.dst m.src (.tileCommit m)) := by
  rw [State.freeTile] at hf
  simp only [execTileReserve, ho, hr, hf, Bool.false_eq_true, if_false]

/-- The store of the next bytes of a moving tile to the destination's entry `d` (R356). -/
def State.tileStore (s : State) (m : TileMove) (d : Nat) (t : Tile) : Access :=
  Access.mk m.src (8 + m.entry) 0 m.asid d 1 m.dst (m.base + t.moved) none 0 false false (.store (s.lmRead m.src (t.base + t.moved) 8)) m.prio
/-- What the source of a move does next: it sends bytes, waits for the responders of the tile, or frees the entry and commits (R356). -/
def State.moveGoesOn (s : State) (m : TileMove) (d : Nat) (t : Tile) : State :=
  if t.moved < t.len then
    (s.modTile m.src m.entry (fun t => { t with move := some m })).send 0 m.src m.dst (.store (s.tileStore m d t))
  else if t.live ≠ 0 then s.modTile m.src m.entry (fun t => { t with move := some m })
  else (s.modPort m.src (fun p => { p with dir := p.dir.del m.entry })).send 0 m.src m.dst (.tileCommitArrival m t.stamp t.sv)

theorem execTileCommit_goesOn {d : Nat} {t : Tile} (hd : m.dentry = some d) (ht : (s.port m.src).moving m = some t)
    (hr : (s.core m.dst).refuses = false) (hdis : s.disabled m.dst = false) : execTileCommit m s = .next (s.moveGoesOn m d t) := by
  simp only [execTileCommit, hd, ht, hr, hdis, Bool.or_false, Bool.false_eq_true, if_false, bne_iff_ne]
  rfl

/-- The state in which the entry of a move is RESIDENT at its destination, its stamp valid unless it has aged (R356, R360). -/
def State.tileSettled (s : State) (m : TileMove) (stamp : Nat) (sv : Bool) : State :=
  s.modTile m.dst (m.dentry.getD 0) (fun t =>
    { t with st := 1, stamp := stamp, sv := sv && !aged (s.port m.dst).lastEpoch stamp, peer := 0 })
/-- The state in which an entry has answered the census of a row that it matches (R357). -/
def State.entryAnswers (ep k : Nat) (s : State) (r : OpenRow) : State :=
  match (s.port ep).dir.find k with
  | some e => if e.matching r.q && !e.blocked r.q.id then s.spawnResponder ep r.asId r.q k e else s
  | none => s
/-- The open rows of a port in the order in which the ids of their censuses were issued (R357). -/
def State.rowsByAge (s : State) (ep : Nat) : List OpenRow :=
  sortBy (fun (r : OpenRow) => (r.q.id + 65536 - s.census.nextId) % 65536) (s.port ep).rows

theorem execTileCommitArrival_settles {stamp : Nat} {sv : Bool} (hr : (s.core m.dst).refuses = false) :
    execTileCommitArrival m stamp sv s =
      (let t := s.tileSettled m stamp sv
       let k := m.dentry.getD 0
       .next (((((t.rowsByAge m.dst).foldl (State.entryAnswers m.dst k) t).releaseSucc m.dst m.rel 0 k).answerKick m.dst).send 1 m.dst m.src
        (.tileCommit m))) := by
  simp only [execTileCommitArrival, hr, Bool.false_eq_true, if_false]
  rfl
end

/-! ## Barriers (R363) -/

/-- An open barrier is the one that a contribution names. -/
def Barrier.isOf (b : BarReq) (x : Barrier) : Bool := x.asid == b.asid && fld x.word0 8 8 == fld b.word0 8 8
/-- The state in which a contribution is accepted: its CBAR answers 0. -/
def State.joinAnswered (s : State) (b : BarReq) : State := s.answerWord b.core b.win b.fid b.uid 0
/-- The barrier that a contribution opens, in the lowest free place of its node. -/
def State.barrierOf (s : State) (b : BarReq) : Barrier :=
  Barrier.mk (((List.range 16).find? (fun k => !(s.node b.node).bars.any (fun b => b.idx == k))).getD 0) b.asid b.word0 [b]
/-- A barrier that one more contribution has joined. -/
def Barrier.join (x : Barrier) (b : BarReq) : Barrier := { x with joined := x.joined ++ [b] }

section
variable {s : State} {b : BarReq}

theorem execBarrierContribution_opens (hx : (s.node b.node).bars.find? (Barrier.isOf b) = none)
    (hl : (s.node b.node).bars.length < nodeBars b.node) : execBarrierContribution b s =
      .next (if fld b.word0 16 12 ≤ 1 then (s.joinAnswered b).barDone (s.barrierOf b)
        else (s.modNode b.node (fun c => { c with bars := c.bars ++ [s.barrierOf b] })).joinAnswered b) := by
  rw [show Barrier.isOf b = fun x => x.asid == b.asid && fld x.word0 8 8 == fld b.word0 8 8 from rfl] at hx
  simp only [execBarrierContribution, hx, Nat.not_le.2 hl, if_false]
  rfl
theorem execBarrierContribution_joins {x : Barrier} (hx : (s.node b.node).bars.find? (Barrier.isOf b) = some x) (hw : x.word0 = b.word0)
    (hj : x.joined.any (fun y => y.core == b.core) = false) : execBarrierContribution b s =
      .next (if fld x.word0 16 12 ≤ (x.join b).joined.length then
          ((s.modNode b.node (fun c => { c with bars := c.bars.filter (fun y => y.idx != x.idx) })).joinAnswered b).barDone (x.join b)
        else (s.modNode b.node (fun c => { c with bars := c.bars.map (fun y => if y.idx == x.idx then x.join b else y) })).joinAnswered b) := by
  rw [show Barrier.isOf b = fun x => x.asid == b.asid && fld x.word0 8 8 == fld b.word0 8 8 from rfl] at hx
  simp only [execBarrierContribution, hx, bne_eq_false_iff_eq.2 hw, hj, Bool.or_false, Bool.false_eq_true, if_false]
  rfl
end

/-- Settles O32: each step acts on the event it is, and where its conditions hold does what its rule says. -/
theorem censusStepsComplete : Obligations.CensusStepsComplete := by
  unfold Obligations.CensusStepsComplete
  intro s q ep id n m
  refine ⟨?requests, ?mark, ?scan, ?answer, ?fold, ?result, ?reserve, ?commit, ?arrival, ?barrier⟩
  case requests =>
    intro live later
    refine ⟨fun he => ?_, fun he => ?_, fun he => ?_⟩
    · rw [exec_solicitRequest_of_ev he]
      exact ⟨execSolicitRequest_live, execSolicitRequest_queues⟩
    · rw [exec_remoteCensus_of_ev he]
      exact ⟨execRemoteCensus_live, execRemoteCensus_queues⟩
    · rw [exec_censusLive_of_ev he]
      exact ⟨execCensusLive_blocked, fun l => execCensusLive_oldest⟩
  case mark =>
    intro he
    rw [exec_epochMarkApply_of_ev he]
    exact ⟨execEpochMarkApply_applies, execEpochMarkApply_held⟩
  case scan => exact fun he h2 h4 => (exec_solicitScan_of_ev he).trans (execSolicitScan_opens h2 h4)
  case answer => exact fun r he hrow hl hd hp => (exec_coreAnswer_of_ev he).trans (execCoreAnswer_answers hrow hl hd hp)
  case fold =>
    intro child a u he hu hn hg
    rw [exec_answerFold_of_ev he]
    exact ⟨execAnswerFold_keeps hu hn hg, fun c hl hc => execAnswerFold_folds hu hn hg hl hc⟩
  case result =>
    exact fun c hc => ⟨fun he => (exec_censusResultWrite_of_ev he).trans (execCensusResultWrite_stores hc),
      fun he => (exec_censusComplete_of_ev he).trans (execCensusComplete_ends hc)⟩
  case reserve =>
    intro he ho hr
    rw [exec_tileReserve_of_ev he]
    exact ⟨fun k => execTileReserve_takes ho hr, execTileReserve_noRoom ho hr⟩
  case commit =>
    intro d t he hd ht hr hdis
    rw [exec_tileCommit_of_ev he, execTileCommit_goesOn hd ht hr hdis]
    exact ⟨fun hm => congrArg _ (if_pos hm), fun hm hl => congrArg _ ((if_neg (Nat.not_lt.2 hm)).trans (if_pos hl)),
      fun hm hl => congrArg _ ((if_neg (Nat.not_lt.2 hm)).trans (if_neg (not_not.2 hl)))⟩
  case arrival => exact fun stamp sv he hr => (exec_tileCommitArrival_of_ev he).trans (execTileCommitArrival_settles hr)
  case barrier =>
    intro b c mine yes he
    rw [exec_barrierContribution_of_ev he]
    exact ⟨execBarrierContribution_opens, fun x => execBarrierContribution_joins⟩

end Sys2Proof.Machine
end

section
/-! Instructions of the copy engines, of bedrock groups and of the carve-out: CPY, CPYST, CPOLL, BSEAL, BOPEN and LLCFG (11_copy_engines.md
R372 to R390). -/

namespace Sys2Proof.Machine
open Sys2Proof.Safety

/-! ## CPY (R372) -/

/-- The block of a request at an offset of LM (R368). -/
def State.copyBlock (s : State) (o : Nat) : List Word := (List.range 4).map (fun k => s.lmWordInOrder (o + 8 * k))
/-- A request keeps R372 where it is first issued: its offset, its block, its handles and successor, and its barrier can count it. -/
def State.copyLegal (s : State) (o : Word) (w : List Word) (sw : SuccWord) : Prop :=
  (o.toNat % 8 = 0 ∧ o.toNat + 32 ≤ 0x80000) ∧ cqOk w = true ∧ s.cqFault w = none ∧ s.cqSucc w = sw ∧
    s.cc.copy.barFull (cqBar w) = false

/-- A number below 2^19 is an offset of LM and nothing else. -/
theorem lmOffset_fields {v : Word} (h : v.toNat < 0x80000) : zeroField v 19 45 = true := by
  rw [zeroField, fld, Nat.shiftRight_eq_div_pow, Nat.div_eq_of_lt h, Nat.zero_mod]
  rfl

section
variable {s : State} {n : Bool} {a d : Reg} {w : List Word} {sw : SuccWord} (hf : s.cc.copy.fifo.length < 4)
  (hr : hasRoom s (resultsOf d) 1)
include hf hr

/-- A CPY that was held on a full FIFO has its block and its successor from when it was checked (R372, R199). -/
theorem execCpy_enters_held (ha : s.cf.answer = some w) : execCpy n a d s = .next (s.enterFifo w s.keptSucc d) := by
  simp only [execCpy, ha, Nat.not_le.2 hf, State.withRoom_resultsOf hr, beq_iff_eq, if_false]
theorem execCpy_enters_checked (ha : s.cf.answer = none) (hw : s.copyBlock (s.xr a).toNat = w) (hl : s.copyLegal (s.xr a) w sw)
    (hok : legalSucc sw) (hdet : (s.det && (n || d != 0)) = false) : execCpy n a d s = .next (s.enterFifo w sw d) := by
  obtain ⟨⟨halign, hin⟩, hz, hfault, hs, hbar⟩ := hl
  rw [State.copyBlock] at hw
  simp only [execCpy, ha, hw, lmOffset_fields (Nat.lt_of_lt_of_le (Nat.lt_add_of_pos_right (by decide)) hin), halign, gt_iff_lt,
    Nat.not_lt.2 hin, hz, hfault, hs, hdet, hbar, Nat.not_le.2 hf, State.withRoom_resultsOf hr, bne_self_eq_false, beq_iff_eq,
    decide_false, Bool.or_false, Bool.not_true, Bool.false_eq_true, if_false]
  obtain rfl | ⟨r, rfl⟩ := hok <;> rfl
end

/-! ## CPYST and CPOLL (R379, R380) -/

/-- What CPYST answers of a transfer id: 3 where it is not yet accepted, 0 while the transfer is active, 1 once it is complete (R379). -/
def Engine.progress (e : Engine) (i : Nat) : Nat :=
  if 2 ^ 47 ≤ (e.nextId + 2 ^ 49 - 1 - i) % 2 ^ 48 then 3 else if e.xfers.any (fun t => t.id == i) then 0 else 1
/-- The first done barrier of a mask, from the rotation on (R380). -/
def CopyPort.firstDone (c : CopyPort) (m : Word) : Option Nat :=
  ((List.range 32).map (fun k => (c.rot + k) % 32)).find? (fun k => m.getLsbD k && (c.bar k).done)
/-- The state in which the done barrier `k`, which was `b`, is taken: its flags are clear and the rotation is past it (R380). -/
def State.barTaken (s : State) (k : Nat) (b : CopyBar) : State :=
  s.modCopy s.iss.ep (fun p => { p with bars := vset p.bars k (CopyBar.mk b.count false false), rot := (k + 1) % 32 })

section
variable {s : State} {a d : Reg} (hdet : s.det = false) (hr : hasRoom s (resultsOf d) 0)
include hdet hr

theorem execCpyst_answers (h56 : zeroField (s.xr a) 56 8 = true) (h53 : zeroField (s.xr a) 53 1 = true) : execCpyst a d s =
    .next (answering s d ((s.engine (copyEp (fld (s.xr a) 54 2) (fld (s.xr a) 48 5))).progress (fld (s.xr a) 0 48))) := by
  simp only [execCpyst, h56, h53, hdet, State.withRoom_resultsOf hr, beq_iff_eq, Bool.or_false, Bool.not_true, Bool.false_eq_true, if_false]
  rfl

variable (hz : zeroField (s.xr a) 32 32 = true)
include hz

/-- Past its checks CPOLL turns on whether a barrier of the mask is done. -/
theorem execCpoll_checked : execCpoll a d s = .next (
    match s.cc.copy.firstDone (s.xr a) with
    | none => answering s d (2 ^ 63)
    | some k => ((s.newResult d).2.barTaken k (s.cc.copy.bar k)).answerCf (s.newResult d).1
        (BitVec.ofNat 64 (bitNat (s.cc.copy.bar k).flt * 256 + k))) := by
  simp only [execCpoll, hz, hdet, State.withRoom_resultsOf hr, beq_iff_eq, Bool.not_true, Bool.false_eq_true, if_false]
  rfl
theorem execCpoll_none (hh : s.cc.copy.firstDone (s.xr a) = none) : execCpoll a d s = .next (answering s d (2 ^ 63)) := by
  rw [execCpoll_checked hdet hr hz, hh]
theorem execCpoll_takes {k : Nat} (hh : s.cc.copy.firstDone (s.xr a) = some k) : execCpoll a d s =
    .next (((s.newResult d).2.barTaken k (s.cc.copy.bar k)).answerCf (s.newResult d).1
      (BitVec.ofNat 64 (bitNat (s.cc.copy.bar k).flt * 256 + k))) := by
  rw [execCpoll_checked hdet hr hz, hh]
end

/-! ## BSEAL and BOPEN (R385) -/

/-- The word of BSEAL and BOPEN keeps R385: it names groups, none of them disabled. -/
def State.groupsLegal (s : State) (g : Word) : Prop :=
  let m := BitVec.ofNat 16 (fld g 0 16)
  zeroField g 18 46 = true ∧ m ≠ 0 ∧ (maskGroups m).any (fun k => (s.group (fld g 16 2) k).disabled) = false
/-- The state in which a seal or an open that its controller took under an id has answered 0, its word to complete on its way behind the
accesses that the module and the successor cover (R385). -/
def State.bedrockTaken (s : State) (close : Bool) (g : Word) (sw : SuccWord) (d : Reg) (id : Nat) : State :=
  let (u, t) := ((s.modCf (fun f => { f with answer := none })).acceptSucc sw).newResult d
  (t.answerCf u 0).releaseThen (widerScope .module (succScope t.iss.ep sw.rel?))
    [(0, t.iss.ep, bedCtl (fld g 16 2), .bedrockRequest (BedReq.mk close (fld g 16 2) (BitVec.ofNat 16 (fld g 0 16)) t.cf.fm t.cf.asid
      sw.rel? t.iss.ep t.iss.win t.cf.fid id true none 0))]

/-- An answer that came whole is answered. -/
theorem State.answerOr_whole (s : State) (u : Option Nat) (v : Word) : s.answerOr u v false = s.answerCf u v := by
  cases u <;> rfl
theorem exec_seal_or_open {s : State} {close : Bool} {b a d : Reg} :
    exec (if close then .bseal b a d else .bopen b a d) s = .next (s.bedrock close b a d) := by
  cases close <;> rfl
theorem State.bedrock_completes {s : State} {close : Bool} {b a d : Reg} {l : List Word} (hl : s.groupsLegal (s.xr a))
    (ha : s.cf.answer = some l) (hcode : l.getD 0 0 = 0) (hwhole : l.length ≠ 3) (hr : hasRoom s (resultsOf d) 1) :
    s.bedrock close b a d = s.bedrockTaken close (s.xr a) s.keptSucc d (l.getD 1 0).toNat := by
  obtain ⟨hz, hm, hon⟩ := hl
  have ok : ((l.getD 0 0).toNat != 0) = false := by rw [hcode]; rfl
  simp only [State.bedrock, hz, beq_eq_false_iff_ne.2 hm, hon, ha, ok, beq_eq_false_iff_ne.2 hwhole, State.withRoom_resultsOf hr,
    State.answerOr_whole, Option.isSome_some, beq_iff_eq, Bool.or_false, Bool.not_true, Bool.false_eq_true, if_false, if_true]
  rfl

/-! ## LLCFG (R390) -/

/-- The launches of the issuing frame's ASID. -/
def State.launchesOf (s : State) : List Launch := s.launches.filter (fun l => l.asid == s.cf.asid)
/-- The word of LLCFG keeps R390: MIN is at most MAX, and MAX at most 12. -/
def pairLegal (x : Word) : Prop := zeroField x 12 52 = true ∧ zeroField x 4 4 = true ∧ fld x 0 4 ≤ fld x 8 4 ∧ fld x 8 4 ≤ 12
/-- The state in which some launches have a new pair and every home is told of each (R130, R390). -/
def State.pairSet (s : State) (ep : Nat) (mine : List Launch) (lo hi : Nat) : State :=
  mine.foldl (fun t m => allHomes.foldl (fun t h => t.send 0 ep h (.carveoutUpdate h ep m.id lo hi)) t)
    { s with launches := s.launches.map (fun y => if mine.any (fun m => m.id == y.id) then { y with minw := lo, maxw := hi } else y) }

theorem execLlcfg_sets {s : State} {a d : Reg} {l : Launch} {r : List Launch} (hx : pairLegal (s.xr a)) (hl : s.launchesOf = l :: r)
    (hr : hasRoom s (resultsOf d) 0) : execLlcfg a d s = .next ((answering s d (l.minw + 256 * l.maxw)).pairSet s.iss.ep (l :: r)
      (fld (s.xr a) 0 4) (fld (s.xr a) 8 4)) := by
  obtain ⟨h12, h4, hle, hmax⟩ := hx
  rw [State.launchesOf] at hl
  simp only [execLlcfg, h12, h4, Nat.not_lt.2 hle, Nat.not_lt.2 hmax, hl, State.withRoom_resultsOf hr, beq_iff_eq, decide_false,
    Bool.or_false, Bool.not_true, Bool.false_eq_true, if_false]
  rfl

/-- Settles O22: past its checks each instruction enters its request, or answers what its transfer, barriers, controller or launches are
found to be. -/
theorem copyInstructionsComplete : Obligations.CopyInstructionsComplete := by
  unfold Obligations.CopyInstructionsComplete
  intro s n b a d sw x room
  refine ⟨?cpy, ?cpyst, ?cpoll, ?bedrock, ?llcfg⟩
  case cpy =>
    intro o blk w w2 r f v q t t' hok hf hr hfirst hkept
    change execCpy n a d s = .next (s.enterFifo w sw d)
    cases ha : s.cf.answer with
    | some l =>
      rw [show w = l from congrArg (Option.getD · blk) ha, ← hkept (congrArg Option.isSome ha)]
      exact execCpy_enters_held hf hr ha
    | none =>
      obtain ⟨halign, hin, hz, hfault, hs, hdet, hbar⟩ := hfirst ha
      have permitted : (s.det && (n || d != 0)) = false := by
        obtain h | ⟨rfl, rfl⟩ := hdet
        · rw [h, Bool.false_and]
        · rw [bne_self_eq_false, Bool.or_false, Bool.and_false]
      exact execCpy_enters_checked hf hr ha (congrArg (Option.getD · blk) ha).symm ⟨⟨halign, hin⟩, hz, hfault, hs, hbar⟩ hok
        permitted
  case cpyst =>
    intro e i h56 h53 hdet hr
    exact execCpyst_answers hdet hr h56 h53
  case cpoll =>
    intro bar hit hz hdet hr
    exact ⟨execCpoll_none hdet hr hz, fun k => execCpoll_takes hdet hr hz⟩
  case bedrock =>
    intro close l sl m t u q hz hm hon hkept ha hcode hwhole hr
    have taken := State.bedrock_completes (close := close) (b := b) ⟨hz, hm, hon⟩ ha hcode hwhole hr
    rw [hkept] at taken
    exact exec_seal_or_open.trans (congrArg _ taken)
  case llcfg =>
    intro lo hi mine h12 h4 hle hmax hr l r hl t
    rw [hl]
    exact (execLlcfg_sets ⟨h12, h4, hle, hmax⟩ hl hr :)

end Sys2Proof.Machine
end

section
/-! Steps of a copy transfer (11_copy_engines.md R367, R373 to R376, R382, R391). -/

namespace Sys2Proof.Machine

/-! ## The steps act on the event they are -/

section
variable {s : State} {q : CopyReq} {ep n : Nat}

theorem exec_copyReady_of_ev {x : Option Nat} (h : s.ev = some (.copyReady ep x)) : exec .copyReady s = execCopyReady ep x s := by
  rw [show exec .copyReady s = runCopyReady s from rfl, runCopyReady, h]
theorem exec_copyRequest_of_ev (h : s.ev = some (.copyRequest q)) : exec .copyRequest s = execCopyRequest q s := by
  rw [show exec .copyRequest s = runCopyRequest s from rfl, runCopyRequest, h]
theorem exec_copyAcceptance_of_ev (h : s.ev = some (.copyAcceptance q n)) : exec .copyAcceptance s = execCopyAcceptance q n s := by
  rw [show exec .copyAcceptance s = runCopyAcceptance s from rfl, runCopyAcceptance, h]
theorem exec_copyDeferral_of_ev (h : s.ev = some (.copyDeferral q)) : exec .copyDeferral s = execCopyDeferral q s := by
  rw [show exec .copyDeferral s = runCopyDeferral s from rfl, runCopyDeferral, h]
theorem exec_transferBegin_of_ev (h : s.ev = some (.transferBegin ep n)) : exec .transferBegin s = execTransferBegin ep n s := by
  rw [show exec .transferBegin s = runTransferBegin s from rfl, runTransferBegin, h]
theorem exec_slotWrite_of_ev {g slot col off : Nat} {bytes : List Byte} (h : s.ev = some (.slotWrite ep n g slot col off bytes)) :
    exec .slotWrite s = execSlotWrite ep n g slot col off bytes s := by
  rw [show exec .slotWrite s = runSlotWrite s from rfl, runSlotWrite, h]
theorem exec_slotWrite_of_ack {m : Nat} (h : s.ev = some (.slotWriteAck ep n m)) : exec .slotWrite s = .next (s.slotWritten ep n m) := by
  rw [show exec .slotWrite s = runSlotWrite s from rfl, runSlotWrite, h]
theorem exec_transferFault_of_ev {kind addr : Nat} (h : s.ev = some (.transferFault ep n kind addr)) :
    exec .transferFault s = execTransferFault ep n kind addr s := by
  rw [show exec .transferFault s = runTransferFault s from rfl, runTransferFault, h]
theorem exec_transferComplete_of_ev (h : s.ev = some (.transferComplete ep n)) :
    exec .transferComplete s = execTransferComplete ep n s := by
  rw [show exec .transferComplete s = runTransferComplete s from rfl, runTransferComplete, h]
end

/-! ## A request at its engine and its core (R373, R391) -/

/-- The transfer that an engine opens for a request: in its lowest free slot, with its next id (R373). -/
def Engine.opened (e : Engine) (q : CopyReq) : Transfer :=
  Transfer.mk (((List.range 64).find? (fun k => !e.xfers.any (fun t => t.slot == k))).getD 0) e.nextId false false q 0 [] [] [] 0 false none
/-- The state in which an engine has opened a transfer for a request and accepts it. -/
def State.copyAccepted (s : State) (q : CopyReq) : State :=
  let t := (s.engine q.engine).opened q
  ((s.modEngine q.engine (fun e => { e with xfers := e.xfers ++ [t], nextId := (e.nextId + 1) % 2 ^ 48 })).send 1 q.engine q.src
    (.copyAcceptance q t.id)).engineKick q.engine
/-- The state in which an engine has deferred the request of a core, which it will tell when it is ready. -/
def State.copyDeferred (s : State) (q : CopyReq) : State :=
  (s.modEngine q.engine (fun e => { e with deferred := e.deferred.filter (fun x => x != q.src) ++ [q.src] })).send 1 q.engine q.src
    (.copyDeferral q)

section
variable {s : State} {q : CopyReq} {n : Nat}

theorem execCopyRequest_accepts (hl : (s.engine q.engine).xfers.length < 64) : execCopyRequest q s = .next (s.copyAccepted q) :=
  congrArg _ (if_neg (Nat.not_le.2 hl))
theorem execCopyRequest_defers (hl : 64 ≤ (s.engine q.engine).xfers.length) (hc : epClass q.src ≠ 3) :
    execCopyRequest q s = .next (s.copyDeferred q) :=
  congrArg _ ((if_pos hl).trans (if_neg (mt eq_of_beq hc)))
theorem execCopyAcceptance_answers (hc : epClass q.src ≠ 3) : execCopyAcceptance q n s =
    .next (((s.modCopy q.src (fun c => { c with fifo := c.fifo.filter (fun e => e.id != q.tag) })).answerWord q.src q.win q.fid q.uid
      (transferWord q.engine n)).sendHead q.src false) :=
  congrArg _ (if_neg (mt eq_of_beq hc))
end

/-! ## A transfer at its engine (R367, R374 to R376, R382) -/

/-- The state in which a fault of a transfer is logged and the transfer stops with status 2 (R376). -/
def State.xferFaulted (s : State) (ep n kind addr : Nat) (t : Transfer) : State :=
  let i := (s.engine ep).logIdx
  (s.modEngine ep (fun e => { e with log := e.log.put i (FaultEnt.mk n kind addr t.off t.q.asid), logIdx := (i + 1) % 64 })).wrapUp ep
    { t with stop := some (2, kind * 4096 + i * 64) }

section
variable {s : State} {ep n : Nat} {t : Transfer} (hx : (s.engine ep).find n = some t)
include hx

section
variable (ha : t.active = true) (hb : t.busy = false) (hs : t.stop = none)
include ha hb hs

/-- A transfer that has not found its destination begins, once those accepted before it have begun (R367, R374). -/
theorem execTransferBegin_begins (hm : t.dmap = []) : execTransferBegin ep n s =
    .next (if (s.engine ep).earlierWaits n then s.later (.transferBegin ep n) else s.beginXfer ep t) := by
  simp only [execTransferBegin, hx, ha, hb, hs, hm, Option.isSome_none, List.isEmpty_nil, Bool.or_false, Bool.not_true,
    Bool.false_eq_true, if_false, if_true]
/-- A begun transfer moves its next piece, one to a slot when it has the slot's turn (R309, R374). -/
theorem execTransferBegin_moves (hm : t.dmap ≠ []) (hg : t.begun = true) (hturn : cqSlot t.q.words = true → s.slotTurn ep t = true) :
    execTransferBegin ep n s = .next (s.xferRead ep t) := by
  have turn : (cqSlot t.q.words && !s.slotTurn ep t) = false := by
    cases hc : cqSlot t.q.words with
    | false => rfl
    | true => rw [hturn hc]; rfl
  simp only [execTransferBegin, hx, ha, hb, hs, List.isEmpty_eq_false_iff.2 hm, hg, turn, Option.isSome_none, Bool.or_false,
    Bool.not_true, Bool.false_eq_true, if_false]
end

theorem State.slotWritten_advances (m : Nat) : s.slotWritten ep n m = s.advance ep t m := by
  rw [State.slotWritten, hx]
theorem execTransferFault_logs {kind addr : Nat} (hs : t.stop = none) (hk : kind ≠ 6) :
    execTransferFault ep n kind addr s = .next (s.xferFaulted ep n kind addr t) := by
  simp only [execTransferFault, hx, hs, beq_eq_false_iff_ne.2 hk, Option.isSome_none, Bool.false_eq_true, if_false]
  rfl
theorem execTransferComplete_ends {st d : Nat} (hs : t.stop = some (st, d)) (hb : t.busy = false) (he : t.ends = 0) :
    execTransferComplete ep n s = .next (s.xferDone ep t st d) := by
  simp only [execTransferComplete, hx, hs, hb, he, bne_self_eq_false, Bool.or_false, Bool.false_eq_true, if_false]
end

/-- Settles O34: each step acts on the event it is, and where its conditions hold does what its rule says. -/
theorem transferStepsComplete : Obligations.TransferStepsComplete := by
  unfold Obligations.TransferStepsComplete
  intro s q ep n
  refine ⟨?ready, ?request, ?acceptance, ?deferral, ?begin, ?slot, ?slotAck, ?fault, ?complete⟩
  case ready => exact fun x he => exec_copyReady_of_ev he
  case request =>
    intro he
    rw [exec_copyRequest_of_ev he]
    exact ⟨execCopyRequest_accepts, execCopyRequest_defers⟩
  case acceptance => exact fun he hc => (exec_copyAcceptance_of_ev he).trans (execCopyAcceptance_answers hc)
  case deferral => exact exec_copyDeferral_of_ev
  case begin =>
    intro t he hx ha hb hs
    rw [exec_transferBegin_of_ev he]
    exact ⟨execTransferBegin_begins hx ha hb hs, execTransferBegin_moves hx ha hb hs⟩
  case slot => exact fun g slot col off bytes => exec_slotWrite_of_ev
  case slotAck => exact fun m t he hx => (exec_slotWrite_of_ack he).trans (congrArg _ (State.slotWritten_advances hx m))
  case fault =>
    intro kind addr t he hx hs hk i
    exact (exec_transferFault_of_ev he).trans (execTransferFault_logs hx hs hk)
  case complete => exact fun t st d he hx hs hb hends => (exec_transferComplete_of_ev he).trans (execTransferComplete_ends hx hs hb hends)

end Sys2Proof.Machine
end

section
/-! Steps of bedrock groups, of the carve-out, of packets on the slab network and over Fjarlink, and of replay (11_copy_engines.md R384,
R385, R390; 04_memory.md R130, R131; 07_message_unit.md R241 to R246, R260; 12_home_agents.md R421). -/

namespace Sys2Proof.Machine

/-! ## The steps act on the event they are -/

section
variable {s : State} {q : BedReq} {sl g k : Nat}

theorem exec_bedrockRequest_of_ev (h : s.ev = some (.bedrockRequest q)) : exec .bedrockRequest s = execBedrockRequest q s := by
  rw [show exec .bedrockRequest s = runBedrockRequest s from rfl, runBedrockRequest, h]
theorem exec_bedrockAnswer_of_ev (h : s.ev = some (.bedrockAnswer q k)) : exec .bedrockAnswer s = execBedrockAnswer q k s := by
  rw [show exec .bedrockAnswer s = runBedrockAnswer s from rfl, runBedrockAnswer, h]
theorem exec_groupSealed_of_ev (h : s.ev = some (.groupSealed sl g)) : exec .groupSealed s = execGroupSealed sl g s := by
  rw [show exec .groupSealed s = runGroupSealed s from rfl, runGroupSealed, h]
theorem exec_groupOpened_of_ev (h : s.ev = some (.groupOpened sl g)) : exec .groupOpened s = execGroupOpened sl g s := by
  rw [show exec .groupOpened s = runGroupOpened s from rfl, runGroupOpened, h]
theorem exec_carveoutUpdate_of_ev {ep core id lo hi : Nat} (h : s.ev = some (.carveoutUpdate ep core id lo hi)) :
    exec .carveoutUpdate s = execCarveoutUpdate ep core s := by
  rw [show exec .carveoutUpdate s = runCarveoutUpdate s from rfl, runCarveoutUpdate, h]
theorem exec_carveoutSample_of_ev (h : s.ev = some (.carveoutSample k)) : exec .carveoutSample s = execCarveoutSample k s := by
  rw [show exec .carveoutSample s = runCarveoutSample s from rfl, runCarveoutSample, h]
theorem exec_escapeMove_of_ev (h : s.ev = some (.escapeMove k g)) : exec .escapeMove s = execEscapeMove k g s := by
  rw [show exec .escapeMove s = runEscapeMove s from rfl, runEscapeMove, h]
theorem exec_routerPacketDiscard_of_ev (h : s.ev = some (.routerPacketDiscard k)) :
    exec .routerPacketDiscard s = execRouterPacketDiscard k s := by
  rw [show exec .routerPacketDiscard s = runRouterPacketDiscard s from rfl, runRouterPacketDiscard, h]
theorem exec_fjarlinkPacket_of_ev {p : FjPacket} (h : s.ev = some (.fjarlinkPacket g p)) :
    exec .fjarlinkPacket s = execFjarlinkPacket g p s := by
  rw [show exec .fjarlinkPacket s = runFjarlinkPacket s from rfl, runFjarlinkPacket, h]
theorem exec_replayTimeout_of_ev (h : s.ev = some (.replayTimeout k)) : exec .replayTimeout s = execReplayTimeout k s := by
  rw [show exec .replayTimeout s = runReplayTimeout s from rfl, runReplayTimeout, h]
end

/-! ## Bedrock groups (R384, R385) -/

/-- A group is SEALING or OPENING. -/
def BGroup.turning (b : BGroup) : Bool := b.st == 1 || b.st == 3
/-- A group that a seal or an open names starts to turn, unless it is there already (R384). -/
def BGroup.turned (close : Bool) (b : BGroup) : BGroup :=
  if close && b.st == 0 then { b with st := 1 } else if !close && b.st == 2 then { b with st := 3 } else b
/-- A request with the groups noted that are where it wants them already (R385). -/
def State.noted (s : State) (q : BedReq) : BedReq :=
  let there := (maskGroups q.groups).filter (fun g => (s.group q.slab g).st == (if q.close then 2 else 0))
  { q with reached := BitVec.ofNat 16 (there.foldl (fun n g => n + 2 ^ g) 0) }
/-- The state in which a controller has taken a request: its groups turn, and it answers 0 (R385). -/
def State.bedrockStarted (s : State) (q : BedReq) : State :=
  let u := s.modSlab q.slab (fun b => { b with bedops := b.bedops ++ [s.noted q] })
  ((maskGroups q.groups).foldl (fun t g => (t.modGroup q.slab g (BGroup.turned q.close)).groupKick q.slab g) u).send 1 (bedCtl q.slab) q.src
    (.bedrockAnswer q 0)

section
variable {s : State} {q : BedReq} {sl g k : Nat}

theorem execBedrockRequest_goes (hgo : q.go = true) : execBedrockRequest q s = .next ((s.modSlab q.slab (fun b => { b with
    bedops := b.bedops.map (fun x => if x.id == q.id then { x with go := true, rel := q.rel } else x) })).bedKick q.slab) :=
  congrArg _ (if_pos hgo)
theorem execBedrockRequest_starts (hgo : q.go = false)
    (ho : q.fm = true ∨ (maskGroups q.groups).any (fun g => (s.group q.slab g).owner != q.asid) = false)
    (ht : (maskGroups q.groups).any (fun g => (s.group q.slab g).turning) = false) :
    execBedrockRequest q s = .next (s.bedrockStarted q) := by
  have mine : (!q.fm && (maskGroups q.groups).any (fun g => (s.group q.slab g).owner != q.asid)) = false := by
    obtain h | h := ho
    · rw [h, Bool.not_true, Bool.false_and]
    · rw [h, Bool.and_false]
  simp only [BGroup.turning] at ht
  simp only [execBedrockRequest, State.bedrockStarted, State.noted, hgo, mine, ht, bne_self_eq_false, Bool.false_eq_true, if_false]
  rfl
theorem execBedrockAnswer_answers (hh : q.host = none) (hf : (s.frame q.src q.win).fid = q.fid) : execBedrockAnswer q k s =
    .next (s.modFrame q.src q.win (fun f => { f with answer := some [BitVec.ofNat 64 k, BitVec.ofNat 64 q.id], waiting := false })) := by
  simp only [execBedrockAnswer, hh, hf, Option.isSome_none, bne_self_eq_false, Bool.false_eq_true, if_false]
theorem execGroupSealed_seals (hst : (s.group sl g).st = 1) (hb : (s.group sl g).begun = 0) (hd : (s.group sl g).disabled = false) :
    execGroupSealed sl g s = .next ((s.modGroup sl g (fun b => { b with st := 2 })).groupReached sl g true) :=
  congrArg _ (if_pos (by rw [hst, hb, hd]; rfl))
theorem execGroupOpened_opens (hst : (s.group sl g).st = 3) (hl : (s.group sl g).loads = 0) (hd : (s.group sl g).disabled = false) :
    execGroupOpened sl g s = .next ((s.modGroup sl g (fun b => { b with st := 0 })).groupReached sl g false) :=
  congrArg _ (if_pos (by rw [hst, hl, hd]; rfl))
end

/-! ## Packets at a router (R241, R243, R245) -/

/-- A packet travels on escape. -/
def Msg.onEscape (m : Msg) : Bool := match m.ch with | .link _ vc => vc == 2 | _ => false
/-- The state in which packet `k` is on escape at router `rt`, its move there counted and followed by its triple (R241, R243, R261). -/
def State.escaped (s : State) (k : Nat) (m : Msg) (dir rt : Nat) : State :=
  ({ s with net := s.net.set k { m with since := s.now, wait := 0, rt := rt, ch := .link dir 2 } } : State).modGeode m.rt (fun y => { y with
    escxfer := if !m.onEscape then (y.escxfer + 1) % 2 ^ 64 else y.escxfer
    follow := if !m.onEscape && !y.follow.contains m.triple then y.follow ++ [m.triple] else y.follow })
/-- The state in which a router has lost packet `k` and reported a machine check that names its source (R245). -/
def State.packetLost (s : State) (k : Nat) (m : Msg) : State :=
  ({ s with net := s.net.eraseIdx k } : State).machineCheckOf (s.header m).srcDev (s.header m).srcEp 7

section
variable {s : State} {k g : Nat} {m : Msg} (hm : s.net[k]? = some m) (hc : m.cls < 3) (he : m.ch ≠ .eject)
include hm hc he

theorem State.hopPacket_escapes {dir rt : Nat} {x : Bool} (hesc : s.escapes m = true) (hh : s.atHead k m = true)
    (hgo : s.canHop k m true = true) (hop : m.hop true = .ring dir rt x) : s.hopPacket k = s.escaped k m dir rt := by
  simp only [State.hopPacket, hm, Nat.not_le.2 hc, beq_eq_false_iff_ne.2 he, hesc, hh, hgo, hop, decide_false, Bool.or_false,
    Bool.not_true, Bool.false_and, Bool.true_and, Bool.false_eq_true, if_false]
  rfl
theorem execEscapeMove_escapes {dir rt : Nat} {x : Bool} (hrt : m.rt = g) (hesc : s.escapes m = true) (hh : s.atHead k m = true)
    (hgo : s.canHop k m true = true) (hop : m.hop true = .ring dir rt x) : execEscapeMove k g s = .next (s.escaped k m dir rt) := by
  simp only [execEscapeMove, hm, hrt, hesc, beq_self_eq_true, Bool.and_self, if_true, State.hopPacket_escapes hm hc he hesc hh hgo hop]

/-- A lost active message is told to the graph engine that sent it as a node event (R446). -/
theorem execRouterPacketDiscard_active {a : ActiveMsg} (ha : m.ev = .active a) : execRouterPacketDiscard k s =
    .next (if epClass a.src = 3 then (s.packetLost k m).lostDelivery a else s.packetLost k m) := by
  simp only [execRouterPacketDiscard, hm, Nat.not_le.2 hc, beq_eq_false_iff_ne.2 he, ha, beq_iff_eq, decide_false, Bool.or_false,
    Bool.false_eq_true, if_false]
  rfl
/-- Of any other packet a lost answer completes what it was for; that the packet is no active message selects the last arm. -/
theorem execRouterPacketDiscard_other (ha : ∀ a, m.ev ≠ .active a) : execRouterPacketDiscard k s =
    .next (if m.cls = 1 then (s.packetLost k m).lostResponse m.ev else s.packetLost k m) := by
  simp only [execRouterPacketDiscard, hm, Nat.not_le.2 hc, beq_eq_false_iff_ne.2 he, beq_iff_eq, decide_false, Bool.or_false,
    Bool.false_eq_true, if_false]
  rfl
end

/-! ## Packets of Fjarlink (R246, R260) -/

/-- What a Fjarlink port does with a packet for another device: it leaves where its route names this port, goes to the port that its route
names, or is lost without a route (R260). -/
def State.fjRouted (s : State) (g : Nat) (p : FjPacket) : State :=
  match s.fjPort (fjTo s.srcDev p) with
  | none => s.fjLost g p
  | some r =>
    if r = g then
      s.out (.fjarlink g (fjTo s.srcDev p) p (s.wire (Msg.mk (fjCls p) (fjPlace + g) (fjPlace + g) (routerOf (fjPlace + g)) .eject 0 0
        (.fjarlinkPacket g p))))
    else s.send (fjCls p) (fjPlace + g) fjPlace (.fjarlinkPacket 31 p)

section
variable {s : State} {g : Nat} {p : FjPacket}

theorem State.fjRouted_here (hr : s.fjPort (fjTo s.srcDev p) = some g) : s.fjRouted g p =
    s.out (.fjarlink g (fjTo s.srcDev p) p (s.wire (Msg.mk (fjCls p) (fjPlace + g) (fjPlace + g) (routerOf (fjPlace + g)) .eject 0 0
      (.fjarlinkPacket g p)))) := by
  rw [State.fjRouted, hr]
  exact if_pos rfl
theorem State.fjRouted_onward {r : Nat} (hr : s.fjPort (fjTo s.srcDev p) = some r) (hne : r ≠ g) :
    s.fjRouted g p = s.send (fjCls p) (fjPlace + g) fjPlace (.fjarlinkPacket 31 p) := by
  rw [State.fjRouted, hr]
  exact if_neg hne
theorem State.fjRouted_lost (hr : s.fjPort (fjTo s.srcDev p) = none) : s.fjRouted g p = s.fjLost g p := by
  rw [State.fjRouted, hr]

variable (hid : s.didv = true)
include hid

theorem execFjarlinkPacket_routes (hc : fjCls p ≠ 3) (hd : fjTo s.srcDev p ≠ s.devId) :
    execFjarlinkPacket g p s = .next (s.fjRouted g p) := by
  simp only [execFjarlinkPacket, hid, bne_iff_ne.2 hd, beq_eq_false_iff_ne.2 hc, beq_iff_eq, Bool.not_true, Bool.false_eq_true, if_false,
    if_true]
  rfl
/-- A packet for this device is taken in; that it is no answer to a copy engine selects the last arm. -/
theorem execFjarlinkPacket_takes (hd : fjTo s.srcDev p = s.devId) (hp : ∀ a b c, p ≠ .linkAnswer a b c) :
    execFjarlinkPacket g p s = .next (s.fjTake g p) := by
  simp only [execFjarlinkPacket, hid, hd, bne_self_eq_false, Bool.not_true, Bool.false_eq_true, if_false]
theorem execFjarlinkPacket_answers {a : LinkReq} {b : Nat} {c : List Byte} (hd : fjTo s.srcDev p = s.devId) (hp : p = .linkAnswer a b c) :
    execFjarlinkPacket g p s = .next (s.engineLink a b c) := by
  simp only [execFjarlinkPacket, hid, hd, bne_self_eq_false, Bool.not_true, Bool.false_eq_true, if_false]
  rw [hp]
end

/-! ## Replay (R421) -/

theorem execReplayTimeout_diverges {s : State} {k : Nat} (hm : (s.ring k).mode = 2) (hr : (s.ring k).rob ≠ []) :
    execReplayTimeout k s = .next (s.diverge k (portPerform k)) :=
  congrArg _ (if_pos (by rw [hm, List.isEmpty_eq_false_iff.2 hr]; rfl))

/-- Settles O35: each step acts on the event it is, and where its conditions hold does what its rule says. -/
theorem bedrockCarveoutAndPacketSteps : Obligations.BedrockCarveoutAndPacketSteps := by
  unfold Obligations.BedrockCarveoutAndPacketSteps
  intro s q sl g k
  refine ⟨?request, ?answer, ?sealed, ?opened, ?update, ?sample, ?router, ?fjarlink, ?replay⟩
  case request =>
    intro gs turn he
    rw [exec_bedrockRequest_of_ev he]
    exact ⟨execBedrockRequest_goes, execBedrockRequest_starts⟩
  case answer => exact fun he hh hf => (exec_bedrockAnswer_of_ev he).trans (execBedrockAnswer_answers hh hf)
  case sealed => exact fun he hst hb hd => (exec_groupSealed_of_ev he).trans (execGroupSealed_seals hst hb hd)
  case opened => exact fun he hst hl hd => (exec_groupOpened_of_ev he).trans (execGroupOpened_opens hst hl hd)
  case update => exact fun ep core id lo hi => exec_carveoutUpdate_of_ev
  case sample => exact fun he => exec_carveoutSample_of_ev he
  case router =>
    intro m hm hc hch
    refine ⟨fun he hrt hesc hh hgo dir rt x hop => (exec_escapeMove_of_ev he).trans
      (execEscapeMove_escapes hm hc hch hrt hesc hh hgo hop),
      fun he => ?_⟩
    rw [exec_routerPacketDiscard_of_ev he]
    exact ⟨fun a => execRouterPacketDiscard_active hm hc hch, execRouterPacketDiscard_other hm hc hch⟩
  case fjarlink =>
    intro p d here he hid hc
    rw [exec_fjarlinkPacket_of_ev he]
    have routes (hd : d ≠ s.devId) := execFjarlinkPacket_routes (g := g) hid hc hd
    exact ⟨fun hd hr => (routes hd).trans (congrArg _ (State.fjRouted_here hr)),
      fun r hd hr hne => (routes hd).trans (congrArg _ (State.fjRouted_onward hr hne)),
      fun hd hr => (routes hd).trans (congrArg _ (State.fjRouted_lost hr)),
      execFjarlinkPacket_takes hid, fun a b c => execFjarlinkPacket_answers hid⟩
  case replay => exact fun he hm hr => (exec_replayTimeout_of_ev he).trans (execReplayTimeout_diverges hm hr)

end Sys2Proof.Machine
end

section
/-! The thermal trip: a module that has tripped only counts time until it is reset (17_package.md R519). -/

namespace Sys2Proof.Machine
open Sys2Proof.Safety

section
variable {s : State}

/-- A turn of a tripped module that is no reset does nothing; that it is none selects the last arm. -/
theorem State.trippedTurn_idle {t : Turn} (h : t ≠ .input .moduleReset) : s.trippedTurn t = .next s := by
  unfold State.trippedTurn
  split
  · exact absurd rfl h
  · rfl
theorem State.defaultTurn_ne_input (e : Event) : s.defaultTurn ≠ .input e := by
  unfold State.defaultTurn
  split
  · exact Turn.noConfusion
  · split <;> exact Turn.noConfusion
theorem step_of_tripped (h : s.pkg.tripped = true) : step s = s.turnOf.2.trippedTurn s.turnOf.1 := if_pos h

/-- The turn of a module that has tripped for good is no reset, and the state it starts from has tripped for good too. -/
theorem trippedForGood_turnOf (h : trippedForGood s) : s.turnOf.1 ≠ .input .moduleReset ∧ trippedForGood s.turnOf.2 := by
  obtain ⟨htrip, hreset⟩ := h
  cases ha : s.agenda with
  | nil =>
    rw [State.turnOf_default ha]
    exact ⟨State.defaultTurn_ne_input _, htrip, hreset⟩
  | cons t l =>
    rw [State.turnOf_agenda ha]
    rw [ha, List.mem_cons, not_or] at hreset
    exact ⟨Ne.symm hreset.1, htrip, hreset.2⟩
theorem State.turnOf_now : s.turnOf.2.now = s.now + 1 := by
  unfold State.turnOf
  split <;> rfl
/-- Before a turn acts, time, the turn counter, the core whose turn is next and the agenda alone have changed. -/
theorem State.turnOf_keeps : { s.turnOf.2 with now := s.now, turn := s.turn, cur := s.cur, agenda := s.agenda } = s := by
  unfold State.turnOf
  split <;> rfl
end

/-- Settles O49: the turn of a tripped module does nothing unless it is a reset, and only the agenda can name one. -/
theorem trippedModuleStaysTripped : Obligations.TrippedModuleStaysTripped := by
  unfold Obligations.TrippedModuleStaysTripped
  refine fun s => ⟨fun h => ?stays, fun l htrip ha => ?reset⟩
  case stays =>
    obtain ⟨hturn, hgood⟩ := trippedForGood_turnOf h
    exact ⟨s.turnOf.2, (step_of_tripped h.1).trans (State.trippedTurn_idle hturn), hgood, State.turnOf_now, State.turnOf_keeps⟩
  case reset =>
    rw [step_of_tripped htrip, State.turnOf_agenda ha]
    rfl

end Sys2Proof.Machine
end

section
/-! Cache maintenance instructions: CFLUSH, CCLEAN and CINV (12_home_agents.md R413, R414, R416). -/

namespace Sys2Proof.Machine
open Sys2Proof.Safety

/-- The room that a result for x[rd] needs, with the test for x0 left as the model writes it. -/
theorem State.withRoom_resultsOf_beq {s : State} {d : Reg} {entries : Nat} {go : State → State} (h : hasRoom s (resultsOf d) entries) :
    s.withRoom (if (d == 0) = true then 0 else 1) entries go = go s := by
  rw [← State.withRoom_resultsOf (go := go) h, if_congr beq_iff_eq rfl rfl]

/-- What a cache maintenance instruction asks of a translation: CINV writes, CFLUSH and CCLEAN read (R414). -/
def cmoNeed (k : CmoKind) : Need := if k == .inv then .write else .read
/-- The bytes that an instruction maintains: one in the line form, x[rs2] in the range form (R413). -/
def State.cmoBytes (s : State) (r : Bool) (b : Reg) : Nat := if r then (s.xr b).toNat else 1
/-- The address at which they begin. -/
def State.cmoBase (s : State) (h : HReg) (a : Reg) : Nat := (s.cf.getH h).base.toNat + (s.xr a).toNat
/-- The translation of an address by the issuing core. -/
def State.cmoRes (s : State) (k : CmoKind) (v : Nat) : TRes := (s.translate s.cc.tlb (epSlab s.iss.ep) s.cf.asid v (cmoNeed k)).res
/-- The length of a range is legal: the line form names no register of it (R413). -/
def State.cmoLengthLegal (s : State) (r : Bool) (b : Reg) : Prop :=
  (r = false → b = 0) ∧ (r = true → 0 < s.cmoBytes r b ∧ s.cmoBytes r b ≤ 2 ^ 20)
/-- The handle is a valid GLOBAL one with the permission asked, for CINV in the writable form it needs, and the range is within its
bound (R414). -/
def maintainable (g : Handle) (k : CmoKind) (off : Word) (n : Nat) : Prop :=
  g.valid = true ∧ g.space = 2 ∧ bitOf g.w3 (if k == .inv then 1 else 0) = true ∧ ((k == .inv) = true → bitOf g.w3 4 = true → g.cap = true) ∧
    off.toNat + n ≤ g.bound.toNat
/-- The core has translated every page of the range, and the translation permits the access (R414). -/
def State.cmoTranslated (s : State) (k : CmoKind) (va n : Nat) : Prop :=
  ∀ p ∈ pagesOf va n, s.translated p = true ∧ ∃ pa ns, s.cmoRes k (Nat.max p va) = .ok pa ns
/-- The line at an address, 0 where it has no translation. -/
def State.cmoLine (s : State) (k : CmoKind) (v : Nat) : Nat := match s.cmoRes k v with | .ok pa _ => lineOf pa | _ => 0
/-- The lines of a range, in order (R413). -/
def State.cmoLines (s : State) (k : CmoKind) (va n : Nat) : List Nat :=
  (List.range ((va + n - 1) / 128 - va / 128 + 1)).map (fun i => s.cmoLine k ((va / 128 + i) * 128))
/-- The state in which one access for the lines of a range is entered, and x[rd] awaits its answer (R414, R416). -/
def State.cmoEntered (s : State) (k : CmoKind) (va n : Nat) (d : Reg) : State :=
  let t := s.modCf (fun f => { f with answer := none })
  let lines := t.cmoLines k va n
  let u := t.newResult d
  u.2.access (Target.mk 2 (homeOf (lines.headD 0)) (lines.headD 0) false false none) 0 u.1 0 (.cmo k lines 0) .rlx

section
variable {s : State} {k : CmoKind} {r : Bool} {h : HReg} {b a d : Reg}

/-- Both forms of a range come to one length check: the line form names x0, and neither form's length is out of range. -/
theorem State.cmoLength_checks (hl : s.cmoLengthLegal r b) :
    (!r && b != 0) = false ∧ (r && (s.cmoBytes r b == 0 || decide (2 ^ 20 < s.cmoBytes r b))) = false := by
  obtain ⟨line, range⟩ := hl
  cases r with
  | false => exact ⟨bne_eq_false_iff_eq.2 (line rfl), rfl⟩
  | true =>
    obtain ⟨h0, hmax⟩ := range rfl
    refine ⟨rfl, ?_⟩
    rw [beq_eq_false_iff_ne.2 (Nat.ne_of_gt h0), decide_eq_false (Nat.not_lt.2 hmax)]
    rfl
/-- No page of a translated range is left to be walked. -/
theorem State.cmoTranslated_walked {va n : Nat} (ht : s.cmoTranslated k va n) : (pagesOf va n).find? (fun p => !s.translated p) = none := by
  rw [List.find?_eq_none]
  intro p hp
  rw [(ht p hp).1]
  exact Bool.false_ne_true
theorem State.cacheMaint_enters (hl : s.cmoLengthLegal r b) (hm : isMemCore s.iss.ep = true)
    (hh : maintainable (s.cf.getH h) k (s.xr a) (s.cmoBytes r b)) (ht : s.cmoTranslated k (s.cmoBase h a) (s.cmoBytes r b))
    (hdet : s.det = false ∨ d = 0) (hr : hasRoom s (resultsOf d) 1) :
    s.cacheMaint k r h b a d = s.cmoEntered k (s.cmoBase h a) (s.cmoBytes r b) d := by
  obtain ⟨hline, hrange⟩ := State.cmoLength_checks hl
  obtain ⟨hv, hsp, hperm, hcap, hin⟩ := hh
  have hwalk := State.cmoTranslated_walked ht
  have writable : ((k == .inv && bitOf (s.cf.getH h).w3 4) && !(s.cf.getH h).cap) = false := by
    cases hk : k == .inv && bitOf (s.cf.getH h).w3 4 with
    | false => rfl
    | true =>
      rw [Bool.and_eq_true] at hk
      rw [hcap hk.1 hk.2]
      rfl
  simp only [State.cmoBytes, State.cmoBase] at hrange hin hwalk
  simp only [State.cacheMaint, hline, hv, hsp, hm, hperm, writable, gt_iff_lt, Nat.not_lt.2 hin, hwalk,
    State.det_result_permitted hdet, State.withRoom_resultsOf_beq hr, bne_self_eq_false, Bool.or_true, Bool.true_and,
    beq_self_eq_true, Bool.true_or, Bool.not_true, Bool.false_eq_true, if_false]
  refine (if_neg (Bool.eq_false_iff.1 hrange)).trans ?_
  split
  case h_1 p hp =>
    obtain ⟨-, pa, ns, hok⟩ := ht p (List.mem_of_find?_eq_some hp)
    have hbad := List.find?_some hp
    simp only [State.cmoRes, cmoNeed, State.cmoBase] at hok
    simp only [hok] at hbad
    cases hbad
  case h_2 => rfl
end

theorem exec_cacheMaint (s : State) (k : CmoKind) (r : Bool) (h : HReg) (b a d : Reg) :
    exec (match k with | .flush => .cflush r h b a d | .clean => .cclean r h b a d | .inv => .cinv r h b a d) s =
      .next (s.cacheMaint k r h b a d) := by
  cases k <;> rfl

/-- Settles O23: past its checks nothing is left of an instruction but the access for its lines and the result owed. -/
theorem cacheMaintenanceIssues : Obligations.CacheMaintenanceIssues := by
  unfold Obligations.CacheMaintenanceIssues
  intro s r h b a d k hd off n inv va res hline hrange hv hsp hm hperm hcap hin ht hdet hr t line lines u
  exact (exec_cacheMaint s k r h b a d).trans
    (congrArg _ (State.cacheMaint_enters ⟨hline, hrange⟩ hm ⟨hv, hsp, hperm, hcap, hin⟩ ht hdet hr))

end Sys2Proof.Machine
end

section
/-! Instructions of the graph engines and of the guest socket: GRRUN, GRSIG, GRCAN, GRQRY, XPOST and XQRY (13_graph_engine.md R451 to
R454; 15_guest_socket.md R482, R483). -/

namespace Sys2Proof.Machine
open Sys2Proof.Safety

/-! ## GRRUN (R452) -/

/-- The ASID under which a run block starts: firmware names one in the block, a task runs under its own (R452). -/
def State.runAsid (s : State) (y : List Word) : BitVec 16 := if s.cf.fm then BitVec.ofNat 16 (fld (y.getD 7 0) 0 16) else s.cf.asid
/-- A successor under another ASID. -/
def succUnder (id : BitVec 16) : SuccWord → SuccWord
  | .ok r => .ok { r with asid := id }
  | y => y
/-- The state in which a run block has taken its slot, its handle is answered and its start is on its way to the master behind the accesses
of its scope (R452). -/
def State.runStarted (s : State) (y : List Word) (sx : SuccWord) (d : Reg) : State :=
  let sl := fld (y.getD 6 0) 0 8
  let v := (s.acceptSucc sx).takeSlot y (s.runAsid y) sx.rel? none
  let gen := (v.inst sl).gen
  let (u, t) := v.newResult d
  (t.answerCf u (BitVec.ofNat 64 (gen * 2 ^ 16 + sl))).releaseThen (widerScope .module (succScope t.iss.ep sx.rel?))
    [(0, t.iss.ep, graphEp (slotMaster sl), .graphStart sl gen (slotMaster sl) 0)]

section
variable {s : State} {a d : Reg} {sw : SuccWord}

theorem execGrrun_starts {y : List Word} (hb : blockOk (s.xr a) 64 = true) (hy : s.lmWords (s.xr a).toNat 8 = y) (ha : runAddrOk y = true)
    (hz : zeroField (y.getD 7 0) 16 48 = true) (hs : s.succWord (y.getD 3 0) = sw) (hok : legalSucc sw) (hdet : s.det = false ∨ d = 0)
    (hfree : (s.inst (fld (y.getD 6 0) 0 8)).st = 0) (hr : hasRoom s (resultsOf d) 1) :
    execGrrun a d s = .next (s.runStarted y (succUnder (s.runAsid y) sw) d) := by
  simp only [execGrrun, hb, hy, ha, hz, hs, hfree, State.det_result_permitted hdet, State.withRoom_resultsOf hr, bne_self_eq_false,
    beq_iff_eq, Bool.or_false, Bool.not_true, Bool.false_eq_true, if_false]
  obtain rfl | ⟨r, rfl⟩ := hok <;> rfl
end

/-! ## A graph instruction that writes a code (R453) -/

section
variable {s : State} {slot : Nat} {d : Reg} {k : State → State × Word}

/-- Until the master has read the header it cannot say what nodes there are, and the instruction is held (R433). -/
theorem State.graphResult_unread (h : s.unread slot = true) : s.graphResult slot d k = s.hold .queue := if_pos h
theorem State.graphResult_answers (h : s.unread slot = false) (hr : hasRoom s (resultsOf d) 0) :
    s.graphResult slot d k = (k (s.newResult d).2).1.answerCf (s.newResult d).1 (k (s.newResult d).2).2 := by
  simp only [State.graphResult, h, State.withRoom_resultsOf hr, beq_iff_eq, Bool.false_eq_true, if_false]
end

/-! ## GRSIG (R453) -/

/-- A node that a SIGNAL ends: it runs, its kind is SIGNAL, and its payload awaits one (R438). -/
def Inst.awaitsSignal (i : Inst) (n : Nat) : Prop := (i.ent n).st = 2 ∧ nKind (i.nrec n) = 5 ∧ bitOf (nPay (i.nrec n) 2) 0 = true

section
variable {s v : State} {a d : Reg} {w : Word} {slot n : Nat} {u : Option Nat} (hw : s.xr a = w) (hsel : selectorOk w true false = true)
  (hdet : s.det = false ∨ d = 0) (hslot : fld w 0 8 = slot)
include hw hsel hdet hslot

theorem execGrsig_unread (hu : s.unread slot = true) : execGrsig a d s = .next (s.hold .queue) := by
  simp only [execGrsig, hw, hsel, State.det_result_permitted hdet, hslot, State.graphResult_unread hu, Bool.not_true, Bool.false_eq_true,
    if_false]

variable (hn : fld w 16 12 = n) (hu : s.unread slot = false) (hr : hasRoom s (resultsOf d) 0) (hv : s.newResult d = (u, v))
include hn hu hr hv

theorem execGrsig_refused (hc : v.selectorCode w false ≠ 0) :
    execGrsig a d s = .next (v.answerCf u (BitVec.ofNat 64 (v.selectorCode w false))) := by
  simp only [execGrsig, hw, hsel, State.det_result_permitted hdet, hslot, hn, State.graphResult_answers hu hr, hv, bne_iff_ne.2 hc,
    Bool.not_true, Bool.false_eq_true, if_false, if_true]

variable (hc : v.selectorCode w false = 0)
include hc

theorem execGrsig_ends (hop : fld w 36 4 = 0) (ha : (v.inst slot).awaitsSignal n) : execGrsig a d s =
    .next ((if ((v.inst slot).ent n).awaited ≠ 0 ∨ ((v.inst slot).ent n).fault.isSome = true then v else v.firingDone slot n).answerCf u 0) := by
  obtain ⟨hst, hk, hp⟩ := ha
  simp only [execGrsig, hw, hsel, State.det_result_permitted hdet, hslot, hn, State.graphResult_answers hu hr, hv, hc, hop, hst, hk, hp,
    bne_self_eq_false, beq_self_eq_true, Bool.and_self, Bool.not_true, Bool.false_eq_true, if_false, if_true]
  simp only [bne_iff_ne, Bool.or_eq_true]
theorem execGrsig_noSignal (hop : fld w 36 4 = 0) (ha : ¬(v.inst slot).awaitsSignal n) : execGrsig a d s = .next (v.answerCf u 1) := by
  have idle : (((v.inst slot).ent n).st == 2 && nKind ((v.inst slot).nrec n) == 5 && bitOf (nPay ((v.inst slot).nrec n) 2) 0) = false := by
    rw [Bool.eq_false_iff]
    intro h
    rw [Bool.and_eq_true, Bool.and_eq_true, beq_iff_eq, beq_iff_eq, and_assoc] at h
    exact ha h
  simp only [execGrsig, hw, hsel, State.det_result_permitted hdet, hslot, hn, State.graphResult_answers hu hr, hv, hc, hop, idle,
    bne_self_eq_false, beq_self_eq_true, Bool.not_true, Bool.false_eq_true, if_false, if_true]
theorem execGrsig_fires (hop : fld w 36 4 ≠ 0) (hst : ((v.inst slot).ent n).st = 6) : execGrsig a d s =
    .next (((v.modEnt slot n (fun e => { e with tries := e.tries + 1, again := true })).ready1 slot n).answerCf u 0) := by
  simp only [execGrsig, hw, hsel, State.det_result_permitted hdet, hslot, hn, State.graphResult_answers hu hr, hv, hc, hst,
    beq_eq_false_iff_ne.2 hop, bne_self_eq_false, beq_self_eq_true, Bool.not_true, Bool.false_eq_true, if_false, if_true]
theorem execGrsig_notHeld (hop : fld w 36 4 ≠ 0) (hst : ((v.inst slot).ent n).st ≠ 6) : execGrsig a d s = .next (v.answerCf u 1) := by
  simp only [execGrsig, hw, hsel, State.det_result_permitted hdet, hslot, hn, State.graphResult_answers hu hr, hv, hc,
    beq_eq_false_iff_ne.2 hst, beq_eq_false_iff_ne.2 hop, bne_self_eq_false, Bool.not_true, Bool.false_eq_true, if_false]
end

/-! ## GRCAN (R453) -/

section
variable {s v : State} {a d : Reg} {w : Word} {slot n : Nat} {u : Option Nat} (hw : s.xr a = w) (hsel : selectorOk w false true = true)
  (hdet : s.det = false ∨ d = 0) (hslot : fld w 0 8 = slot)
include hw hsel hdet hslot

theorem execGrcan_unread (hu : s.unread slot = true) : execGrcan a d s = .next (s.hold .queue) := by
  simp only [execGrcan, hw, hsel, State.det_result_permitted hdet, hslot, State.graphResult_unread hu, Bool.not_true, Bool.false_eq_true,
    if_false]

variable (hn : fld w 16 12 = n) (hu : s.unread slot = false) (hr : hasRoom s (resultsOf d) 0) (hv : s.newResult d = (u, v))
include hn hu hr hv

theorem execGrcan_refused (hc : v.selectorCode w false ≠ 0) :
    execGrcan a d s = .next (v.answerCf u (BitVec.ofNat 64 (v.selectorCode w false))) := by
  simp only [execGrcan, hw, hsel, State.det_result_permitted hdet, hslot, hn, State.graphResult_answers hu hr, hv, bne_iff_ne.2 hc,
    Bool.not_true, Bool.false_eq_true, if_false, if_true]

variable (hc : v.selectorCode w false = 0)
include hc

theorem execGrcan_all (hall : bitOf w 32 = true) : execGrcan a d s = .next ((v.cancelNodes slot
    ((List.range (v.inst slot).nn).filter (fun k => !finalSt ((v.inst slot).ent k).st))).answerCf u 0) := by
  simp only [execGrcan, hw, hsel, State.det_result_permitted hdet, hslot, hn, State.graphResult_answers hu hr, hv, hc, hall,
    bne_self_eq_false, Bool.not_true, Bool.false_eq_true, if_false, if_true]
theorem execGrcan_held (hall : bitOf w 32 = false) (hst : ((v.inst slot).ent n).st = 6) : execGrcan a d s =
    .next ((((v.modEnt slot n (fun e => { e with st := 4 })).walkFromNode slot n).checkEnd slot).answerCf u 0) := by
  simp only [execGrcan, hw, hsel, State.det_result_permitted hdet, hslot, hn, State.graphResult_answers hu hr, hv, hc, hall, hst,
    bne_self_eq_false, beq_self_eq_true, Bool.not_true, Bool.false_eq_true, if_false, if_true]
theorem execGrcan_node (hall : bitOf w 32 = false) (hst : ((v.inst slot).ent n).st ≠ 6) : execGrcan a d s =
    .next (((v.cancelNodes slot [n]).later (.cancelWalkStep slot (v.inst slot).gen (slotMaster slot) [] [n] [n] true false)).answerCf u 0) := by
  simp only [execGrcan, hw, hsel, State.det_result_permitted hdet, hslot, hn, State.graphResult_answers hu hr, hv, hc, hall,
    beq_eq_false_iff_ne.2 hst, bne_self_eq_false, Bool.not_true, Bool.false_eq_true, if_false]
end

/-! ## GRQRY (R454) -/

/-- What GRQRY answers of a graph: its generation, ASID, the number of its nodes that are not final, and its state (R454). -/
def Inst.summary (i : Inst) : Word :=
  BitVec.ofNat 64 (i.gen * 2 ^ 48 + i.asid.toNat * 2 ^ 32 +
    ((List.range i.nn).filter (fun k => !finalSt (i.ent k).st)).length % 4096 * 2 ^ 16 + i.st)

section
variable {s v : State} {a d : Reg} {w : Word} {slot : Nat} {u : Option Nat} {all : Bool} (hw : s.xr a = w)
  (hsel : selectorOk w false true = true) (hdet : s.det = false) (hslot : fld w 0 8 = slot)
include hw hsel hdet hslot

theorem execGrqry_unread (hu : s.unread slot = true) : execGrqry a d s = .next (s.hold .queue) := by
  simp only [execGrqry, hw, hsel, hdet, hslot, State.graphResult_unread hu, Bool.not_true, Bool.false_eq_true, if_false]

variable (hall : bitOf w 32 = all) (hu : s.unread slot = false) (hr : hasRoom s (resultsOf d) 0) (hv : s.newResult d = (u, v))
include hall hu hr hv

theorem execGrqry_refused (hc : v.selectorCode w all ≠ 0) :
    execGrqry a d s = .next (v.answerCf u (BitVec.ofNat 64 (2 ^ 63 + v.selectorCode w all))) := by
  simp only [execGrqry, hw, hsel, hdet, hslot, hall, State.graphResult_answers hu hr, hv, bne_iff_ne.2 hc, Bool.not_true,
    Bool.false_eq_true, if_false, if_true]
theorem execGrqry_answers {x : Word} (hc : v.selectorCode w all = 0)
    (hx : (if all then (v.inst slot).summary else (entWords (v.inst slot).gen ((v.inst slot).ent (fld w 16 12))).headD 0) = x) :
    execGrqry a d s = .next (v.answerCf u x) := by
  subst hx
  simp only [execGrqry, hw, hsel, hdet, hslot, hall, State.graphResult_answers hu hr, hv, hc, bne_self_eq_false, Bool.not_true,
    Bool.false_eq_true, if_false]
  rfl
end

/-! ## XPOST and XQRY (R482, R483) -/

/-- A successor released at the level and under the ASID of a frame. -/
def succOfFrame (f : Frame) : SuccWord → SuccWord
  | .ok r => .ok { r with prio := f.level, asid := f.asid, gen := 0 }
  | y => y
/-- The state in which the job of a packet is on its way to the socket behind the accesses of its scope (R482). -/
def State.jobPosted (s : State) (p : List Word) (sx : SuccWord) : State :=
  let j := GuestJob.mk 0 0 0 1 s.cf.level.toNat s.cf.asid p s.iss.ep sx.rel? none false false
  (s.acceptSucc sx).releaseThen (widerScope .module (succScope s.iss.ep sx.rel?)) [(0, s.iss.ep, socketEp, .guestSubmission j)]
/-- What XQRY answers of the socket (R483). -/
def Guest.summary (g : Guest) : Nat := g.state + g.reason * 2 ^ 8 + g.modules * 2 ^ 16
/-- The jobs of an ASID that have not completed. -/
def Guest.jobsOf (g : Guest) (asid : BitVec 16) : List GuestJob := g.jobs.filter (fun j => j.asid == asid && j.st != 3)

section
variable {s : State} {a d : Reg}

theorem execXpost_posts {p : List Word} {sw : SuccWord} (hen : s.guest.en = true) (hb : blockOk (s.xr a) 64 = true)
    (hp : s.lmWords (s.xr a).toNat 8 = p) (hz : zeroField (p.getD 0 0) 0 48 = true) (hs : s.succWord (p.getD 1 0) = sw)
    (hok : legalSucc sw) (hr : hasRoom s 0 1) : execXpost a s = .next (s.jobPosted p (succOfFrame s.cf sw)) := by
  simp only [execXpost, hen, hb, hp, hz, hs, State.withRoom_go hr, Bool.not_true, Bool.false_eq_true, if_false]
  obtain rfl | ⟨r, rfl⟩ := hok <;> rfl

variable (hz : zeroField (s.xr a) 2 62 = true) (hdet : s.det = false) (hr : hasRoom s (resultsOf d) 0)
include hz hdet hr

theorem execXqry_socket (hop : fld (s.xr a) 0 2 = 0) : execXqry a d s = .next (answering s d s.guest.summary) := by
  simp only [execXqry, hz, hop, hdet, State.withRoom_resultsOf hr, beq_iff_eq, Bool.not_true, Bool.false_or, Nat.not_le.2 (Nat.zero_lt_two),
    decide_false, Bool.false_eq_true, if_false]
  rfl
theorem execXqry_jobs (hop : fld (s.xr a) 0 2 = 1) : execXqry a d s = .next (answering s d
    ((s.guest.jobsOf s.cf.asid).length + ((s.guest.jobsOf s.cf.asid).filter (fun j => j.st == 2)).length * 2 ^ 16)) := by
  simp only [execXqry, hz, hop, hdet, State.withRoom_resultsOf hr, beq_iff_eq, Bool.not_true, Bool.false_or, Nat.not_le.2 (Nat.one_lt_two),
    decide_false, Bool.false_eq_true, if_false]
  rfl
end

/-- Settles O26: past its checks each instruction starts what it names, or answers the code or state that its slot is found to have. -/
theorem graphAndGuestInstructionsComplete : Obligations.GraphAndGuestInstructionsComplete := by
  unfold Obligations.GraphAndGuestInstructionsComplete
  intro s a d sw w room det slot n u v i e
  refine ⟨?run, ?signal, ?cancel, ?query, ?post, ?socket⟩
  case run =>
    intro y sl id sx hb ha hz hs hok hdet hfree hr
    exact execGrrun_starts hb rfl ha hz hs hok hdet hfree hr
  case signal =>
    refine fun hsel hdet => ⟨execGrsig_unread rfl hsel hdet rfl, fun hu hr => ⟨?_, ?_, ?_, ?_, ?_⟩⟩
    · exact execGrsig_refused rfl hsel hdet rfl rfl hu hr rfl
    · exact fun hc hop hst hk hp => execGrsig_ends rfl hsel hdet rfl rfl hu hr rfl hc hop ⟨hst, hk, hp⟩
    · exact execGrsig_fires rfl hsel hdet rfl rfl hu hr rfl
    · exact execGrsig_notHeld rfl hsel hdet rfl rfl hu hr rfl
    · refine fun hc hop ha => execGrsig_noSignal rfl hsel hdet rfl rfl hu hr rfl hc hop fun ⟨hst, hk, hp⟩ => ?_
      obtain h | h | h := ha
      · exact h hst
      · exact h hk
      · exact Bool.false_ne_true (h.symm.trans hp)
  case cancel =>
    refine fun hsel hdet => ⟨execGrcan_unread rfl hsel hdet rfl, fun hu hr => ⟨?_, ?_, ?_, ?_⟩⟩
    · exact execGrcan_refused rfl hsel hdet rfl rfl hu hr rfl
    · exact execGrcan_all rfl hsel hdet rfl rfl hu hr rfl
    · exact execGrcan_held rfl hsel hdet rfl rfl hu hr rfl
    · exact execGrcan_node rfl hsel hdet rfl rfl hu hr rfl
  case query =>
    intro all left hsel hdet
    refine ⟨execGrqry_unread rfl hsel hdet rfl, fun hu hr => ⟨execGrqry_refused rfl hsel hdet rfl rfl hu hr rfl, fun hc hall => ?_,
      fun hc hall => ?_⟩⟩
    · exact execGrqry_answers rfl hsel hdet rfl rfl hu hr rfl hc (if_pos hall)
    · exact execGrqry_answers rfl hsel hdet rfl rfl hu hr rfl hc (if_neg (ne_true_of_eq_false hall))
  case post =>
    intro p sx hen hb hz hs hok hr j
    exact execXpost_posts hen hb rfl hz hs hok hr
  case socket =>
    intro g mine hz hdet hr
    exact ⟨execXqry_socket hz hdet hr, execXqry_jobs hz hdet hr⟩

end Sys2Proof.Machine
end

section
/-! Instructions of the spawn unit: SPAWN, JOINI, JOIN and TERMQ (14_spawn.md R460 to R464, R472). -/

namespace Sys2Proof.Machine
open Sys2Proof.Safety

/-! ## SPAWN (R461, R464) -/

/-- The record and the control word of a child keep R462, and its record is free. -/
def State.childLegal (s : State) (i c : Word) (h : Bool) (dom : Nat) : Prop :=
  zeroField i 8 56 = true ∧ controlOk c h dom = true ∧ s.cc.recbusy.getLsbD i.toNat = false ∧
    recordOk (s.recWord i.toNat 0) (s.recWord i.toNat 1) = true ∧ fld (s.recWord i.toNat 0) 0 3 = s.cf.level.toNat
/-- The join counter that a control word names, if it names one, is open, of the frame's ASID, and can count a child (R462). -/
def State.childCounted (s : State) (c : Word) : Prop :=
  bitOf c 6 = false → (s.cc.join (fld c 0 6)).st = 1 ∧ (s.cc.join (fld c 0 6)).asid = s.cf.asid ∧ (s.cc.join (fld c 0 6)).pending ≠ 65535
/-- The core whose deque takes a child: the spawning one, or the hashed core of its domain (R464). -/
def State.childCore (s : State) (h : Bool) (dom : Nat) : Option Nat :=
  if dom = 0 ∨ h = false then some s.iss.ep else s.hashedCore dom s.iss.ep (childPath s.cf.path s.cf.ordinal.toNat)

section
variable {s : State} {y : Bool} {p : BitVec 2} {b a d : Reg} {t : Nat}

/-- A counter that can count a child passes both tests of R462. -/
theorem State.childCounted_checks {c : Word} (h : s.childCounted c) :
    (!bitOf c 6 && ((s.cc.join (fld c 0 6)).st != 1 || (s.cc.join (fld c 0 6)).asid != s.cf.asid)) = false ∧
      (!bitOf c 6 && (s.cc.join (fld c 0 6)).pending == 65535) = false := by
  cases hc : bitOf c 6 with
  | true => exact ⟨rfl, rfl⟩
  | false =>
    obtain ⟨hst, ha, hp⟩ := h hc
    rw [hst, ha, bne_self_eq_false, bne_self_eq_false, beq_eq_false_iff_ne.2 hp]
    exact ⟨rfl, rfl⟩
/-- What a deterministic launch forbids of SPAWN (R378): a result, and a child whose place is not hashed. -/
theorem spawn_det_permitted {dom : Nat} (h : s.det = false ∨ (d = 0 ∧ (dom = 0 ∨ y = true))) :
    (s.det && (d != 0 || (dom != 0 && !y))) = false := by
  obtain h | ⟨rfl, rfl | rfl⟩ := h
  · rw [h, Bool.false_and]
  · rw [bne_self_eq_false, bne_self_eq_false, Bool.false_and, Bool.or_false, Bool.and_false]
  · rw [bne_self_eq_false, Bool.not_true, Bool.and_false, Bool.or_false, Bool.and_false]

theorem execSpawn_spawns (hl : s.childLegal (s.xr a) (s.xr b) y p.toNat) (hc : s.childCounted (s.xr b))
    (hdet : s.det = false ∨ (d = 0 ∧ (p.toNat = 0 ∨ y = true))) (ht : s.childCore y p.toNat = some t)
    (hq : t = s.iss.ep → s.dequeFull s.iss.ep = false) (hr : hasRoom s (resultsOf d) 1) : execSpawn y p b a d s =
      .next (((s.newResult d).2.spawnChild (s.xr a).toNat (s.xr b) y p.toNat t).answerCf (s.newResult d).1 0) := by
  obtain ⟨hz, hctl, hfree, hrec, hlvl⟩ := hl
  obtain ⟨hopen, hcount⟩ := State.childCounted_checks hc
  have target : (if (p.toNat == 0 || !y) = true then some s.iss.ep
      else s.hashedCore p.toNat s.iss.ep (childPath s.cf.path s.cf.ordinal.toNat)) = some t := by
    rw [← ht, State.childCore]
    simp only [Bool.or_eq_true, beq_iff_eq, Bool.not_eq_true']
  have space : (t == s.iss.ep && s.dequeFull s.iss.ep) = false := by
    rw [Bool.and_eq_false_imp]
    exact fun h => hq (beq_iff_eq.1 h)
  simp only [execSpawn, hz, hctl, hfree, hrec, hlvl, hopen, hcount, spawn_det_permitted hdet, target, space, State.withRoom_resultsOf_beq hr,
    bne_self_eq_false, Bool.or_false, Bool.not_true, Bool.false_eq_true, if_false]
end

/-! ## JOINI and JOIN (R460, R463) -/

/-- The word of JOINI keeps R462. -/
def joiniLegal (x : Word) : Prop := zeroField x 15 49 = true ∧ zeroField x 6 2 = true ∧ fld x 8 4 ≤ 8 ∧ fld x 12 3 ≤ 4
/-- The counter that the word of JOINI opens: with its scope, its operation and the identity of its fold (R460). -/
def openedJoin (x : Word) (asid : BitVec 16) : JoinCtr :=
  { JoinCtr.free with st := 1, jscope := fld x 12 3, op := fld x 8 4, asid := asid, value := foldIdentity (fld x 8 4) }
/-- The state in which a counter is armed with its continuation and its arming is on its way behind the accesses of its scope (R463). -/
def State.joinArmed (s : State) (j : Nat) (word : Word) (sw : SuccWord) (d : Reg) : State :=
  let ep := s.iss.ep
  let k := s.cc.join j
  let v := (s.acceptSucc sw).modJoin ep j (fun x => { x with st := 2, rdy := false, word := word, cont := sw.rel? })
  let sc := match sw.rel? with
    | some r => widerScope (scopeOfCode k.jscope) (relScope r ep)
    | none => scopeOfCode k.jscope
  let (u, t) := v.newResult d
  (t.answerCf u 0).releaseThen sc [(4, ep, ep, .joinMessage (JoinMsg.mk ep ep j t.cf.asid none false true t.cf.level.toNat))]

section
variable {s : State} {b a d : Reg}

section
variable (hl : joiniLegal (s.xr a)) (hdet : s.det = false ∨ d = 0) (hr : hasRoom s (resultsOf d) 0)
include hl hdet hr

theorem execJoini_taken (hst : (s.cc.join (fld (s.xr a) 0 6)).st ≠ 0) (hd : d ≠ 0) : execJoini a d s = .next (answering s d 1) := by
  obtain ⟨hz15, hz6, hop, hsc⟩ := hl
  rw [resultsOf, if_neg hd] at hr
  simp only [execJoini, hz15, hz6, Nat.not_lt.2 hop, Nat.not_lt.2 hsc, State.det_result_permitted hdet, bne_iff_ne.2 hst,
    beq_eq_false_iff_ne.2 hd, State.withRoom_go hr, decide_false, Bool.or_false, Bool.not_true, Bool.false_eq_true, if_false, if_true]
  rfl
theorem execJoini_opens (hst : (s.cc.join (fld (s.xr a) 0 6)).st = 0) : execJoini a d s =
    .next (((s.newResult d).2.modJoin (s.newResult d).2.iss.ep (fld (s.xr a) 0 6)
      (fun _ => openedJoin (s.xr a) (s.newResult d).2.cf.asid)).answerCf (s.newResult d).1 0) := by
  obtain ⟨hz15, hz6, hop, hsc⟩ := hl
  simp only [execJoini, hz15, hz6, Nat.not_lt.2 hop, Nat.not_lt.2 hsc, State.det_result_permitted hdet, hst, bne_self_eq_false,
    State.withRoom_resultsOf hr, beq_iff_eq, decide_false, Bool.or_false, Bool.not_true, Bool.false_eq_true, if_false]
  rfl
end

theorem execJoin_arms {sw : SuccWord} (hz : zeroField (s.xr a) 6 58 = true) (hs : s.succWord (s.xr b) = sw) (hok : legalSucc sw)
    (hst : (s.cc.join (fld (s.xr a) 0 6)).st = 1) (ha : (s.cc.join (fld (s.xr a) 0 6)).asid = s.cf.asid)
    (hr : hasRoom s (resultsOf d) 1) : execJoin b a d s = .next (s.joinArmed (fld (s.xr a) 0 6) (s.xr b) sw d) := by
  simp only [execJoin, hz, hs, hst, ha, bne_self_eq_false, State.withRoom_resultsOf hr, beq_iff_eq, Bool.or_false, Bool.not_true,
    Bool.false_eq_true, if_false]
  obtain rfl | ⟨r, rfl⟩ := hok <;> rfl
end

/-! ## TERMQ (R472) -/

section
variable {s : State} {a d : Reg} {t : TSlot} (ht : vget TSlot.free s.term.slots (fld (s.xr a) 0 4) = t)
  (hz : zeroField (s.xr a) 4 60 = true) (hdet : s.det = false) (hr : hasRoom s (resultsOf d) 0)
include ht hz hdet hr

theorem execTermq_own (hown : s.cf.fm = true ∨ t.asid = s.cf.asid) :
    execTermq a d s = .next (answering s d (t.asid.toNat * 2 ^ 32 + t.st)) := by
  have mine : (!s.cf.fm && t.asid != s.cf.asid) = false := by
    obtain h | h := hown
    · rw [h, Bool.not_true, Bool.false_and]
    · rw [h, bne_self_eq_false, Bool.and_false]
  simp only [execTermq, ht, hz, hdet, mine, State.withRoom_resultsOf hr, beq_iff_eq, Bool.not_true, Bool.false_eq_true, if_false]
  rfl
theorem execTermq_foreign (hfm : s.cf.fm = false) (ha : t.asid ≠ s.cf.asid) : execTermq a d s = .next (answering s d 0) := by
  simp only [execTermq, ht, hz, hdet, hfm, bne_iff_ne.2 ha, State.withRoom_resultsOf hr, beq_iff_eq, Bool.not_true, Bool.not_false,
    Bool.and_self, Bool.false_eq_true, if_false, if_true]
  rfl
end

/-- Settles O27: past its checks each instruction spawns, opens or arms, or answers the code or state that it finds. -/
theorem spawnInstructionsComplete : Obligations.SpawnInstructionsComplete := by
  unfold Obligations.SpawnInstructionsComplete
  intro s y p b a d sw x room det
  refine ⟨?spawn, ?joini, ?join, ?termq⟩
  case spawn =>
    intro c dom w0 j hz hctl hfree hrec hlvl hcount hdet t ht hq hr
    exact execSpawn_spawns ⟨hz, hctl, hfree, hrec, hlvl⟩ hcount hdet ht hq hr
  case joini =>
    intro j op sc hz15 hz6 hop hsc hdet hr
    exact ⟨execJoini_taken ⟨hz15, hz6, hop, hsc⟩ hdet hr, execJoini_opens ⟨hz15, hz6, hop, hsc⟩ hdet hr⟩
  case join =>
    intro j k ep hz hs hok hst ha hr
    exact execJoin_arms hz hs hok hst ha hr
  case termq =>
    intro t hz hdet hr
    exact ⟨execTermq_own rfl hz hdet hr, execTermq_foreign rfl hz hdet hr⟩

end Sys2Proof.Machine
end

section
/-! Steps of spawning, joining, stealing and termination (14_spawn.md R460 to R471). -/

namespace Sys2Proof.Machine

/-! ## The steps act on the event they are -/

section
variable {s : State} {ep v : Nat} {c : Child} {m : JoinMsg}

theorem exec_dequePush_of_ev (h : s.ev = some (.dequePush ep c)) : exec .dequePush s = execDequePush ep c s := by
  rw [show exec .dequePush s = runDequePush s from rfl, runDequePush, h]
theorem exec_dequePush_of_ack {r : Release} (h : s.ev = some (.pushAck r)) : exec .dequePush s = .next (s.pushAcked r) := by
  rw [show exec .dequePush s = runDequePush s from rfl, runDequePush, h]
theorem exec_joinMessage_of_ev (h : s.ev = some (.joinMessage m)) : exec .joinMessage s = execJoinMessage m s := by
  rw [show exec .joinMessage s = runJoinMessage s from rfl, runJoinMessage, h]
theorem exec_stealAttempt_of_ev (h : s.ev = some (.stealAttempt ep)) : exec .stealAttempt s = execStealAttempt ep s := by
  rw [show exec .stealAttempt s = runStealAttempt s from rfl, runStealAttempt, h]
theorem exec_stealRequest_of_ev (h : s.ev = some (.stealRequest ep v)) : exec .stealRequest s = execStealRequest ep v s := by
  rw [show exec .stealRequest s = runStealRequest s from rfl, runStealRequest, h]
theorem exec_stealGrant_of_ev {o : Option Child} (h : s.ev = some (.stealGrant ep v o)) : exec .stealGrant s = execStealGrant ep v o s := by
  rw [show exec .stealGrant s = runStealGrant s from rfl, runStealGrant, h]
theorem exec_terminationWave_of_ev (h : s.ev = some (.terminationWave ep)) : exec .terminationWave s = execTerminationWave ep s := by
  rw [show exec .terminationWave s = runTerminationWave s from rfl, runTerminationWave, h]
theorem exec_waveAnswer_of_ev {idle : BitVec 16} {sent recv : List Nat} (h : s.ev = some (.waveAnswer ep v idle sent recv)) :
    exec .waveAnswer s = execWaveAnswer ep v idle sent recv s := by
  rw [show exec .waveAnswer s = runWaveAnswer s from rfl, runWaveAnswer, h]
theorem exec_terminationReport_of_ev (h : s.ev = some (.terminationReport v)) :
    exec .terminationReport s = execTerminationReport v s := by
  rw [show exec .terminationReport s = runTerminationReport s from rfl, runTerminationReport, h]
end

/-! ## Deques and join counters (R460, R461, R465, R468) -/

/-- A join counter with a contribution folded into it (R459, R465). -/
def JoinCtr.folded (x : JoinCtr) (m : JoinMsg) : JoinCtr :=
  { x with
    pending := x.pending - 1
    value := (match m.value with | some v => foldValue x.op x.value v | none => x.value)
    flt := x.flt || m.flt }

section
variable {s : State} {ep : Nat} {c : Child} {m : JoinMsg}

theorem execDequePush_enters (hr : (s.core ep).refuses = false) (hf : (s.core ep).spawn.full = false) : execDequePush ep c s =
    .next (((if c.rel.srcEp == ep then s else (s.countRecv ep c.rel.asid).send 1 ep c.rel.srcEp (.pushAck c.rel)).dequeAdd ep c).select
      ep) := by
  simp only [execDequePush, hr, hf, Bool.false_eq_true, if_false]

theorem execJoinMessage_arms (ha : ((s.core m.core).join m.idx).asid = m.asid) (harm : m.arm = true)
    (hst : ((s.core m.core).join m.idx).st = 2) : execJoinMessage m s =
      .next ((s.modJoin m.core m.idx (fun x => { x with rdy := true })).joinEnd m.core m.idx) := by
  simp only [execJoinMessage, ha, harm, hst, beq_self_eq_true, Bool.and_self, if_true]
theorem execJoinMessage_folds (ha : ((s.core m.core).join m.idx).asid = m.asid) (harm : m.arm = false)
    (hst : ((s.core m.core).join m.idx).st ≠ 0) (hr : (s.core m.core).refuses = false) : execJoinMessage m s =
      .next (((s.countRecv m.core m.asid).modJoin m.core m.idx (JoinCtr.folded · m)).joinEnd m.core m.idx) := by
  simp only [execJoinMessage, ha, harm, hr, beq_eq_false_iff_ne.2 hst, bne_self_eq_false, Bool.or_false, Bool.false_eq_true, if_false]
  rfl
end

/-! ## Stealing (R466, R467) -/

/-- The oldest entry of the highest PRIO that may go to a thief (R467). -/
def SpawnUnit.hit (u : SpawnUnit) (victim thief : Nat) : Option Nat :=
  let may := fun (d : Child × Option Nat) => childStealable d.1 victim thief
  let p := (u.deque.filter may).foldl (fun n d => Nat.max n d.1.rel.prio.toNat) 0
  u.deque.findIdx? (fun d => may d && d.1.rel.prio.toNat == p)
/-- The state in which a victim has given entry `k` of its deque away (R467). -/
def State.gaveAway (s : State) (victim k : Nat) : State :=
  (s.modSpawn victim (fun u => { u with deque := u.deque.eraseIdx k, granted := (u.granted + 1) % 2 ^ 32 })).dequeFill victim

section
variable {s : State} {ep v : Nat} {c : Child}

theorem execStealAttempt_starts (hs : s.steals ep = true) (hv : (s.core ep).spawn.victims = []) :
    let t := s.modSpawn ep (fun u => { u with attempts := Nat.min 255 (u.attempts + 1), victims := u.victimList ep })
    execStealAttempt ep s = .next (t.stealNext ep ((t.core ep).spawn.victims.length + 1)) := by
  simp only [execStealAttempt, hs, hv, List.isEmpty_nil, Bool.not_true, Bool.or_false, Bool.false_eq_true, if_false]

theorem execStealRequest_empty (hh : ((s.dequeLost v).core v).spawn.hit v ep = none) :
    execStealRequest ep v s = .next ((s.dequeLost v).send 1 v ep (.stealGrant ep v none)) := by
  simp only [SpawnUnit.hit] at hh
  simp only [execStealRequest, hh]
theorem execStealRequest_grants {k : Nat} {d : Child × Option Nat} (hh : ((s.dequeLost v).core v).spawn.hit v ep = some k)
    (hd : ((s.dequeLost v).core v).spawn.deque[k]? = some d) : execStealRequest ep v s =
      .next ((((s.dequeLost v).gaveAway v k).countSent v ((s.dequeLost v).childAt v d).rel.asid).send 1 v ep
        (.stealGrant ep v (some ((s.dequeLost v).childAt v d)))) := by
  simp only [SpawnUnit.hit] at hh
  simp only [execStealRequest, hh, hd]
  rfl

theorem execStealGrant_enters (hf : (s.core ep).spawn.full = false) : execStealGrant ep v (some c) s =
    .next ((((s.countRecv ep c.rel.asid).modSpawn ep (fun u =>
      { u with victims := [], received := (u.received + 1) % 2 ^ 32 })).dequeAdd ep c).select ep) := by
  simp only [execStealGrant, hf, Bool.false_eq_true, if_false]
theorem execStealGrant_asksNext (hs : s.steals ep = true) : execStealGrant ep v none s =
    .next ((s.modSpawn ep (fun u => { u with victims := u.victims.drop 1 })).stealNext ep ((s.core ep).spawn.victims.length + 1)) := by
  simp only [execStealGrant, hs, if_true]
end

/-! ## Termination (R469 to R471) -/

/-- The state in which a root has started a wave and sent it to its children (R471). -/
def State.waveStarted (s : State) (ep : Nat) (kids : List Nat) : State :=
  kids.foldl (fun t k => t.send 0 ep k (.terminationWave k))
    (s.setWave ep (Wave.mk kids (BitVec.allOnes 16) (List.replicate 16 0) (List.replicate 16 0)))
/-- A wave with the answer of a child combined (R471). -/
def Wave.combined (w : Wave) (child : Nat) (idle : BitVec 16) (sent recv : List Nat) : Wave :=
  Wave.mk (w.left.erase child) (w.idle &&& idle) (addCounts w.sent sent) (addCounts w.recv recv)
/-- The state in which the wave of a node is over. -/
def State.waveOver (s : State) (ep : Nat) : State := { s with term := { s.term with waves := s.term.waves.del ep } }

section
variable {s : State} {ep v : Nat}

theorem execTerminationWave_root (hr : ep = termRoot) (hw : s.term.waves.find ep = none) :
    execTerminationWave ep s = .next (s.waveStarted ep ((List.range 4).map slabTerm)) := by
  simp only [execTerminationWave, hw, beq_iff_eq.2 hr, Option.isSome_none, Bool.false_eq_true, if_false, if_true]
  rfl
theorem execTerminationWave_slab (hr : ep ≠ termRoot) (hs : ep = slabTerm (epSlab ep)) :
    execTerminationWave ep s = .next (s.waveStarted ep (slabLeaves (epSlab ep))) := by
  simp only [execTerminationWave, beq_eq_false_iff_ne.2 hr, beq_iff_eq.2 hs, Bool.false_eq_true, if_false, if_true]
  rfl
theorem execTerminationWave_leaf (hr : ep ≠ termRoot) (hs : ep ≠ slabTerm (epSlab ep)) : execTerminationWave ep s =
    .next (s.send 1 ep (slabTerm (epSlab ep)) (.waveAnswer (slabTerm (epSlab ep)) ep (s.idleBits ep) (s.leafAt ep).sent.toList
      (s.leafAt ep).recv.toList)) := by
  simp only [execTerminationWave, beq_eq_false_iff_ne.2 hr, beq_eq_false_iff_ne.2 hs, Bool.false_eq_true, if_false]

section
variable {idle : BitVec 16} {sent recv : List Nat} {w : Wave} (hw : s.term.waves.find ep = some w) (hv : v ∈ w.left)
include hw hv

theorem execWaveAnswer_waits (hl : (w.combined v idle sent recv).left ≠ []) :
    execWaveAnswer ep v idle sent recv s = .next (s.setWave ep (w.combined v idle sent recv)) := by
  simp only [Wave.combined] at hl
  simp only [execWaveAnswer, hw, List.contains_iff_mem.2 hv, List.isEmpty_eq_false_iff.2 hl, Bool.not_true, Bool.not_false,
    Bool.false_eq_true, if_false, if_true]
  rfl
theorem execWaveAnswer_decides (hl : (w.combined v idle sent recv).left = []) (hr : ep = termRoot) :
    execWaveAnswer ep v idle sent recv s =
      .next ((List.range 16).foldl (fun t k => t.slotWave (w.combined v idle sent recv) k) (s.waveOver ep)) := by
  simp only [Wave.combined] at hl
  simp only [execWaveAnswer, hw, List.contains_iff_mem.2 hv, hl, beq_iff_eq.2 hr, List.isEmpty_nil, Wave.combined, Bool.not_true,
    Bool.false_eq_true, if_false, if_true]
  rfl
theorem execWaveAnswer_goesUp (hl : (w.combined v idle sent recv).left = []) (hr : ep ≠ termRoot) :
    execWaveAnswer ep v idle sent recv s = .next ((s.waveOver ep).send 1 ep termRoot
      (.waveAnswer termRoot ep (w.combined v idle sent recv).idle (w.combined v idle sent recv).sent (w.combined v idle sent recv).recv)) := by
  simp only [Wave.combined] at hl
  simp only [execWaveAnswer, hw, List.contains_iff_mem.2 hv, hl, beq_eq_false_iff_ne.2 hr, List.isEmpty_nil, Bool.not_true,
    Bool.false_eq_true, if_false]
  rfl
end
end

/-- Settles O37: each step acts on the event it is, and where its conditions hold does what its rule says. -/
theorem spawnStepsComplete : Obligations.SpawnStepsComplete := by
  unfold Obligations.SpawnStepsComplete
  intro s ep v c m
  refine ⟨?push, ?ack, ?join, ?attempt, ?request, ?granted, ?denied, ?wave, ?answer, ?report⟩
  case push => exact fun he hr hf => (exec_dequePush_of_ev he).trans (execDequePush_enters hr hf)
  case ack => exact fun r => exec_dequePush_of_ack
  case join =>
    intro x he ha
    rw [exec_joinMessage_of_ev he]
    exact ⟨execJoinMessage_arms ha, execJoinMessage_folds ha⟩
  case attempt => exact fun he hs hv => (exec_stealAttempt_of_ev he).trans (execStealAttempt_starts hs hv)
  case request =>
    intro z l ok p hit he
    rw [exec_stealRequest_of_ev he]
    exact ⟨execStealRequest_empty, fun k d => execStealRequest_grants⟩
  case granted => exact fun he hf => (exec_stealGrant_of_ev he).trans (execStealGrant_enters hf)
  case denied => exact fun he hs => (exec_stealGrant_of_ev he).trans (execStealGrant_asksNext hs)
  case wave =>
    intro start he
    rw [exec_terminationWave_of_ev he]
    exact ⟨execTerminationWave_root, execTerminationWave_slab, execTerminationWave_leaf⟩
  case answer =>
    intro idle sent recv w he hw hv w' t
    rw [exec_waveAnswer_of_ev he]
    exact ⟨execWaveAnswer_waits hw hv, execWaveAnswer_decides hw hv, execWaveAnswer_goesUp hw hv⟩
  case report => exact fun he => exec_terminationReport_of_ev he

end Sys2Proof.Machine
end

section
/-! Steps of a running graph: start, firing, tokens, completions, cancellation and end (13_graph_engine.md R429 to R449). -/

namespace Sys2Proof.Machine

/-! ## The steps act on the event they are -/

section
variable {s : State} {slot gen k : Nat} {f : Firing}

theorem exec_graphStart_of_ev {phase : Nat} (h : s.ev = some (.graphStart slot gen k phase)) :
    exec .graphStart s = execGraphStart slot gen k phase s := by
  rw [show exec .graphStart s = runGraphStart s from rfl, runGraphStart, h]
theorem exec_graphGo_of_ev (h : s.ev = some (.graphGo slot gen k)) : exec .graphGo s = execGraphGo slot gen k s := by
  rw [show exec .graphGo s = runGraphGo s from rfl, runGraphGo, h]
theorem exec_nodeFire_of_ev (h : s.ev = some (.nodeFire k)) : exec .nodeFire s = execNodeFire k s := by
  rw [show exec .nodeFire s = runNodeFire s from rfl, runNodeFire, h]
theorem exec_token_of_ev {e : Word} {src : Option Nat} (h : s.ev = some (.token k slot gen e src)) :
    exec .token s = execToken k slot gen e src s := by
  rw [show exec .token s = runToken s from rfl, runToken, h]
theorem exec_nodeDone_of_ev {who status detail : Nat} (h : s.ev = some (.nodeDone f who status detail)) :
    exec .nodeDone s = execNodeDone f who status detail s := by
  rw [show exec .nodeDone s = runNodeDone s from rfl, runNodeDone, h]
theorem exec_firingCompletion_of_ev {status detail : Nat} (h : s.ev = some (.firingCompletion f status detail)) :
    exec .firingCompletion s = execFiringCompletion f status detail s := by
  rw [show exec .firingCompletion s = runFiringCompletion s from rfl, runFiringCompletion, h]
theorem exec_cancelWalkStep_of_ev {todo level seen : List Nat} {cone ended : Bool}
    (h : s.ev = some (.cancelWalkStep slot gen k todo level seen cone ended)) :
    exec .cancelWalkStep s = execCancelWalkStep slot gen k todo level seen cone ended s := by
  rw [show exec .cancelWalkStep s = runCancelWalkStep s from rfl, runCancelWalkStep, h]
theorem exec_gangWatchdog_of_ev (h : s.ev = some (.gangWatchdog f)) : exec .gangWatchdog s = execGangWatchdog f s := by
  rw [show exec .gangWatchdog s = runGangWatchdog s from rfl, runGangWatchdog, h]
theorem exec_eventResend_of_ev (h : s.ev = some (.eventResend k)) : exec .eventResend s = execEventResend k s := by
  rw [show exec .eventResend s = runEventResend s from rfl, runEventResend, h]
theorem exec_censusResubmit_of_ev {q : Solicit} (h : s.ev = some (.censusResubmit q)) :
    exec .censusResubmit s = execCensusResubmit q s := by
  rw [show exec .censusResubmit s = runCensusResubmit s from rfl, runCensusResubmit, h]
theorem exec_instanceEnd_of_ev {owner : Option Nat} (h : s.ev = some (.instanceEnd slot gen owner)) :
    exec .instanceEnd s = execInstanceEnd slot gen owner s := by
  rw [show exec .instanceEnd s = runInstanceEnd s from rfl, runInstanceEnd, h]
end

/-! ## Start and go (R429, R431, R433) -/

/-- The slabs whose engines own nodes of a table, in order (R433). -/
def Table.owners (t : Table) : List Nat := sortBy (fun k => k) ((t.recs.map nSlab).eraseDups)
/-- A running graph that an engine has given a node of a table: its record, and the entry that the state area holds of it (R431, R433). -/
def Inst.withNode (t : Table) (i : Inst) (n : Nat) : Inst :=
  let j := { i with recs := i.recs.put n (t.nrec n) }
  match j.heldEnt (t.nrec n) n, j.nodes.find n with
  | some e, none => { j with nodes := j.nodes.put n e }
  | _, _ => j
/-- The nodes of a table that the engine of a slab owns. -/
def Table.nodesOf (t : Table) (k : Nat) : List Nat := (List.range t.recs.length).filter (fun n => nSlab (t.nrec n) == k)
/-- The engine of a slab tells the master of a slot how it found its nodes (R433). -/
def State.tellMaster (s : State) (slot gen k phase : Nat) : State :=
  s.send 0 (graphEp k) (graphEp (slotMaster slot)) (.graphStart slot gen k phase)

section
variable {s : State} {slot gen k : Nat}

theorem State.readHeader_starts {t : Table} (ht : s.readTable (slotMaster slot) (s.inst slot) = some t) : s.readHeader slot gen =
    t.owners.foldl (fun u k => u.send 0 (graphEp (slotMaster slot)) (graphEp k) (.graphStart slot gen k 1))
      (s.modInst slot (fun i => { i with
        hdr := t.hdr, edges := t.edges, owners := t.owners, acks := t.owners, recs := t.recs.zipIdx.foldl (fun l r => l.put r.2 r.1) [] })) := by
  simp only [State.readHeader, ht]
  rfl
theorem State.validate_takes {t : Table} (ht : s.readTable k (s.inst slot) = some t) (hok : s.tableOk k (s.inst slot) t = true) :
    s.validate slot gen k = (s.modInst slot (fun i => (t.nodesOf k).foldl (Inst.withNode t) i)).tellMaster slot gen k 2 := by
  simp only [State.validate, ht, hok, Bool.not_true, Bool.false_eq_true, if_false]
  rfl
theorem State.validate_breaks {t : Table} (ht : s.readTable k (s.inst slot) = some t) (hok : s.tableOk k (s.inst slot) t = false) :
    s.validate slot gen k = s.tellMaster slot gen k 3 := by
  simp only [State.validate, ht, hok, Bool.not_false, if_true]
  rfl

/-- A slot whose state area another run of the same area has left initialised goes at once (R431). -/
theorem State.goInst_held (hf : (s.inst slot).fresh = false) : s.goInst slot gen =
    (s.inst slot).owners.foldl (fun u k => u.send 0 (graphEp (slotMaster slot)) (graphEp k) (.graphGo slot gen k))
      (s.modInst slot (fun i => { i with acks := i.owners, went := true })) := by
  simp only [State.goInst, hf, Bool.not_false, if_true]

theorem execGraphStart_live (hl : s.liveInst slot gen = true) (phase : Nat) : execGraphStart slot gen k phase s = .next (
    match phase with
    | 0 => s.readHeader slot gen
    | 1 => s.validate slot gen k
    | 2 =>
      let u := s.modInst slot (fun i => { i with acks := i.acks.erase k })
      if (u.inst slot).acks.isEmpty then u.goInst slot gen else u
    | 3 => s.breakInst slot gen
    | _ => s.goInst slot gen) := by
  simp only [execGraphStart, hl, Bool.not_true, Bool.false_eq_true, if_false] <;> rfl
theorem execGraphGo_readies (hl : s.liveInst slot gen = true) : execGraphGo slot gen k s =
    .next ((s.tryReady slot ((List.range (s.inst slot).nn).filter (fun n => nSlab ((s.inst slot).nrec n) == k &&
      nPred ((s.inst slot).nrec n) == 0 && nSin ((s.inst slot).nrec n) == 0))).checkEnd slot) := by
  simp only [execGraphGo, hl, Bool.not_true, Bool.false_eq_true, if_false]
end

/-! ## Firing and tokens (R435, R441) -/

section
variable {s : State} {slot gen k n : Nat} (hl : s.liveInst slot gen = true)
include hl

theorem execNodeFire_fires {l : List (Nat × Nat × Nat)} (hr : (s.graph k).ready = (slot, gen, n) :: l) (hst : ((s.inst slot).ent n).st = 1)
    (hw : s.mustWait slot n = false) :
    let t := s.modGraph k (fun g => { g with ready := l })
    execNodeFire k s = .next ((if l.isEmpty then t else t.laterOnce (.nodeFire k)).fire slot n) := by
  simp only [execNodeFire, hr, hl, hst, hw, bne_self_eq_false, Bool.not_true, Bool.or_false, Bool.false_eq_true, if_false]
/-- A token that no streaming source awaits ends no firing. -/
theorem execToken_delivers {e : Word} : execToken k slot gen e none s = .next ((s.deliver slot e).2.tryReady slot [eTarget e]) := by
  simp only [execToken, hl, Bool.not_true, Bool.false_eq_true, if_false]
end

/-! ## Cancellation and the watchdog (R443, R445) -/

/-- The next level of a walk down a cone: the targets of a level that the walk has not seen, in order (R443). -/
def Inst.nextLevel (i : Inst) (level seen : List Nat) : List Nat :=
  (sortBy (fun n => n) ((level.flatMap (fun n => (i.succs n).map eTarget)).eraseDups)).filter (fun n => !seen.contains n)

section
variable {s : State} {slot gen k n : Nat} {l level seen : List Nat} {cone ended : Bool} (hl : s.liveInst slot gen = true)

theorem State.cancelAt_eq : s.cancelAt slot gen k n ended =
    if nSlab ((s.inst slot).nrec n) = k then (s.modEnt slot n (fun e => cancelEnt e ended)).checkEnd slot
    else s.send 0 (graphEp k) (graphEp (nSlab ((s.inst slot).nrec n)))
      (.cancelWalkStep slot gen (nSlab ((s.inst slot).nrec n)) [n] [] [] false ended) :=
  if_congr beq_iff_eq rfl rfl

include hl

theorem execCancelWalkStep_goesOn (hmore : l ≠ [] ∨ cone = true) : execCancelWalkStep slot gen k (n :: l) level seen cone ended s =
    .next ((s.cancelAt slot gen k n ended).later (.cancelWalkStep slot gen k l level seen cone ended)) := by
  have more : (l.isEmpty && !cone) = false := by
    obtain h | h := hmore
    · rw [List.isEmpty_eq_false_iff.2 h, Bool.false_and]
    · rw [h, Bool.not_true, Bool.and_false]
  simp only [execCancelWalkStep, hl, more, Bool.not_true, Bool.false_eq_true, if_false]
theorem execCancelWalkStep_last : execCancelWalkStep slot gen k [n] level seen false ended s = .next (s.cancelAt slot gen k n ended) := by
  simp only [execCancelWalkStep, hl, List.isEmpty_nil, Bool.not_true, Bool.not_false, Bool.and_self, Bool.false_eq_true, if_false, if_true]
theorem execCancelWalkStep_level : execCancelWalkStep slot gen k [] level seen cone ended s =
    .next (if cone = false ∨ (s.inst slot).nextLevel level seen = [] then s
      else s.later (.cancelWalkStep slot gen k ((s.inst slot).nextLevel level seen) ((s.inst slot).nextLevel level seen)
        (seen ++ (s.inst slot).nextLevel level seen) true ended)) := by
  simp only [execCancelWalkStep, hl, Bool.not_true, Bool.or_eq_true, Bool.not_eq_true', List.isEmpty_iff, Bool.false_eq_true, if_false]
  rfl
end

/-- A firing is that of an unformed gang that its watchdog watches: it runs in this round, without a fault (R445). -/
def State.watched (s : State) (f : Firing) : Prop :=
  let j := s.inst f.slot
  let e := j.ent f.node
  nKind (j.nrec f.node) = 2 ∧ (e.st = 2 ∧ e.tries = f.tries ∧ e.formed = false ∧ e.fault = none) ∧ fld (j.hdr.getD 4 0) 0 32 ≠ 0
/-- The registrations of a gang at its array (R445). -/
def State.gangRegs (s : State) (f : Firing) : List Registration :=
  let j := s.inst f.slot
  let r := j.nrec f.node
  (s.arr (nArg r)).regs.filter (fun x => x.level.toNat == fld (nPay r 2) 0 3 && x.asid == j.asid)
/-- The state in which the watchdog of a slab has counted an expiry. -/
def State.watchdogCounted (s : State) (k : Nat) : State := s.modGraph k (fun g => { g with wdogcnt := (g.wdogcnt + 1) % 2 ^ 64 })

section
variable {s : State} {f : Firing} (hl : s.liveInst f.slot f.gen = true)
include hl

theorem execGangWatchdog_withdraws (hw : s.watched f) :
    let r := (s.inst f.slot).nrec f.node
    execGangWatchdog f s = .next ((((s.watchdogCounted (nSlab r)).nodeFault f.slot f.node 2 0xF000).withdraw (nArg r) (s.gangRegs f)).arrayKick
      (nArg r)) := by
  obtain ⟨hk, ⟨hst, ht, hf, hfault⟩, htime⟩ := hw
  simp only [execGangWatchdog, hl, hk, hst, ht, hf, hfault, beq_eq_false_iff_ne.2 htime, bne_self_eq_false, Option.isSome_none, Bool.or_false,
    Bool.not_true, Bool.false_eq_true, if_false]
  rfl
theorem execCensusResubmit_sends {q : Solicit} (hq : q.fire = some f) :
    execCensusResubmit q s = .next (s.send 0 f.engine censusRoot (.solicitRequest q)) := by
  simp only [execCensusResubmit, hq, hl, if_true]
end

/-! ## The end of a running graph (R448, R449) -/

section
variable {s : State} {slot gen k : Nat}

theorem execInstanceEnd_counts (hl : s.liveInst slot gen = true) (hb : (s.inst slot).broken = false) :
    execInstanceEnd slot gen (some k) s = .next (if (s.inst slot).acks.erase k != [] then
        s.modInst slot (fun i => { i with acks := i.acks.erase k })
      else (s.modInst slot (fun i => { i with acks := [], st := 2 })).later (.instanceEnd slot gen none)) := by
  simp only [execInstanceEnd, hl, hb, Bool.not_true, Bool.or_false, Bool.false_eq_true, if_false]
theorem execInstanceEnd_ends (hg : (s.inst slot).gen = gen) (hst : (s.inst slot).st = 2) (hf : s.endFree slot = true) :
    execInstanceEnd slot gen none s = .next (s.endInst slot) := by
  simp only [execInstanceEnd, hg, hst, hf, bne_self_eq_false, Bool.or_false, Bool.false_eq_true, if_false, if_true]
end

/-- Settles O36: each step acts on the event it is, and where its conditions hold does what its rule says. -/
theorem graphStepsComplete : Obligations.GraphStepsComplete := by
  unfold Obligations.GraphStepsComplete
  intro s slot gen k n f i m tell
  refine ⟨?start, State.goInst_held, ?go, ?fire, ?token, ?done, ?cancel, ?watchdog, exec_eventResend_of_ev, ?resubmit, ?owner, ?ended⟩
  case start =>
    intro hl
    have phase {p : Nat} (he : s.ev = some (.graphStart slot gen k p)) := (exec_graphStart_of_ev he).trans (execGraphStart_live hl p)
    exact ⟨fun t he ht => (phase he).trans (congrArg _ (State.readHeader_starts ht)),
      fun t he ht hok => (phase he).trans (congrArg _ (State.validate_takes ht hok)),
      fun t he ht hok => (phase he).trans (congrArg _ (State.validate_breaks ht hok)), phase, phase, phase⟩
  case go => exact fun he hl => (exec_graphGo_of_ev he).trans (execGraphGo_readies hl)
  case fire => exact fun l he hr hl hst hw => (exec_nodeFire_of_ev he).trans (execNodeFire_fires hl hr hst hw)
  case token => exact fun e he hl => (exec_token_of_ev he).trans (execToken_delivers hl)
  case done => exact fun who status detail => ⟨exec_nodeDone_of_ev, exec_firingCompletion_of_ev⟩
  case cancel =>
    intro l level seen cone ended hl own t next
    refine ⟨fun he => ?_, fun he => (exec_cancelWalkStep_of_ev he).trans (execCancelWalkStep_level hl)⟩
    rw [exec_cancelWalkStep_of_ev he, show t = s.cancelAt slot gen k n ended from State.cancelAt_eq.symm]
    refine ⟨execCancelWalkStep_goesOn hl, fun hnil hcone => ?_⟩
    rw [hnil, hcone]
    exact execCancelWalkStep_last hl
  case watchdog =>
    intro j e r g he hl hk hst ht hf hfault htime hit t
    exact (exec_gangWatchdog_of_ev he).trans (execGangWatchdog_withdraws hl ⟨hk, ⟨hst, ht, hf, hfault⟩, htime⟩)
  case resubmit => exact fun q he hq hl => (exec_censusResubmit_of_ev he).trans (execCensusResubmit_sends hl hq)
  case owner => exact fun he hl hb => (exec_instanceEnd_of_ev he).trans (execInstanceEnd_counts hl hb)
  case ended => exact fun he hg hst hf => (exec_instanceEnd_of_ev he).trans (execInstanceEnd_ends hg hst hf)

end Sys2Proof.Machine
end

section
/-! Steps of the guest socket: jobs, translation, invalidation, poison, training, duties and power (15_guest_socket.md R477 to R493). -/

namespace Sys2Proof.Machine

/-! ## The steps act on the event they are -/

section
variable {s : State} {j : GuestJob} {job gst code grant level line reason watts modules : Nat} {va : Word}

theorem exec_guestSubmission_of_ev (h : s.ev = some (.guestSubmission j)) : exec .guestSubmission s = execGuestSubmission j s := by
  rw [show exec .guestSubmission s = runGuestSubmission s from rfl, runGuestSubmission, h]
theorem exec_jobDelivery_of_ev (h : s.ev = some .jobDelivery) : exec .jobDelivery s = execJobDelivery s := by
  rw [show exec .jobDelivery s = runJobDelivery s from rfl, runJobDelivery, h]
theorem exec_preemptionAnswer_of_ev (h : s.ev = some (.preemptionAnswer level)) :
    exec .preemptionAnswer s = execPreemptionAnswer level s := by
  rw [show exec .preemptionAnswer s = runPreemptionAnswer s from rfl, runPreemptionAnswer, h]
theorem exec_guestCompletion_of_ev (h : s.ev = some (.guestCompletion job gst code va)) :
    exec .guestCompletion s = execGuestCompletion job gst code va s := by
  rw [show exec .guestCompletion s = runGuestCompletion s from rfl, runGuestCompletion, h]
theorem exec_translationRequest_of_ev {write atomic : Bool} (h : s.ev = some (.translationRequest job va write atomic)) :
    exec .translationRequest s = execTranslationRequest job va write atomic s := by
  rw [show exec .translationRequest s = runTranslationRequest s from rfl, runTranslationRequest, h]
theorem exec_invalidationAnswer_of_ev (h : s.ev = some (.invalidationAnswer grant)) :
    exec .invalidationAnswer s = execInvalidationAnswer grant s := by
  rw [show exec .invalidationAnswer s = runInvalidationAnswer s from rfl, runInvalidationAnswer, h]
theorem exec_poisonReport_of_ev (h : s.ev = some (.poisonReport line)) : exec .poisonReport s = execPoisonReport line s := by
  rw [show exec .poisonReport s = runPoisonReport s from rfl, runPoisonReport, h]
theorem exec_guestIdentity_of_ev {vendor part credits : Nat} (h : s.ev = some (.guestIdentity vendor part credits modules watts)) :
    exec .guestIdentity s = execGuestIdentity vendor part credits modules watts s := by
  rw [show exec .guestIdentity s = runGuestIdentity s from rfl, runGuestIdentity, h]
theorem exec_trainingTimeout_of_ev (h : s.ev = some (.trainingTimeout modules)) :
    exec .trainingTimeout s = execTrainingTimeout modules s := by
  rw [show exec .trainingTimeout s = runTrainingTimeout s from rfl, runTrainingTimeout, h]
theorem exec_dutyTimeout_of_ev (h : s.ev = some (.dutyTimeout reason)) : exec .dutyTimeout s = execDutyTimeout reason s := by
  rw [show exec .dutyTimeout s = runDutyTimeout s from rfl, runDutyTimeout, h]
theorem exec_powerReport_of_ev (h : s.ev = some (.powerReport watts)) : exec .powerReport s = execPowerReport watts s := by
  rw [show exec .powerReport s = runPowerReport s from rfl, runPowerReport, h]
end

/-! ## Jobs enter the table and are delivered (R480, R487, R490) -/

/-- The free entry of the job table of lowest number (R480). -/
def Guest.freeEntry (g : Guest) : Option Nat := (List.range 256).find? (fun e => !g.jobs.any (fun x => x.entry == e))
/-- A job as it enters the table: next in order, with the reuse of its entry (R480). -/
def Guest.entered (g : Guest) (j : GuestJob) (e : Nat) : GuestJob := { j with seq := g.seq, entry := e, reuse := g.reuses.get 0 e, st := 1 }
/-- The state in which a job has taken an entry of the table. -/
def State.jobEntered (s : State) (j : GuestJob) (e : Nat) : State :=
  s.modGuest (fun g => { g with
    jobs := g.jobs ++ [s.guest.entered j e], reuses := g.reuses.put e ((s.guest.reuses.get 0 e + 1) % 256), seq := g.seq + 1 })
/-- The state in which the entries of COMPLETE jobs are FREE (R480). -/
def State.jobsFreed (s : State) : State := s.modGuest (fun g => { g with jobs := g.jobs.filter (fun j => j.st != 3) })
/-- The jobs that wait for delivery. -/
def Guest.waiting (g : Guest) : List GuestJob := g.jobs.filter (fun j => j.st == 1)
/-- The jobs that the guest holds. -/
def Guest.held (g : Guest) : List GuestJob := g.jobs.filter (fun j => j.st == 2)
/-- The highest PRIO of the waiting jobs (R480). -/
def Guest.topPrio (g : Guest) : Nat := g.waiting.foldl (fun n j => Nat.max n j.prio) 0
/-- The state in which a waiting job is delivered, and pre-emption asked for where the guest holds one of a lower PRIO (R480, R490). -/
def State.jobDelivered (s : State) (j : GuestJob) : State :=
  let u := (s.modGuest (fun g => { g with jobs := g.jobs.map (fun x => if x.seq == j.seq then { x with st := 2 } else x) })).out
    (.guestJob (deliveryWords j))
  if s.guest.held.any (fun x => x.prio < s.guest.topPrio) then u.guestPreempt s.guest.topPrio else u

section
variable {s : State} {j : GuestJob}

theorem execGuestSubmission_fenced (h : s.guest.state = 3 ∨ s.guest.state = 4) :
    execGuestSubmission j s = .next (s.jobRelease j 20 s.guest.reason) :=
  congrArg _ (if_pos (by simpa only [Bool.or_eq_true, beq_iff_eq] using h))
theorem execGuestSubmission_enters {e : Nat} (h3 : s.guest.state ≠ 3) (h4 : s.guest.state ≠ 4) (he : s.guest.freeEntry = some e) :
    execGuestSubmission j s = .next ((s.jobEntered j e).laterOnce .jobDelivery) := by
  rw [Guest.freeEntry] at he
  simp only [execGuestSubmission, beq_eq_false_iff_ne.2 h3, beq_eq_false_iff_ne.2 h4, he, Bool.or_false, Bool.false_eq_true, if_false]
  rfl
theorem execJobDelivery_delivers {u : State} (hu : s.jobsFreed = u) (hst : u.guest.state = 2)
    (hj : u.guest.waiting.find? (fun j => j.prio == u.guest.topPrio) = some j)
    (hc : u.guest.held.length + (7 - u.guest.topPrio) < u.guest.credits) : execJobDelivery s =
      .next (if (u.jobDelivered j).guest.jobs.any (fun x => x.st == 1) then (u.jobDelivered j).laterOnce .jobDelivery else u.jobDelivered j) := by
  simp only [State.jobsFreed] at hu
  simp only [Guest.topPrio, Guest.waiting, Guest.held] at hj hc
  simp only [execJobDelivery, hu, hj, hst, Nat.not_le.2 hc, bne_self_eq_false, decide_false, Bool.or_false, Bool.false_eq_true, if_false]
  rfl
theorem execPreemptionAnswer_clears {level : Nat} (hst : s.guest.state = 2) (hp : s.guest.preempt = some level) :
    execPreemptionAnswer level s = .next (s.modGuest (fun g => { g with preempt := none })) :=
  congrArg _ (if_pos (by rw [hst, hp, beq_self_eq_true, beq_self_eq_true]; rfl))
end

/-! ## Completions (R481) -/

/-- A job of a number that the guest holds. -/
def Guest.heldJob (g : Guest) (job : Nat) : Option GuestJob := g.jobs.find? (fun j => j.st == 2 && jobId j == job)
/-- The fault logged for a job at an address (R484). -/
def Guest.faultOf (g : Guest) (job : Nat) (va : Word) : Option (Nat × GuestFault) :=
  g.faults.find? (fun f => f.2.job == job && f.2.va == va)

section
variable {s : State} {j : GuestJob} {job gst code : Nat} {va : Word} (hst : s.guest.state = 2) (hj : s.guest.heldJob job = some j)
include hst hj

theorem execGuestCompletion_cancelled (hg : gst < 3) (hc : j.cancelled = true) :
    execGuestCompletion job gst code va s = .next (s.jobDone j 1 0) := by
  rw [Guest.heldJob] at hj
  simp only [execGuestCompletion, hst, hj, Nat.not_le.2 hg, hc, bne_self_eq_false, Bool.false_eq_true, if_false, if_true]

variable (hc : j.cancelled = false)
include hc

theorem execGuestCompletion_succeeds (hf : j.faulted = false) : execGuestCompletion job 0 code va s = .next (s.jobDone j 0 0) := by
  rw [Guest.heldJob] at hj
  simp only [execGuestCompletion, hst, hj, hc, hf, bne_self_eq_false, beq_self_eq_true, Bool.false_and, Nat.not_le.2 (Nat.zero_lt_succ 2),
    Bool.false_eq_true, if_false, if_true]
theorem execGuestCompletion_fails (hf : j.faulted = false) :
    execGuestCompletion job 2 code va s = .next (s.jobDone j 21 (code % 65536)) := by
  rw [Guest.heldJob] at hj
  simp only [execGuestCompletion, hst, hj, hc, hf, bne_self_eq_false, beq_self_eq_true, Bool.false_and, Nat.not_le.2 (Nat.lt_succ_self 2),
    beq_eq_false_iff_ne.2 (Nat.succ_ne_zero 1), Bool.false_eq_true, if_false, if_true]
theorem execGuestCompletion_faulted {f : Nat × GuestFault} (hf : s.guest.faultOf job va = some f) :
    execGuestCompletion job 1 code va s = .next (s.jobDone j 2 (f.2.kind * 2 ^ 12 + f.1 * 2 ^ 6)) := by
  rw [Guest.heldJob] at hj
  rw [Guest.faultOf] at hf
  simp only [execGuestCompletion, hst, hj, hc, hf, bne_self_eq_false, Bool.and_false, Nat.not_le.2 (Nat.one_lt_succ_succ 1),
    beq_eq_false_iff_ne.2 Nat.one_ne_zero, beq_eq_false_iff_ne.2 (Nat.ne_of_lt Nat.one_lt_two), Bool.false_eq_true, if_false]
end

/-! ## Translations and invalidations (R484, R485) -/

/-- What a translation request of the guest asks for. -/
def guestNeed (write atomic : Bool) : Need := if atomic then .atomic else if write then .write else .read
/-- The grant of a page for a translation that succeeded: in the free index of lowest number (R484). -/
def Guest.grantOf (g : Guest) (e : TlbEntry) (asid : BitVec 16) (pa : Nat) (ns : Bool) : Grant :=
  let idx := ((List.range 4096).find? (fun k => !g.grants.any (fun x => x.idx == k))).getD 0
  Grant.mk idx e.page (fld e.pte 61 3) (pa / 2 ^ e.bits * 2 ^ e.bits) (bitOf e.pte 2) (bitOf e.pte 3) asid false ns
/-- The state in which a translation of a job has failed: the fault is logged and answered (R484). -/
def State.jobFaulted (s : State) (job kind : Nat) (j : GuestJob) (va : Word) : State :=
  ((s.guestLog (GuestFault.mk job kind j.asid va)).2.modGuest (fun g => { g with
    jobs := g.jobs.map (fun x => if x.seq == j.seq then { x with faulted := true } else x) })).out (.guestFault job kind va)
/-- The state in which a grant is free and no command waits for it any more (R485). -/
def State.grantFreed (s : State) (grant : Nat) : State :=
  s.modGuest (fun g => { g with
    grants := g.grants.filter (fun x => x.idx != grant), tlbops := g.tlbops.map (fun o => (o.1, o.2.erase grant)) })
/-- The state in which the commands that wait for no grant are done. -/
def State.tlbopsDone (s : State) : State :=
  (s.guest.tlbops.filter (fun o => o.2.isEmpty)).foldl (fun t o => t.later (.sawDone o.1 0))
    (s.modGuest (fun g => { g with tlbops := g.tlbops.filter (fun o => !o.2.isEmpty) }))

section
variable {s : State} {j : GuestJob} {job : Nat} {va : Word} {write atomic : Bool} {w : Walk} (hst : s.guest.state = 2)
  (hj : s.guest.heldJob job = some j) (hg : s.guest.grants.length < 4096)
  (hw : s.walk 3 j.asid va.toNat (guestNeed write atomic) = w)
include hst hj hg hw

theorem execTranslationRequest_grants {pa : Nat} {ns : Bool} {e : TlbEntry} (hr : w.res = .ok pa ns) (hl : w.leaf = some e)
    (hp : write = true → bitOf e.pte 2 = true) :
    let t := s.modSlab 3 (fun b => b.noteWalk j.asid w.read)
    let x := t.guest.grantOf e j.asid pa ns
    execTranslationRequest job va write atomic s =
      .next ((t.modGuest (fun y => { y with grants := y.grants ++ [x] })).out (.guestGrant job x)) := by
  have permitted : (write && !bitOf e.pte 2) = false := by
    rw [Bool.and_eq_false_imp]
    exact fun h => by rw [hp h, Bool.not_true]
  rw [Guest.heldJob] at hj
  rw [guestNeed] at hw
  simp only [execTranslationRequest, hst, hj, Nat.not_le.2 hg, hw, hr, hl, permitted, bne_self_eq_false, Bool.false_eq_true, if_false]
  rfl
theorem execTranslationRequest_fails (hr : w.res = .unpopulated) : execTranslationRequest job va write atomic s =
    .next ((s.modSlab 3 (fun b => b.noteWalk j.asid w.read)).jobFaulted job 2 j va) := by
  rw [Guest.heldJob] at hj
  rw [guestNeed] at hw
  simp only [execTranslationRequest, hst, hj, Nat.not_le.2 hg, hw, hr, bne_self_eq_false, Bool.false_eq_true, if_false]
  rfl
end

/-! ## Invalidations and poison (R485, R486) -/

section
variable {s : State} (hst : s.guest.state = 2)
include hst

theorem execInvalidationAnswer_frees {grant : Nat} (hg : s.guest.grants.any (fun x => x.idx == grant && x.inval) = true) :
    execInvalidationAnswer grant s = .next (s.grantFreed grant).tlbopsDone := by
  simp only [execInvalidationAnswer, hst, hg, bne_self_eq_false, Bool.not_true, Bool.or_false, Bool.false_eq_true, if_false]
  rfl
theorem execPoisonReport_poisons {line : Nat} (hp : paPopulated (lineOf line) = true) : execPoisonReport line s =
    .next ((s.homePut (homeOf (lineOf line)) (lineOf line) (s.homeLine (lineOf line)) true false false).machineCheck (homeOf (lineOf line)) 7) := by
  simp only [execPoisonReport, hst, hp, bne_self_eq_false, Bool.not_true, Bool.or_false, Bool.false_eq_true, if_false]
end

/-! ## Training and duties (R477, R487, R488) -/

/-- An identity is well formed (R477). -/
def identityLegal (credits modules watts : Nat) : Prop := 8 ≤ credits ∧ credits ≤ 64 ∧ 1 ≤ modules ∧ modules ≤ 4 ∧ watts ≤ 150
/-- The socket of a guest that has identified itself; at boot its record is set too (R477). -/
def Guest.identified (g : Guest) (booting : Bool) (vendor part credits modules watts : Nat) : Guest :=
  let h := { g with state := 2, modules := modules, credits := credits }
  if booting then
    { h with vendor := vendor % 65536, part := part % 65536, jobcred := credits, watts := watts, bmods := modules }
  else h

section
variable {s : State} {modules reason : Nat}

theorem execGuestIdentity_opens {vendor part credits watts : Nat} (hst : s.guest.state = 1) (hl : identityLegal credits modules watts) :
    execGuestIdentity vendor part credits modules watts s =
      .next ((s.modGuest (Guest.identified · s.booting vendor part credits modules watts)).bootReady.laterOnce .jobDelivery) := by
  obtain ⟨hc8, hc64, hm1, hm4, hw⟩ := hl
  simp only [execGuestIdentity, hst, Nat.not_lt.2 hc8, Nat.not_lt.2 hc64, Nat.not_lt.2 hm4, Nat.not_lt.2 hw,
    beq_eq_false_iff_ne.2 (Nat.ne_of_gt hm1), bne_self_eq_false, decide_false, Bool.or_false, Bool.false_eq_true, if_false]
  rfl
theorem execTrainingTimeout_fences (hst : s.guest.state = 1) : execTrainingTimeout modules s =
    .next (((s.modGuest (fun g => { g with bmods := if s.fe.boot == 2 then Nat.min 4 modules else g.bmods })).fence 9).bootReady) :=
  congrArg _ (if_pos (beq_iff_eq.2 hst))
theorem execDutyTimeout_fences (h0 : 0 < reason) (hst : s.guest.state = 2) (hd : s.dutyOpen reason = true) :
    execDutyTimeout reason s = .next (s.fence reason) := by
  simp only [execDutyTimeout, beq_eq_false_iff_ne.2 (Nat.ne_of_gt h0), hst, hd, beq_self_eq_true, Bool.and_self, Bool.false_eq_true, if_false,
    if_true]
end

/-- Settles O39: each step acts on the event it is, and where its conditions hold does what its rule says. -/
theorem guestStepsComplete : Obligations.GuestStepsComplete := by
  unfold Obligations.GuestStepsComplete
  intro s j job gst code grant level line reason watts va g
  refine ⟨?submission, ?delivery, ?preempted, ?completion, ?translation, ?invalidation, ?poison, ?identity, ?training, ?duty, ?power⟩
  case submission =>
    intro he
    rw [exec_guestSubmission_of_ev he]
    exact ⟨execGuestSubmission_fenced, fun e => execGuestSubmission_enters⟩
  case delivery => exact fun he hst hj hc => (exec_jobDelivery_of_ev he).trans (execJobDelivery_delivers rfl hst hj hc)
  case preempted => exact fun he hst hp => (exec_preemptionAnswer_of_ev he).trans (execPreemptionAnswer_clears hst hp)
  case completion =>
    intro he hst hj hg
    rw [exec_guestCompletion_of_ev he]
    refine ⟨execGuestCompletion_cancelled hst hj hg, fun hc hf h0 => ?_, fun hc hf h2 => ?_, fun f hc h1 hf => ?_⟩
    · exact h0 ▸ execGuestCompletion_succeeds hst hj hc hf
    · exact h2 ▸ execGuestCompletion_fails hst hj hc hf
    · exact h1 ▸ execGuestCompletion_faulted hst hj hc hf
  case translation =>
    intro write atomic w t he hst hj hg
    rw [exec_translationRequest_of_ev he]
    exact ⟨fun pa ns e => execTranslationRequest_grants hst hj hg rfl, execTranslationRequest_fails hst hj hg rfl⟩
  case invalidation => exact fun he hst hg => (exec_invalidationAnswer_of_ev he).trans (execInvalidationAnswer_frees hst hg)
  case poison => exact fun he hst hp => (exec_poisonReport_of_ev he).trans (execPoisonReport_poisons hst hp)
  case identity =>
    intro vendor part credits modules he hst hc8 hc64 hm1 hm4 hw
    rw [exec_guestIdentity_of_ev he, execGuestIdentity_opens hst ⟨hc8, hc64, hm1, hm4, hw⟩]
    refine ⟨fun hb => ?booting, fun hb => ?later⟩
    case booting =>
      rw [show s.booting = true from beq_iff_eq.2 hb]
      rfl
    case later =>
      rw [show s.booting = false from beq_eq_false_iff_ne.2 hb]
      rfl
  case training => exact fun modules he hst => (exec_trainingTimeout_of_ev he).trans (execTrainingTimeout_fences hst)
  case duty => exact fun he h0 hst hd => (exec_dutyTimeout_of_ev he).trans (execDutyTimeout_fences h0 hst hd)
  case power =>
    intro l high t he
    exact exec_powerReport_of_ev he

end Sys2Proof.Machine
end

section
/-! Steps of the coherence protocol at homes and agents (12_home_agents.md R398 to R415; 04_memory.md R122). -/

namespace Sys2Proof.Machine

/-! ## The steps act on the event they are -/

section
variable {s : State} {q : HomeReq} {ep ag line : Nat}

theorem exec_rds_of_ev (h : s.ev = some (.rds q)) : exec .rds s = execRds q s := by
  rw [show exec .rds s = runRds s from rfl, runRds, h]
theorem exec_rdo_of_ev (h : s.ev = some (.rdo q)) : exec .rdo s = execRdo q s := by
  rw [show exec .rdo s = runRdo s from rfl, runRdo, h]
theorem exec_upg_of_ev (h : s.ev = some (.upg q)) : exec .upg s = execUpg q s := by
  rw [show exec .upg s = runUpg s from rfl, runUpg, h]
theorem exec_wb_of_ev (h : s.ev = some (.wb q)) : exec .wb s = execWb q s := by
  rw [show exec .wb s = runWb s from rfl, runWb, h]
theorem exec_rangeClaim_of_ev (h : s.ev = some (.rangeClaim q)) : exec .rangeClaim s = execRangeClaim q s := by
  rw [show exec .rangeClaim s = runRangeClaim s from rfl, runRangeClaim, h]
theorem exec_claimwrite_of_ev (h : s.ev = some (.claimwrite q)) : exec .claimwrite s = execClaimwrite q s := by
  rw [show exec .claimwrite s = runClaimwrite s from rfl, runClaimwrite, h]
theorem exec_claimend_of_ev (h : s.ev = some (.claimend q)) : exec .claimend s = execClaimend q s := by
  rw [show exec .claimend s = runClaimend s from rfl, runClaimend, h]
theorem exec_cmo_of_ev (h : s.ev = some (.cmo q)) : exec .cmo s = execCmo q s := by
  rw [show exec .cmo s = runCmo s from rfl, runCmo, h]
theorem exec_transactionTaken_of_ev (h : s.ev = some (.transactionTaken ep)) : exec .transactionTaken s = execTransactionTaken ep s := by
  rw [show exec .transactionTaken s = runTransactionTaken s from rfl, runTransactionTaken, h]
theorem exec_homeRetry_of_ev (h : s.ev = some (.homeRetry q)) : exec .homeRetry s = execHomeRetry q s := by
  rw [show exec .homeRetry s = runHomeRetry s from rfl, runHomeRetry, h]
theorem exec_snoop_of_ev {ty : SnpType} {who : Nat × BitVec 16} (h : s.ev = some (.snoop ep ag line ty who)) :
    exec .snoop s = execSnoop ep ag line ty who s := by
  rw [show exec .snoop s = runSnoop s from rfl, runSnoop, h]
theorem exec_snoopApply_of_ev (h : s.ev = some (.snoopApply ep)) : exec .snoopApply s = execSnoopApply ep s := by
  rw [show exec .snoopApply s = runSnoopApply s from rfl, runSnoopApply, h]
theorem exec_snpresp_of_ev {held : LState} {data : Option (BitVec 1024)} {poison noalloc pin : Bool} {who : Nat × BitVec 16}
    (h : s.ev = some (.snpresp ep ag line held data poison noalloc pin who)) :
    exec .snpresp s = execSnpresp ep ag line held data poison noalloc pin s := by
  rw [show exec .snpresp s = runSnpresp s from rfl, runSnpresp, h]
theorem exec_coherentData_of_ev {g : LState} {data : BitVec 1024} {poison : Bool} (h : s.ev = some (.coherentData q g data poison)) :
    exec .coherentData s = .next (s.takeLine q g data poison) := by
  rw [show exec .coherentData s = runCoherentData s from rfl, runCoherentData, h]
  rfl
theorem exec_homeAck_of_ev {dirty : Bool} (h : s.ev = some (.homeAck q dirty)) : exec .homeAck s = .next (s.takeAck q dirty) := by
  rw [show exec .homeAck s = runHomeAck s from rfl, runHomeAck, h]
  rfl
theorem exec_lineDrop_of_ev (h : s.ev = some (.lineDrop ep line)) : exec .lineDrop s = execLineDrop ep line s := by
  rw [show exec .lineDrop s = runLineDrop s from rfl, runLineDrop, h]
theorem exec_pageWalkDone_of_ev {id : BitVec 16} (h : s.ev = some (.pageWalkDone ep id line)) :
    exec .pageWalkDone s = execPageWalkDone ep id line s := by
  rw [show exec .pageWalkDone s = runPageWalkDone s from rfl, runPageWalkDone, h]
end

/-! ## A request at its home (R403, R411, R417) -/

/-- A request as a trace ring has let it pass. -/
def logged (q : HomeReq) : HomeReq := { q with logged := true }

section
variable {s : State} {q : HomeReq} {port : Nat}

/-- A trace ring that is off logs nothing. -/
theorem State.recorded_off {ev : Event} {hdr : State → Event → Option Hdr} {perform : Event → State → State}
    (hm : (s.ring port).mode = 0) : s.recorded port ev hdr perform = perform ev s := by
  rw [State.recorded]
  split
  · rfl
  · exact if_pos (by rw [TraceRing.logs, hm]; rfl)
theorem State.ring_hasRoom (hl : (s.ring port).entries.length < 64) : (s.ring port).full = false := by
  rw [TraceRing.full, decide_eq_false (Nat.not_le.2 hl), Bool.false_and]
/-- The event of a request carries it, unless it is an arm, which is no request of an agent. -/
theorem reqOf_event (hk : ∀ a, q.kind ≠ .armReq a) : reqOf q.event = some q := by
  rw [HomeReq.event]
  split
  case h_9 a ha => exact absurd ha (hk a)
  all_goals rfl

/-- Nothing at a home makes a request wait: no claim holds it back, its line can be taken, and no earlier request waits for it (R403). -/
def Home.admits (h : Home) (q : HomeReq) : Prop :=
  claimHolds h q = false ∧ h.canTake q = true ∧ h.behind (h.buf ++ h.recallq) q = false
theorem State.homeAdmit_starts {start : State → State} (h : (s.home port).admits q) : s.homeAdmit port q start = start s := by
  obtain ⟨hclaim, htake, hbehind⟩ := h
  simp only [State.homeAdmit, Home.retries, Home.waits, hclaim, htake, hbehind, Bool.not_true, Bool.or_false, Bool.false_and,
    Bool.false_eq_true, if_false]

theorem State.homeArrive_starts (ha : q.agent ≠ 256) (hm : (s.ring q.home).mode = 0) (hl : (s.ring q.home).entries.length < 64)
    (hadmit : (s.home q.home).admits q) (hk : ∀ a, q.kind ≠ .armReq a) : s.homeArrive q = s.homeStart q.home (logged q) := by
  have taken : s.homeEnter q.home q = s.homeStart q.home (logged q) := by
    rw [State.homeEnter]
    split
    case isTrue hlog =>
      rw [logged, ← hlog]
    case isFalse =>
      rw [State.recorded_off hm, homePerform, reqOf_event hk]
      exact State.homeAdmit_starts hadmit
  simp only [State.homeArrive, beq_eq_false_iff_ne.2 ha, State.ring_hasRoom hl, Bool.false_and, Bool.false_eq_true, if_false]
  exact (State.homeAdmit_starts hadmit).trans taken
end

/-! ## TRANSACTION_TAKEN (R403) -/

/-- The state in which a home has taken the request at a place of its buffer, and what its recall queue has released has come in (R403). -/
def State.bufferTaken (s : State) (ep : Nat) (q : HomeReq) (i : Nat) : State :=
  let e := { s.home ep with buf := (s.home ep).buf.eraseIdx i }
  (s.setHome ep { e with recallq := e.released.2, buf := e.buf ++ e.released.1 }).homeEnter ep q

theorem execTransactionTaken_takes {s : State} {ep : Nat} {q : HomeReq} {i : Nat} (hq : (s.home ep).ready = some (q, i))
    (hr : (s.ring ep).full = false) : execTransactionTaken ep s = .next (if ((s.bufferTaken ep q i).home ep).ready.isSome then
      (s.bufferTaken ep q i).later (.transactionTaken ep) else s.bufferTaken ep q i) := by
  simp only [execTransactionTaken, hr, hq, Bool.false_eq_true, if_false]
  rfl

/-! ## Snoops (R402, R405) -/

/-- What an agent answers to a snoop: what it holds of the line, with its data where the snoop takes it (R402). -/
def DCache.answer (d : DCache) (home agent line : Nat) (ty : SnpType) (who : Nat × BitVec 16) : Event :=
  match d.held line with
  | none => .snpresp home agent line .i none false false false who
  | some l => .snpresp home agent line l.st (if (snoopStep l.st ty).2 then some l.data else none) l.poison l.noalloc l.pin who
/-- A data cache that has answered a snoop and is still to apply it: it no longer owns the line (R405). -/
def DCache.answered (d : DCache) (line : Nat) (ty : SnpType) : DCache :=
  { d with
    snoops := d.snoops ++ [(line, ty)]
    lines := (match d.lines.find line with | some l => d.lines.put line { l with st := .s } | none => d.lines) }

section
variable {s : State} {ep ag line : Nat} {ty : SnpType} {who : Nat × BitVec 16} (ha : ag ≠ 256) (hc : epClass (agentEpOf ag) = 1)
include ha hc

/-- A snoop of a memory core turns on whether it may be applied later. -/
theorem execSnoop_core : execSnoop ep ag line ty who s = .next (
    let c := agentEpOf ag
    let d := (s.core c).dcache
    if epSlab ep != epSlab c && (ty == .snpInv || ty == .backInv) then
      ((s.modCore c (fun x => { x with dcache := d.answered line ty })).send 1 c ep (d.answer ep ag line ty who)).later (.snoopApply c)
    else (s.modCore c (fun x => { x with dcache := d.snoop line ty })).send 1 c ep (d.answer ep ag line ty who)) := by
  simp only [execSnoop, beq_eq_false_iff_ne.2 ha, hc, bne_self_eq_false, Bool.false_and, Bool.false_eq_true, if_false]
  rfl
theorem execSnoop_applies (h : epSlab ep = epSlab (agentEpOf ag) ∨ (ty ≠ .snpInv ∧ ty ≠ .backInv)) : execSnoop ep ag line ty who s =
    .next ((s.modCore (agentEpOf ag) (fun x => { x with dcache := (s.core (agentEpOf ag)).dcache.snoop line ty })).send 1 (agentEpOf ag) ep
      ((s.core (agentEpOf ag)).dcache.answer ep ag line ty who)) := by
  refine (execSnoop_core ha hc).trans (congrArg _ (if_neg ?_))
  rw [Bool.not_eq_true, Bool.and_eq_false_iff, bne_eq_false_iff_eq, Bool.or_eq_false_iff, beq_eq_false_iff_ne, beq_eq_false_iff_ne]
  exact h
theorem execSnoop_defers (hs : epSlab ep ≠ epSlab (agentEpOf ag)) (ht : ty = .snpInv ∨ ty = .backInv) : execSnoop ep ag line ty who s =
    .next (((s.modCore (agentEpOf ag) (fun x => { x with dcache := (s.core (agentEpOf ag)).dcache.answered line ty })).send 1 (agentEpOf ag) ep
      ((s.core (agentEpOf ag)).dcache.answer ep ag line ty who)).later (.snoopApply (agentEpOf ag))) := by
  refine (execSnoop_core ha hc).trans (congrArg _ (if_pos ?_))
  rw [Bool.and_eq_true, bne_iff_ne, Bool.or_eq_true, beq_iff_eq, beq_iff_eq]
  exact ⟨hs, ht⟩
end

theorem execSnoopApply_applies {s : State} {ep line : Nat} {ty : SnpType} {l : List (Nat × SnpType)}
    (h : (s.core ep).dcache.snoops = (line, ty) :: l) : execSnoopApply ep s = .next (s.slabApply (epSlab ep) line) := by
  simp only [execSnoopApply, h]

/-! ## Snoop answers (R401) -/

/-- A transaction with the answer of an agent noted that brings no data (R401). -/
def Txn.noted (t : Txn) (ag line : Nat) (held : LState) : Txn :=
  { t with waiting := t.waiting.erase (ag, line), answers := t.answers ++ [(ag, held)] }
/-- The state in which a home has noted the answer in its transaction. -/
def State.answerNoted (s : State) (ep ag line : Nat) (held : LState) (t : Txn) : State :=
  s.setHome ep { s.home ep with txns := (s.home ep).txns.map (fun x => if x == t then t.noted ag line held else x) }

section
variable {s : State} {ep ag line : Nat} {held : LState} {t : Txn} (ha : ag ≠ 256)
  (ht : (s.home ep).txns.find? (fun t => t.waiting.contains (ag, line)) = some t) (hv : t.victim = none)
include ha ht hv

/-- An answer without data is noted, and the last one finishes the transaction. -/
theorem execSnpresp_noted : execSnpresp ep ag line held none false false false s = .next (
    let t' := t.noted ag line held
    let u := s.answerNoted ep ag line held t
    if !t'.waiting.isEmpty then u
    else ((u.modHome ep (fun h => { h with txns := h.txns.erase t' })).homeFinish ep t').homeWake ep) := by
  simp only [execSnpresp, State.answerNoted, Txn.noted, beq_eq_false_iff_ne.2 ha, ht, hv, Option.isSome_none, Bool.false_and,
    Bool.and_false, Bool.or_false, ite_self, Bool.false_eq_true, if_false]
theorem execSnpresp_waits (hw : (t.noted ag line held).waiting ≠ []) :
    execSnpresp ep ag line held none false false false s = .next (s.answerNoted ep ag line held t) :=
  (execSnpresp_noted ha ht hv).trans (congrArg _ (if_pos (by rw [List.isEmpty_eq_false_iff.2 hw]; rfl)))
theorem execSnpresp_finishes (hw : (t.noted ag line held).waiting = []) : execSnpresp ep ag line held none false false false s =
    .next ((((s.answerNoted ep ag line held t).modHome ep (fun h => { h with txns := h.txns.erase (t.noted ag line held) })).homeFinish ep
      (t.noted ag line held)).homeWake ep) :=
  (execSnpresp_noted ha ht hv).trans (congrArg _ (if_neg (by rw [hw]; exact Bool.false_ne_true)))
end

/-! ## Grants and acknowledgements at a core (R400, R401) -/

section
variable {s : State} {q : HomeReq} (ha : q.agent ≠ 256) (hh : hostlike q = false) (hc : epClass q.src ≠ 2)
include ha hh hc

theorem State.takeLine_fills {g : LState} {data : BitVec 1024} {poison : Bool} :
    s.takeLine q g data poison = s.fillLine q g data poison := by
  simp only [State.takeLine, beq_eq_false_iff_ne.2 ha, hh, beq_eq_false_iff_ne.2 hc, Bool.false_eq_true, if_false]
/-- An acknowledgement at a core turns on the kind of its request. -/
theorem State.takeAck_core {dirty : Bool} : s.takeAck q dirty = (match q.kind with
    | .upg => s.upgraded q.src q.line
    | .wb =>
      if q.once then s.handleGiven q
      else (s.modCore q.src (fun c => { c with dcache := { c.dcache with wbuf := c.dcache.wbuf.del q.line } })).askPend q.src q.line
    | .cmo _ => s.cmoAck q.src q.tag q.line dirty
    | _ => s) := by
  simp only [State.takeAck, beq_eq_false_iff_ne.2 ha, hh, beq_eq_false_iff_ne.2 hc, Bool.false_eq_true, if_false] <;> rfl
end

/-! ## LINE_DROP (R398) -/

theorem execLineDrop_drops {s : State} {ep line : Nat} {l : CLine} (hl : (s.core ep).dcache.lines.find line = some l)
    (hst : l.st = .e ∨ l.st = .s) (hp : (s.core ep).dcache.pend.any (fun p => lineOf p.1.addr == line) = false) :
    execLineDrop ep line s =
      .next (s.modCore ep (fun c => { c with dcache := { c.dcache with lines := c.dcache.lines.del line } })) := by
  have clean : (l.st == .e || l.st == .s) = true := by
    rw [Bool.or_eq_true, beq_iff_eq, beq_iff_eq]
    exact hst
  simp only [execLineDrop, hl, clean, hp, Bool.not_false, Bool.and_self, if_true]

/-- Settles O33: each step acts on the event it is, and where its conditions hold does what its rule says. -/
theorem coherenceStepsComplete : Obligations.CoherenceStepsComplete := by
  unfold Obligations.CoherenceStepsComplete
  intro s q ep ag line h
  refine ⟨?arrival, ?taken, exec_homeRetry_of_ev, ?snoop, ?apply, ?answer, ?data, ?ack, ?drop, fun id => exec_pageWalkDone_of_ev⟩
  case arrival =>
    intro ha hm hl hclaim htake hbehind
    have starts {k : HomeKind} (hk : q.kind = k) (harm : ∀ a, k ≠ .armReq a) : s.homeArrive q = s.homeStart q.home (logged q) :=
      State.homeArrive_starts ha hm hl ⟨hclaim, htake, hbehind⟩ (hk ▸ harm)
    exact ⟨fun he hk => (exec_rds_of_ev he).trans (congrArg _ (starts hk fun _ => HomeKind.noConfusion)),
      fun he hk => (exec_rdo_of_ev he).trans (congrArg _ (starts hk fun _ => HomeKind.noConfusion)),
      fun he hk => (exec_upg_of_ev he).trans (congrArg _ (starts hk fun _ => HomeKind.noConfusion)),
      fun he hk => (exec_wb_of_ev he).trans (congrArg _ (starts hk fun _ => HomeKind.noConfusion)),
      fun he hk => (exec_rangeClaim_of_ev he).trans (congrArg _ (starts hk fun _ => HomeKind.noConfusion)),
      fun he hk => (exec_claimwrite_of_ev he).trans (congrArg _ (starts hk fun _ => HomeKind.noConfusion)),
      fun he hk => (exec_claimend_of_ev he).trans (congrArg _ (starts hk fun _ => HomeKind.noConfusion)),
      fun k he hk => (exec_cmo_of_ev he).trans (congrArg _ (starts hk fun _ => HomeKind.noConfusion))⟩
  case taken => exact fun i he hq hr => (exec_transactionTaken_of_ev he).trans (execTransactionTaken_takes hq hr)
  case snoop =>
    intro ty who c d answer he ha hc
    rw [exec_snoop_of_ev he]
    exact ⟨execSnoop_applies ha hc, execSnoop_defers ha hc⟩
  case apply => exact fun ty l he hs => (exec_snoopApply_of_ev he).trans (execSnoopApply_applies hs)
  case answer =>
    intro held t who he ha ht hv
    rw [exec_snpresp_of_ev he]
    exact ⟨execSnpresp_waits ha ht hv, execSnpresp_finishes ha ht hv⟩
  case data => exact fun g data poison he ha hh hc => (exec_coherentData_of_ev he).trans (congrArg _ (State.takeLine_fills ha hh hc))
  case ack =>
    intro dirty he ha hh hc
    rw [exec_homeAck_of_ev he, State.takeAck_core ha hh hc]
    refine ⟨fun hk => ?_, fun hk ho => ?_, fun hk ho => ?_, fun k hk => ?_⟩
    · rw [hk]
    · rw [hk]
      exact congrArg _ (if_pos ho)
    · rw [hk]
      exact congrArg _ (if_neg (ne_true_of_eq_false ho))
    · rw [hk]
  case drop => exact fun l he hl hst hp => (exec_lineDrop_of_ev he).trans (execLineDrop_drops hl hst hp)

end Sys2Proof.Machine
end

section
/-! Steps of doorbells, queues, completions and device memory (16_host_port.md R496 to R509). -/

namespace Sys2Proof.Machine

/-! ## The steps act on the event they are -/

section
variable {s : State} {q packet n addr : Nat} {v : BitVec 32}

theorem exec_tailDoorbell_of_ev (h : s.ev = some (.tailDoorbell q v)) : exec .tailDoorbell s = execTailDoorbell q v s := by
  rw [show exec .tailDoorbell s = runTailDoorbell s from rfl, runTailDoorbell, h]
theorem exec_cheadDoorbell_of_ev (h : s.ev = some (.cheadDoorbell q v)) : exec .cheadDoorbell s = execCheadDoorbell q v s := by
  rw [show exec .cheadDoorbell s = runCheadDoorbell s from rfl, runCheadDoorbell, h]
theorem exec_doorbellEvent_of_ev {c : Bool} (h : s.ev = some (.doorbellEvent q c v)) :
    exec .doorbellEvent s = execDoorbellEvent q c v s := by
  rw [show exec .doorbellEvent s = runDoorbellEvent s from rfl, runDoorbellEvent, h]
theorem exec_queueControlEvent_of_ev {off : Nat} {w : Word} (h : s.ev = some (.queueControlEvent q off w)) :
    exec .queueControlEvent s = execQueueControlEvent q off w s := by
  rw [show exec .queueControlEvent s = runQueueControlEvent s from rfl, runQueueControlEvent, h]
theorem exec_queueEnable_of_ev (h : s.ev = some (.queueEnable q)) : exec .queueEnable s = execQueueEnable q s := by
  rw [show exec .queueEnable s = runQueueEnable s from rfl, runQueueEnable, h]
theorem exec_queueDestroy_of_ev (h : s.ev = some (.queueDestroy q)) : exec .queueDestroy s = execQueueDestroy q s := by
  rw [show exec .queueDestroy s = runQueueDestroy s from rfl, runQueueDestroy, h]
theorem exec_queueRead_of_ev (h : s.ev = some (.queueRead q)) : exec .queueRead s = execQueueRead q s := by
  rw [show exec .queueRead s = runQueueRead s from rfl, runQueueRead, h]
theorem exec_queueRead_of_data {w : List Word} {bad : Bool} (h : s.ev = some (.queueData q n w bad)) :
    exec .queueRead s = .next (s.queueTake q n w) := by
  rw [show exec .queueRead s = runQueueRead s from rfl, runQueueRead, h]
theorem exec_completionWrite_of_ev {status detail : Nat} (h : s.ev = some (.completionWrite q packet status detail)) :
    exec .completionWrite s = execCompletionWrite q packet status detail s := by
  rw [show exec .completionWrite s = runCompletionWrite s from rfl, runCompletionWrite, h]
theorem exec_completionWrite_of_ack (h : s.ev = some (.completionAck q)) : exec .completionWrite s = .next (s.completionDone q) := by
  rw [show exec .completionWrite s = runCompletionWrite s from rfl, runCompletionWrite, h]
theorem exec_registerStateUpdate_of_ev (h : s.ev = some (.registerStateUpdate q)) :
    exec .registerStateUpdate s = execRegisterStateUpdate q s := by
  rw [show exec .registerStateUpdate s = runRegisterStateUpdate s from rfl, runRegisterStateUpdate, h]
theorem exec_bar2Read_of_ev (h : s.ev = some (.bar2Read addr n)) : exec .bar2Read s = execBar2Read addr n s := by
  rw [show exec .bar2Read s = runBar2Read s from rfl, runBar2Read, h]
theorem exec_bar2Write_of_ev {bytes : List Byte} (h : s.ev = some (.bar2Write addr bytes)) :
    exec .bar2Write s = execBar2Write addr bytes s := by
  rw [show exec .bar2Write s = runBar2Write s from rfl, runBar2Write, h]
theorem exec_quantumExpiry_of_ev (h : s.ev = some .quantumExpiry) : exec .quantumExpiry s = execQuantumExpiry s := by
  rw [show exec .quantumExpiry s = runQuantumExpiry s from rfl, runQuantumExpiry, h]
theorem exec_packetPrefetch_of_ev (h : s.ev = some (.packetPrefetch q n)) : exec .packetPrefetch s = execPacketPrefetch q n s := by
  rw [show exec .packetPrefetch s = runPacketPrefetch s from rfl, runPacketPrefetch, h]
end

/-! ## Doorbells (R503) -/

/-- A TAIL that a queue takes: it is not DISABLED, and the packets announced fit its ring (R503). -/
def Queue.tailLegal (x : Queue) (v : Nat) : Prop := x.vState ≠ 0 ∧ ahead v x.written ≤ 2 ^ x.log2 - 1
/-- A CHEAD that a queue takes: it is not DISABLED, and the completions consumed have been written (R503). -/
def Queue.cheadLegal (x : Queue) (v : Nat) : Prop := x.vState ≠ 0 ∧ ahead v x.chead ≤ ahead x.written x.chead
/-- The state in which a doorbell is ignored and counted (R503). -/
def State.doorbellIgnored (s : State) : State := s.modFe (fun f => { f with dberr := (f.dberr + 1) % 2 ^ 32 })

section
variable {s : State} {q v : Nat}

theorem Queue.tailLegal_iff {x : Queue} : x.tailLegal v ↔ ¬(x.vState == 0 || decide (2 ^ x.log2 ≤ ahead v x.written)) = true := by
  have := Nat.two_pow_pos x.log2
  rw [Queue.tailLegal, Bool.or_eq_true, beq_iff_eq, decide_eq_true_eq, not_or]
  omega
theorem Queue.cheadLegal_iff {x : Queue} :
    x.cheadLegal v ↔ ¬(x.vState == 0 || decide (ahead x.written x.chead < ahead v x.chead)) = true := by
  rw [Queue.cheadLegal, Bool.or_eq_true, beq_iff_eq, decide_eq_true_eq, not_or, Nat.not_lt]
theorem State.tailWrite_sets (h : (s.queue q).tailLegal v) : s.tailWrite q v =
    (s.modQueue q (fun x => { x with tail := v })).send 0 hostEp (s.queueCore (s.queue q).vSlot) (.doorbellEvent q false (BitVec.ofNat 32 v)) :=
  if_neg (Queue.tailLegal_iff.1 h)
theorem State.tailWrite_ignored (h : ¬(s.queue q).tailLegal v) : s.tailWrite q v = s.doorbellIgnored :=
  if_pos (not_not.1 (mt Queue.tailLegal_iff.2 h))
theorem State.cheadWrite_sets (h : (s.queue q).cheadLegal v) : s.cheadWrite q v =
    (s.modQueue q (fun x => { x with chead := v })).send 0 hostEp (s.queueCore (s.queue q).vSlot) (.doorbellEvent q true (BitVec.ofNat 32 v)) :=
  if_neg (Queue.cheadLegal_iff.1 h)
theorem State.cheadWrite_ignored (h : ¬(s.queue q).cheadLegal v) : s.cheadWrite q v = s.doorbellIgnored :=
  if_pos (not_not.1 (mt Queue.cheadLegal_iff.2 h))
end

/-! ## Queue control and packet reads (R500, R505, R506, R509) -/

/-- A packet of a queue may be read: the queue is MAPPED, EN and not about to lose its slot, and none of its packets is in dispatch (R506). -/
def Queue.readable (x : Queue) : Prop := (x.st = 3 ∧ x.cur = none) ∧ x.undispatched ≠ 0 ∧ x.en = true ∧ x.evict = false
/-- The state in which the next packet of a queue is in dispatch (R506). -/
def State.dispatching (s : State) (q : Nat) (w : List Word) : State :=
  s.modQueue q (fun x => { x with
    cur := some ((s.queue q).next, w), next := (x.next + 1) % 2 ^ 32, inflight := x.inflight ++ [((s.queue q).next, w.getD 0 0)] })

section
variable {s : State} {q : Nat}

/-- A queue changed by functions that agree on it. -/
theorem State.modQueue_congr {f g : Queue → Queue} (h : f (s.queue q) = g (s.queue q)) : s.modQueue q f = s.modQueue q g := by
  rw [State.queue] at h
  simp only [State.modQueue, State.modFe, h]
/-- EN is set where the queue holds it already or reads as DISABLED (R505). -/
theorem Queue.enAfter_true {x : Queue} (h : x.en = true ∨ x.vState = 0) : x.enAfter true = true := by
  simpa only [Queue.enAfter, Bool.true_and, Bool.or_eq_true, beq_iff_eq] using h
theorem State.queueEnabled_idles (hb : s.fe.boot = 3) (hst : (s.queue q).st = 0) : s.queueEnabled q =
    (s.modQueue q (fun x => { x with
      st := 1, done := 0, next := 0, tail := 0, chead := 0, written := 0, inflight := [], cur := none, waits := none, evict := false })).feAsk q
      (.registerStateUpdate q) := by
  simp only [State.queueEnabled, hb, hst, bne_self_eq_false, Bool.or_false, Bool.false_eq_true, if_false]
theorem execQueueEnable_sets (he : (s.queue q).en = true ∨ (s.queue q).vState = 0) :
    execQueueEnable q s = .next ((s.modQueue q (fun x => { x with en := true })).queueEnabled q) := by
  have same := State.modQueue_congr (s := s) (q := q) (f := fun x => { x with en := x.enAfter true }) (g := fun x => { x with en := true })
    (congrArg (fun e => { s.queue q with en := e }) (Queue.enAfter_true he))
  rw [execQueueEnable, same]

theorem execQueueRead_asks (hx : (s.queue q).readable) (hr : s.reading q = false) : execQueueRead q s =
    .next (s.onceBegin (s.queueCore (s.queue q).slot) (.packet q (s.queue q).next)
      (onceReads hostEp 0 ((s.queue q).packetAt (s.queue q).next) 64 false false)) := by
  obtain ⟨⟨hst, hcur⟩, hu, hen, hev⟩ := hx
  simp only [execQueueRead, hst, hcur, hr, beq_eq_false_iff_ne.2 hu, hen, hev, bne_self_eq_false, Option.isSome_none, Bool.or_false,
    Bool.not_true, Bool.false_eq_true, if_false]

section
variable {w : List Word} (hst : (s.queue q).st = 3) (hcur : (s.queue q).cur = none)
include hst hcur

theorem State.queueTake_held (hh : s.pkHeld (s.queue q) w = true) (hen : (s.queue q).en = true) (hev : (s.queue q).evict = false) :
    s.queueTake q (s.queue q).next w = s := by
  simp only [State.queueTake, hst, hcur, hh, hen, hev, bne_self_eq_false, Option.isSome_none, beq_eq_false_iff_ne.2 (Nat.succ_ne_self 3).symm,
    Bool.false_and, Bool.or_false, Bool.not_true, Bool.false_eq_true, if_false, if_true]
theorem State.queueTake_dispatches {e : Event} (hh : s.pkHeld (s.queue q) w = false) (he : pkEvent q (pkKind (w.getD 0 0)) = some e) :
    s.queueTake q (s.queue q).next w = (s.dispatching q w).later e := by
  simp only [State.queueTake, hst, hcur, hh, he, bne_self_eq_false, Option.isSome_none, Bool.false_and, Bool.or_false, Bool.false_eq_true,
    if_false]
  rfl
theorem State.queueTake_refuses (hh : s.pkHeld (s.queue q) w = false) (he : pkEvent q (pkKind (w.getD 0 0)) = none) :
    s.queueTake q (s.queue q).next w = ((((s.dispatching q w).modQueue q (fun x => { x with cur := none })).hostDone
      (some (q, (s.queue q).next)) 32 0).queueStep q) := by
  simp only [State.queueTake, hst, hcur, hh, he, bne_self_eq_false, Option.isSome_none, Bool.false_and, Bool.or_false, Bool.false_eq_true,
    if_false]
  rfl
end
end

/-! ## Completions and the answers of homes (R496, R504, R509) -/

section
variable {s : State} {q packet : Nat} {w0 : Word}

theorem execCompletionWrite_writes {status detail : Nat} (hp : (s.queue q).inflight.find? (fun p => p.1 == packet) = some (packet, w0)) :
    execCompletionWrite q packet status detail s = .next (s.onceBegin s.fe.fecore (.completion q packet)
      (onceWrites hostEp 0 (s.completionEntry q packet w0 status detail).1 (s.completionEntry q packet w0 status detail).2 false false)) := by
  simp only [execCompletionWrite, hp]

/-- ONCE accesses with an answer taken in. -/
def onceAnswered (o : OnceOp) (b : List Byte) (bad : Bool) : OnceOp := { o with bytes := o.bytes ++ b, bad := o.bad || bad }
/-- The state in which ONCE accesses have all been answered. -/
def State.onceOver (s : State) (o : OnceOp) : State := { s with once := s.once.filter (fun x => x.id != o.id) }
/-- The state in which of some ONCE accesses those of a list are still to be made. -/
def State.onceLeft (s : State) (o : OnceOp) (l : List HomeReq) : State :=
  { s with once := s.once.map (fun x => if x.id == o.id then { o with todo := l } else x) }

variable {r : HomeReq} {o : OnceOp} {b : List Byte} {bad : Bool} (ho : s.once.find? (fun o => o.id == r.tag) = some o)

/-- An answer that brings nothing, such as that of a write, leaves what was read. -/
theorem onceAnswered_nothing (o : OnceOp) : onceAnswered o [] false = o := by
  rw [onceAnswered, List.append_nil, Bool.or_false]
include ho

theorem State.onceAnswer_more {r' : HomeReq} {l : List HomeReq} (ht : o.todo = r' :: l) :
    s.onceAnswer r b bad = (s.onceLeft (onceAnswered o b bad) l).askHome r' := by
  simp only [State.onceAnswer, State.onceNext, ho, ht]
  rfl
theorem State.onceAnswer_last (ht : o.todo = []) : s.onceAnswer r b bad = (s.onceOver o).onceDone (onceAnswered o b bad) := by
  simp only [State.onceAnswer, State.onceNext, ho, ht]
  rfl

variable (ha : r.agent ≠ 256) (hh : hostlike r = true)
omit ho
include ha hh

theorem State.takeAck_hostlike {dirty : Bool} : s.takeAck r dirty = s.onceAnswer r [] false := by
  simp only [State.takeAck, beq_eq_false_iff_ne.2 ha, hh, Bool.false_eq_true, if_false, if_true]
theorem State.takeLine_hostlike {g : LState} {d : BitVec 1024} {poison : Bool} : s.takeLine r g d poison =
    (s.slabApply (routerOf r.src / 128) r.line).onceAnswer r (lineBytes d r.mask.toNat r.limit) poison := by
  simp only [State.takeLine, beq_eq_false_iff_ne.2 ha, hh, Bool.false_eq_true, if_false, if_true]
end

/-! ## Device memory (R496) -/

/-- The state in which an access to memory that is not populated is counted. -/
def State.bar2Refused (s : State) : State := s.modFe (fun f => { f with bar2err := (f.bar2err + 1) % 2 ^ 32 })

section
variable {s : State} {addr n : Nat}

theorem execBar2Read_asks (hp : rangePopulated addr n = true) (hn : n ≠ 0) :
    execBar2Read addr n s = .next (s.onceBegin hostBus (.hostRead addr) (onceReads hostEp 0 addr n false false)) := by
  simp only [execBar2Read, hp, beq_eq_false_iff_ne.2 hn, Bool.not_true, Bool.false_eq_true, if_false]
theorem execBar2Read_empty (hp : rangePopulated addr n = true) (hn : n = 0) : execBar2Read addr n s = .next (s.out (.bar2Data addr [])) := by
  simp only [execBar2Read, hp, beq_iff_eq.2 hn, Bool.not_true, Bool.false_eq_true, if_false, if_true]
theorem execBar2Read_refused (hp : rangePopulated addr n = false) :
    execBar2Read addr n s = .next (s.bar2Refused.out (.bar2Data addr (List.replicate n 0xFF))) := by
  simp only [execBar2Read, hp, Bool.not_false, if_true]
  rfl
theorem execBar2Write_asks {bytes : List Byte} (hp : rangePopulated addr bytes.length = true) :
    execBar2Write addr bytes s = .next (s.onceBegin hostBus .hostWrite (onceWrites hostEp 0 addr bytes false false)) := by
  simp only [execBar2Write, hp, Bool.not_true, Bool.false_eq_true, if_false]
theorem execBar2Write_refused {bytes : List Byte} (hp : rangePopulated addr bytes.length = false) :
    execBar2Write addr bytes s = .next s.bar2Refused := by
  simp only [execBar2Write, hp, Bool.not_false, if_true]
  rfl
end

/-! ## PACKET_PREFETCH (R508) -/

/-- Packet `k` after the next of a queue may be prefetched: the queue is MAPPED, the packet is announced, well formed, of a valid ASID and
readable, and R506 holds the next one. -/
def State.prefetchable (s : State) (q k : Nat) : Prop :=
  let x := s.queue q
  let pa := x.packetAt (x.next + k)
  (x.st = 3 ∧ k < 2 ∧ k < x.undispatched) ∧ (pkOk (s.paWords pa 8) = true ∧ s.asidOk x.asid = true ∧ s.peekPoison (lineOf pa) = false) ∧
    s.pkHeld x (s.paWords (x.packetAt x.next) 8) = true

section
variable {s : State} {q k : Nat} {w : List Word} (hp : s.prefetchable q k)
  (hw : s.paWords ((s.queue q).packetAt ((s.queue q).next + k)) 8 = w)
include hp hw

/-- The code and the descriptor of a root task are brought near. -/
theorem execPacketPrefetch_root (hk : pkKind (w.getD 0 0) = 1) (ht : s.rootTarget (fld (w.getD 2 0) 48 14) = true) :
    execPacketPrefetch q k s = .next ((s.fillCode (fld (w.getD 2 0) 48 14) (s.queue q).asid (kdescOf (w.getD 1 0))).2.readStart
      (fld (w.getD 2 0) 48 14) (s.queue q).asid (w.getD 1 0)).2 := by
  obtain ⟨⟨hst, h2, hu⟩, ⟨hok, ha, hbad⟩, hheld⟩ := hp
  rw [hw] at hok
  simp only [execPacketPrefetch, hw, hst, Nat.not_le.2 h2, Nat.not_le.2 hu, hok, ha, hbad, hheld, hk, ht, bne_self_eq_false, decide_false,
    Bool.or_false, Bool.not_true, Bool.false_eq_true, if_false, if_true]
/-- A packet of no other kind than a launch or a copy has nothing to be brought near. -/
theorem execPacketPrefetch_nothing (hk : 4 ≤ pkKind (w.getD 0 0)) : execPacketPrefetch q k s = .next s := by
  obtain ⟨⟨hst, h2, hu⟩, ⟨hok, ha, hbad⟩, hheld⟩ := hp
  rw [hw] at hok
  simp only [execPacketPrefetch, hw, hst, Nat.not_le.2 h2, Nat.not_le.2 hu, hok, ha, hbad, hheld, bne_self_eq_false, decide_false,
    Bool.or_false, Bool.not_true, Bool.false_eq_true, if_false]
  split
  case h_1 h => omega
  case h_2 h => omega
  case h_3 h => omega
  case h_4 => rfl
end

/-- Settles O40: each step acts on the event it is, and where its conditions hold does what its rule says. -/
theorem doorbellsAndQueuesComplete : Obligations.DoorbellsAndQueuesComplete := by
  unfold Obligations.DoorbellsAndQueuesComplete
  intro s q packet status detail addr n off v c w0 w bytes x legalTail legalHead counted
  refine ⟨?tail, ?chead, exec_doorbellEvent_of_ev, exec_queueControlEvent_of_ev, ?enable, exec_queueDestroy_of_ev, ?read, ?data, ?completion,
    ?ack, ?line, exec_completionWrite_of_ack, exec_registerStateUpdate_of_ev, ?bar2Read, ?bar2Write, exec_quantumExpiry_of_ev, ?prefetch⟩
  case tail =>
    intro he
    rw [exec_tailDoorbell_of_ev he]
    exact ⟨fun h => congrArg _ (State.tailWrite_sets h), fun h => congrArg _ (State.tailWrite_ignored h)⟩
  case chead =>
    intro he
    rw [exec_cheadDoorbell_of_ev he]
    exact ⟨fun h => congrArg _ (State.cheadWrite_sets h), fun h => congrArg _ (State.cheadWrite_ignored h)⟩
  case enable =>
    intro t he hen hb hst
    exact (exec_queueEnable_of_ev he).trans ((execQueueEnable_sets hen).trans (congrArg _ (State.queueEnabled_idles hb hst)))
  case read =>
    intro he hst hcur hr hu hen hev
    exact (exec_queueRead_of_ev he).trans (execQueueRead_asks ⟨⟨hst, hcur⟩, hu, hen, hev⟩ hr)
  case data =>
    intro w bad he hst hcur t
    rw [exec_queueRead_of_data he]
    exact ⟨fun hh hen hev => congrArg _ (State.queueTake_held hst hcur hh hen hev),
      fun e hh hk => congrArg _ (State.queueTake_dispatches hst hcur hh hk), fun hh hk => congrArg _ (State.queueTake_refuses hst hcur hh hk)⟩
  case completion =>
    intro gone st dt entry he hp
    exact (exec_completionWrite_of_ev he).trans (execCompletionWrite_writes hp)
  case ack =>
    intro r o dirty he ha hh ho u
    have last (ht : o.todo = []) : exec .homeAck s = .next (u.onceDone o) := by
      rw [exec_homeAck_of_ev he, State.takeAck_hostlike ha hh, State.onceAnswer_last ho ht, onceAnswered_nothing]
      rfl
    refine ⟨fun r' l ht => ?_, fun ht hu => ?_, fun ht hu => ?_, fun ht hu => ?_⟩
    · rw [exec_homeAck_of_ev he, State.takeAck_hostlike ha hh, State.onceAnswer_more ho ht, onceAnswered_nothing]
      rfl
    · rw [last ht, State.onceDone, hu]
    · rw [last ht, State.onceDone, hu]
    · rw [last ht, State.onceDone, hu]
      rfl
  case line =>
    intro r o d he ha hh ho ht hbad t u got honce
    have last : exec .coherentData s = .next (u.onceDone { o with bytes := got }) := by
      rw [exec_coherentData_of_ev he, State.takeLine_hostlike ha hh, State.onceAnswer_last (s := s.slabApply _ _) ho ht, onceAnswered,
        Bool.or_false]
      rfl
    refine ⟨fun hu => ?_, fun hu => ?_⟩
    · rw [last, State.onceDone, hu]
    · rw [last, State.onceDone, hu]
      change Host.Outcome.next (u.packetRead q packet o.owner got o.bad) = _
      rw [hbad]
      rfl
  case bar2Read =>
    intro he
    rw [exec_bar2Read_of_ev he]
    exact ⟨execBar2Read_asks, execBar2Read_empty, execBar2Read_refused⟩
  case bar2Write =>
    intro he
    rw [exec_bar2Write_of_ev he]
    exact ⟨execBar2Write_asks, execBar2Write_refused⟩
  case prefetch =>
    intro place w he hst h2 hu hok ha hbad hheld
    rw [exec_packetPrefetch_of_ev he]
    have may : s.prefetchable q off := ⟨⟨hst, h2, hu⟩, ⟨hok, ha, hbad⟩, hheld⟩
    exact ⟨execPacketPrefetch_root may rfl, execPacketPrefetch_nothing may rfl⟩

end Sys2Proof.Machine
end

section
/-! Each kind of packet in dispatch handed over (16_host_port.md R502 to R506). -/

namespace Sys2Proof.Machine

/-! ## The steps act on the event they are -/

section
variable {s : State} {q : Nat}

theorem exec_launchRoot_of_ev (h : s.ev = some (.launchRoot q)) : exec .launchRoot s = execLaunchRoot q s := by
  rw [show exec .launchRoot s = runLaunchRoot s from rfl, runLaunchRoot, h]
theorem exec_launchGraph_of_ev (h : s.ev = some (.launchGraph q)) : exec .launchGraph s = execLaunchGraph q s := by
  rw [show exec .launchGraph s = runLaunchGraph s from rfl, runLaunchGraph, h]
theorem exec_queueCopy_of_ev (h : s.ev = some (.queueCopy q)) : exec .queueCopy s = execQueueCopy q s := by
  rw [show exec .queueCopy s = runQueueCopy s from rfl, runQueueCopy, h]
theorem exec_signal_of_ev (h : s.ev = some (.signal q)) : exec .signal s = execSignal q s := by
  rw [show exec .signal s = runSignal s from rfl, runSignal, h]
theorem exec_waitQueue_of_ev (h : s.ev = some (.waitQueue q)) : exec .waitQueue s = execWaitQueue q s := by
  rw [show exec .waitQueue s = runWaitQueue s from rfl, runWaitQueue, h]
theorem exec_bedrockOpen_of_ev (h : s.ev = some (.bedrockOpen q)) : exec .bedrockOpen s = execBedrockOpen q s := by
  rw [show exec .bedrockOpen s = runBedrockOpen s from rfl, runBedrockOpen, h]
theorem exec_bedrockSeal_of_ev (h : s.ev = some (.bedrockSeal q)) : exec .bedrockSeal s = execBedrockSeal q s := by
  rw [show exec .bedrockSeal s = runBedrockSeal s from rfl, runBedrockSeal, h]
theorem exec_swapAsid_of_ev (h : s.ev = some (.swapAsid q)) : exec .swapAsid s = execSwapAsid q s := by
  rw [show exec .swapAsid s = runSwapAsid s from rfl, runSwapAsid, h]
end

/-! ## What refuses a packet of any kind (R502, R504) -/

/-- The kinds of packet, each with the instruction and the event that hand it over (R502). -/
def packetKinds (q : Nat) : List (Nat × Instr × Event) :=
  [(1, .launchRoot, .launchRoot q), (2, .launchGraph, .launchGraph q), (3, .queueCopy, .queueCopy q), (4, .signal, .signal q),
    (5, .waitQueue, .waitQueue q), (6, .bedrockOpen, .bedrockOpen q), (7, .bedrockSeal, .bedrockSeal q), (8, .swapAsid, .swapAsid q)]

section
variable {s : State} {q n : Nat} {w : List Word}

/-- Every kind is handed over by the one rule, with an effect of its own. -/
theorem exec_packetKind {p : Nat × Instr × Event} (hp : p ∈ packetKinds q) (he : s.ev = some p.2.2) :
    ∃ go, exec p.2.1 s = .next (s.handOver q p.1 go) := by
  simp only [packetKinds, List.mem_cons, List.not_mem_nil, or_false] at hp
  rcases hp with rfl | rfl | rfl | rfl | rfl | rfl | rfl | rfl
  · exact ⟨_, exec_launchRoot_of_ev he⟩
  · exact ⟨_, exec_launchGraph_of_ev he⟩
  · exact ⟨_, exec_queueCopy_of_ev he⟩
  · exact ⟨_, exec_signal_of_ev he⟩
  · exact ⟨_, exec_waitQueue_of_ev he⟩
  · exact ⟨_, exec_bedrockOpen_of_ev he⟩
  · exact ⟨_, exec_bedrockSeal_of_ev he⟩
  · exact ⟨_, exec_swapAsid_of_ev he⟩

variable (hc : (s.queue q).cur = some (n, w))
include hc

theorem exec_packetKind_malformed {p : Nat × Instr × Event} (hp : p ∈ packetKinds q) (he : s.ev = some p.2.2)
    (hk : pkKind (w.getD 0 0) = p.1) (ho : pkOk w = false) : exec p.2.1 s =
      .next (((s.modQueue q (fun x => { x with cur := none })).hostDone (some (q, n)) 32 0).queueStep q) := by
  obtain ⟨go, hgo⟩ := exec_packetKind hp he
  rw [hgo, handOver_malformed s q p.1 n w go hc hk ho]
theorem exec_packetKind_badAsid {p : Nat × Instr × Event} (hp : p ∈ packetKinds q) (he : s.ev = some p.2.2)
    (hk : pkKind (w.getD 0 0) = p.1) (ho : pkOk w = true) (h8 : pkKind (w.getD 0 0) ≠ 8)
    (ha : (s.modQueue q (fun x => { x with cur := none })).asidOk (s.queue q).asid = false) : exec p.2.1 s =
      .next (((s.modQueue q (fun x => { x with cur := none })).hostDone (some (q, n)) 33 0).queueStep q) := by
  obtain ⟨go, hgo⟩ := exec_packetKind hp he
  rw [hgo, handOver_badAsid s q p.1 n w go hc hk ho (hk ▸ h8) ha]
end

/-! ## A launch that is not held finds a slot and a record (R506, log entry 77) -/

theorem exists_clear_bit {k : Nat} {b : BitVec k} (h : b ≠ BitVec.allOnes k) : ∃ j, j < k ∧ b.getLsbD j = false := by
  by_contra hn
  push Not at hn
  exact h (BitVec.eq_of_getLsbD_eq fun j hj => by simpa [hj] using hn j hj)
theorem exists_free_slot {v : Vector TSlot 16} (h : v.toList.all (fun t => t.st != 0) = false) :
    ∃ j, j < 16 ∧ (vget TSlot.free v j).st = 0 := by
  obtain ⟨t, ht, h0⟩ := List.all_eq_false.1 h
  obtain ⟨j, hj, rfl⟩ := List.mem_iff_getElem.1 ht
  have hj : j < 16 := by simpa using hj
  exact ⟨j, hj, by simpa [vget, hj] using h0⟩
theorem State.launchHeld_false {t : State} {a : BitVec 16} (h : t.launchHeld a = false) :
    (∃ j, j < 16 ∧ (vget TSlot.free t.term.slots j).st = 0) ∧ (∃ j, j < 256 ∧ (t.core t.fe.fecore).recbusy.getLsbD j = false) := by
  simp only [State.launchHeld, Bool.or_eq_false_iff] at h
  obtain ⟨⟨hs, -⟩, hr⟩ := h
  exact ⟨exists_free_slot hs, exists_clear_bit (beq_eq_false_iff_ne.1 hr)⟩

/-- The state in which a packet in dispatch is handed over: its queue holds it no more. -/
def State.takenPacket (s : State) (q : Nat) : State := s.modQueue q (fun x => { x with cur := none })

section
variable {s : State} {q n : Nat} {w : List Word} (hc : (s.queue q).cur = some (n, w)) (ho : pkOk w = true)

/-! ## LAUNCH_ROOT (R130, R170, R469, R470, R506) -/

/-- The launch of a root task that may run: the FREE termination slot of lowest number is taken and written in TMAP of every leaf, and
the record of lowest number that is free at the core of FEROUTE is written and released (R469, R470, R504; log entry 77). -/
def State.rootLaunched (t : State) (q n : Nat) (w : List Word) (a : BitVec 16) : State :=
  let w2 := w.getD 2 0
  let ep := fld w2 48 14
  let fe := t.fe.fecore
  let k := ((List.range 16).find? (fun k => (vget TSlot.free t.term.slots k).st == 0)).getD 0
  let i := ((List.range 256).find? (fun i => !(t.core fe).recbusy.getLsbD i)).getD 0
  let slot := { TSlot.free with st := 1, asid := a, det := bitOf w2 47, host := some (q, n) }
  let u := ({ t with term := { t.term with slots := vset t.term.slots k slot } }.writeTmap k
    (2 ^ 31 + (if bitOf w2 47 then 2 ^ 30 else 0) + a.toNat))
  let u := u.setLaunches (u.launches ++ [Launch.mk (launchId q n) a (fld w2 32 4) (fld w2 40 4)])
  let record := [w.getD 1 0, BitVec.ofNat 64 (a.toNat * 2 ^ 48 + 2 ^ 28 + k)] ++ (w.drop 3).take 5 ++ [0]
  let u := (u.lmWrite fe (0x7C000 + 64 * i) (record.flatMap (fun v => toBytes 8 v.toNat))).modCore fe (fun c => { c with
    recbusy := c.recbusy ||| BitVec.ofNat 256 (2 ^ i) })
  (u.countSent fe a).sendRelease fe
    (Release.mk u.srcDev fe (BitVec.ofNat 8 i) ep none (BitVec.ofNat 3 (fld (w.getD 1 0) 0 3)) a 0 0 0 true)

section
variable (hk : pkKind (w.getD 0 0) = 1) (ha : (s.takenPacket q).asidOk (s.queue q).asid = true)
include hc ho hk ha

theorem execLaunchRoot_held (hh : (s.takenPacket q).launchHeld (s.queue q).asid = true) :
    execLaunchRoot q s = .next (((s.takenPacket q).undispatch q n).queueStep q) := by
  rw [execLaunchRoot, handOver_go s q 1 n w _ hc hk ho (.inr ha)]
  exact congrArg (fun u : State => (.next (u.queueStep q) : Out)) (if_pos hh)

variable (hh : (s.takenPacket q).launchHeld (s.queue q).asid = false)
include hh

theorem execLaunchRoot_badCarve (hp : carvePairOk (fld (w.getD 2 0) 32 4) (fld (w.getD 2 0) 40 4) = false) :
    execLaunchRoot q s = .next (((s.takenPacket q).hostDone (some (q, n)) 32 0).queueStep q) := by
  rw [execLaunchRoot, handOver_go s q 1 n w _ hc hk ho (.inr ha)]
  simp only [State.takenPacket] at hh ⊢
  simp only [hh, hp, Bool.not_false, Bool.false_eq_true, if_false, if_true]

variable (hp : carvePairOk (fld (w.getD 2 0) 32 4) (fld (w.getD 2 0) 40 4) = true)
include hp

theorem execLaunchRoot_badTarget (hr : (s.takenPacket q).rootTarget (fld (w.getD 2 0) 48 14) = false) :
    execLaunchRoot q s = .next (((s.takenPacket q).hostDone (some (q, n)) 35 0).queueStep q) := by
  rw [execLaunchRoot, handOver_go s q 1 n w _ hc hk ho (.inr ha)]
  simp only [State.takenPacket] at hh hr ⊢
  simp only [hh, hp, hr, Bool.not_false, Bool.not_true, Bool.false_eq_true, if_false, if_true]

theorem execLaunchRoot_launches (hr : (s.takenPacket q).rootTarget (fld (w.getD 2 0) 48 14) = true) :
    execLaunchRoot q s = .next (((s.takenPacket q).rootLaunched q n w (s.queue q).asid).queueStep q) := by
  rw [execLaunchRoot, handOver_go s q 1 n w _ hc hk ho (.inr ha)]
  simp only [State.takenPacket] at hh hr ⊢
  simp only [hh, hp, hr, Bool.not_true, Bool.false_eq_true, if_false]
  rfl
end

/-! ## LAUNCH_GRAPH (R452, R502) -/

/-- The block of a graph launch, with its ASID and the words that the packet does not give (R502). -/
def launchBlock (w : List Word) (a : BitVec 16) : List Word :=
  [w.getD 1 0, w.getD 2 0, w.getD 3 0, BitVec.ofNat 64 (2 ^ 55), w.getD 4 0, w.getD 5 0, w.getD 6 0, BitVec.ofNat 64 a.toNat]
/-- A graph launch that may start: a legal pair, a legal block, a FREE slot (R130, R452). -/
def State.graphLaunchable (t : State) (w : List Word) (a : BitVec 16) : Prop :=
  carvePairOk (fld (w.getD 7 0) 0 4) (fld (w.getD 7 0) 8 4) = true ∧ runAddrOk (launchBlock w a) = true ∧ (t.inst (fld (w.getD 6 0) 0 8)).st = 0
/-- The launch of a graph: its slot is taken, its carve-out pair kept, and the start goes to the master of the slot (R452). -/
def State.graphLaunched (t : State) (q n : Nat) (w : List Word) (a : BitVec 16) : State :=
  let slot := fld (w.getD 6 0) 0 8
  let u := t.takeSlot (launchBlock w a) a none (some (q, n))
  let v := u.setLaunches (u.launches ++ [Launch.mk (launchId q n) a (fld (w.getD 7 0) 0 4) (fld (w.getD 7 0) 8 4)])
  v.send 0 hostEp (graphEp (slotMaster slot)) (.graphStart slot (v.inst slot).gen (slotMaster slot) 0)

section
variable (hk : pkKind (w.getD 0 0) = 2) (ha : (s.takenPacket q).asidOk (s.queue q).asid = true)
include hc ho hk ha

theorem execLaunchGraph_launches (hl : (s.takenPacket q).graphLaunchable w (s.queue q).asid) :
    execLaunchGraph q s = .next (((s.takenPacket q).graphLaunched q n w (s.queue q).asid).queueStep q) := by
  obtain ⟨hp, hb, hf⟩ := hl
  rw [execLaunchGraph, handOver_go s q 2 n w _ hc hk ho (.inr ha)]
  simp only [State.takenPacket, launchBlock] at hb hf ⊢
  simp only [hp, hb, hf, Bool.not_true, bne_self_eq_false, Bool.or_false, Bool.false_eq_true, if_false]
  rfl
theorem execLaunchGraph_refused (hl : ¬ (s.takenPacket q).graphLaunchable w (s.queue q).asid) :
    execLaunchGraph q s = .next (((s.takenPacket q).hostDone (some (q, n)) 32 0).queueStep q) := by
  rw [execLaunchGraph, handOver_go s q 2 n w _ hc hk ho (.inr ha)]
  refine congrArg (fun u : State => (.next (u.queueStep q) : Out)) (if_pos ?_)
  by_contra hn
  simp only [Bool.not_eq_true, Bool.or_eq_false_iff, Bool.not_eq_false', bne_eq_false_iff_eq] at hn
  obtain ⟨⟨hp, hb⟩, hf⟩ := hn
  exact hl ⟨hp, hb, hf⟩
end

/-! ## WAIT_QUEUE and SWAP_ASID (R504, R506) -/

include hc ho in
theorem execWaitQueue_waits (hk : pkKind (w.getD 0 0) = 5) (ha : (s.takenPacket q).asidOk (s.queue q).asid = true) :
    execWaitQueue q s = .next (((s.takenPacket q).modQueue q (fun x => { x with
      waits := some (n, fld (w.getD 1 0) 0 12, fld (w.getD 2 0) 0 32) })).wakeWaits.queueStep q) := by
  rw [execWaitQueue, handOver_go s q 5 n w _ hc hk ho (.inr ha)]
  rfl

/-- The ASID that a SWAP_ASID names (R502). -/
def swapTo (w : List Word) : BitVec 16 := BitVec.ofNat 16 (fld (w.getD 1 0) 0 16)

section
variable (hk : pkKind (w.getD 0 0) = 8)
include hc ho hk

theorem execSwapAsid_swaps (ha : (s.takenPacket q).asidOk (swapTo w) = true) : execSwapAsid q s =
    .next ((((s.takenPacket q).modQueue q (fun x => { x with asid := swapTo w })).hostDone (some (q, n)) 0 0).queueStep q) := by
  rw [execSwapAsid, handOver_go s q 8 n w _ hc hk ho (.inl rfl)]
  exact congrArg (fun u : State => (.next (u.queueStep q) : Out)) (if_pos ha)
theorem execSwapAsid_refused (ha : (s.takenPacket q).asidOk (swapTo w) = false) :
    execSwapAsid q s = .next (((s.takenPacket q).hostDone (some (q, n)) 33 0).queueStep q) := by
  rw [execSwapAsid, handOver_go s q 8 n w _ hc hk ho (.inl rfl)]
  exact congrArg (fun u : State => (.next (u.queueStep q) : Out)) (if_neg (Bool.eq_false_iff.1 ha))
end

/-! ## BEDROCK_OPEN and BEDROCK_SEAL (R385) -/

/-- The groups that a bedrock packet names (R502). -/
def bedrockMask (w : List Word) : BitVec 16 := BitVec.ofNat 16 (fld (w.getD 1 0) 0 16)
/-- A bedrock packet names a group, and no disabled one (R385). -/
def State.bedrockAskable (t : State) (w : List Word) : Prop :=
  bedrockMask w ≠ 0 ∧ (maskGroups (bedrockMask w)).any (fun k => (t.group (fld (w.getD 1 0) 16 2) k).disabled) = false
/-- The request of a bedrock packet at its controller (R385, R502). -/
def State.bedrockAsked (t : State) (q n : Nat) (w : List Word) (a : BitVec 16) (close : Bool) : State :=
  t.fresh.2.send 0 hostEp (bedCtl (fld (w.getD 1 0) 16 2)) (.bedrockRequest
    (BedReq.mk close (fld (w.getD 1 0) 16 2) (bedrockMask w) true a none hostEp 0 0 t.fresh.1 false (some (q, n)) 0))

section
variable {kind : Nat} (close : Bool) (hk : pkKind (w.getD 0 0) = kind) (ha : (s.takenPacket q).asidOk (s.queue q).asid = true)
include hc ho hk ha

theorem State.queueBedrock_asks (hb : (s.takenPacket q).bedrockAskable w) :
    s.queueBedrock q kind close = ((s.takenPacket q).bedrockAsked q n w (s.queue q).asid close).queueStep q := by
  obtain ⟨hm, hd⟩ := hb
  rw [State.queueBedrock, handOver_go s q kind n w _ hc hk ho (.inr ha)]
  refine congrArg (fun u : State => u.queueStep q) (if_neg ?_)
  exact Bool.eq_false_iff.1 (Bool.or_eq_false_iff.2 ⟨beq_eq_false_iff_ne.2 hm, hd⟩)
theorem State.queueBedrock_refused (hb : ¬ (s.takenPacket q).bedrockAskable w) :
    s.queueBedrock q kind close = ((s.takenPacket q).hostDone (some (q, n)) 32 0).queueStep q := by
  rw [State.queueBedrock, handOver_go s q kind n w _ hc hk ho (.inr ha)]
  refine congrArg (fun u : State => u.queueStep q) (if_pos ?_)
  by_contra hn
  obtain ⟨hm, hd⟩ := Bool.or_eq_false_iff.1 (Bool.not_eq_true _ ▸ hn)
  exact hb ⟨beq_eq_false_iff_ne.1 hm, hd⟩
end

/-! ## SIGNAL (R502) -/

/-- Where a SIGNAL stores through its handle. -/
def signalPlace (h : Handle) (w : List Word) : Nat := h.base.toNat + (w.getD 2 0).toNat
/-- The bytes that a SIGNAL stores. -/
def signalBytes (w : List Word) : List Byte := toBytes 8 (w.getD 3 0).toNat

section
variable {h : Handle} (hk : pkKind (w.getD 0 0) = 4) (ha : (s.takenPacket q).asidOk (s.queue q).asid = true)
  (hh : (s.takenPacket q).engineHandle (s.queue q).asid (fld (w.getD 1 0) 0 12) = some h)
  (hv : State.copyCheck h 0 true (w.getD 2 0) 8 = none) (hl : signalPlace h w % 8 = 0)
include hc ho hk ha hh hv hl

theorem execSignal_remote (hs : h.space = 1) (hd : (s.takenPacket q).disabled h.target = false) :
    execSignal q s = .next (((s.takenPacket q).send 0 hostEp h.target (.store (Access.mk hostEp q 0 (s.queue q).asid n 1 h.target
      (signalPlace h w) none 0 false false (.store (signalBytes w)) 0))).queueStep q) := by
  rw [execSignal, handOver_go s q 4 n w _ hc hk ho (.inr ha)]
  simp only [State.takenPacket, signalPlace] at hh hl hd ⊢
  simp only [hh, hv, hl, hs, hd, Option.isSome_none, bne_self_eq_false, Bool.false_and, Bool.or_false, beq_self_eq_true,
    Bool.false_eq_true, if_false, if_true]
  rfl
theorem execSignal_global {pa : Nat} {ns : Bool} (hs : h.space = 2)
    (hw : ((s.takenPacket q).walk 0 (s.queue q).asid (signalPlace h w) .write).res = .ok pa ns) :
    execSignal q s = .next (((s.takenPacket q).onceBegin hostEp (.signal q n)
      (onceWrites hostEp (s.queue q).asid pa (signalBytes w) (ns || h.policy == 1) (h.policy == 2))).queueStep q) := by
  rw [execSignal, handOver_go s q 4 n w _ hc hk ho (.inr ha)]
  simp only [State.takenPacket, signalPlace] at hh hl hw ⊢
  have h1 : ((2 : Nat) == 1) = false := rfl
  simp only [hh, hv, hl, hs, hw, h1, Option.isSome_none, bne_self_eq_false, Bool.and_false, Bool.or_false, Bool.false_eq_true, if_false]
  rfl
end

/-! ## QUEUE_COPY (R502, R504) -/

/-- The request of a copy packet, with the word that the packet does not give (R502). -/
def copyPacketRequest (w : List Word) : List Word := [w.getD 1 0, w.getD 2 0, w.getD 3 0, BitVec.ofNat 64 (2 ^ 55)]
/-- The source handle of a copy packet: that of its ASID which may read the source, or none when the request is no copy (R504). -/
def State.copySource (t : State) (a : BitVec 16) (w : List Word) (sh : Handle) : Prop :=
  if cqOp (copyPacketRequest w) = 0 then t.engineHandle a (fld (w.getD 4 0) 16 12) = some sh ∧ sh.space ≠ 0 ∧
    State.copyCheck sh 0 false ((copyPacketRequest w).getD 0 0) (cqLen (copyPacketRequest w)) = none
  else sh = Handle.empty
/-- The destination handle of a copy packet: that of its ASID which may write, or none when the destination is a slot (R504). -/
def State.copyDestination (t : State) (a : BitVec 16) (w : List Word) (dh : Handle) : Prop :=
  if cqSlot (copyPacketRequest w) = true then dh = Handle.empty ∧ cqSlotOk (copyPacketRequest w) = true
  else t.engineHandle a (fld (w.getD 4 0) 0 12) = some dh ∧ dh.space ≠ 0 ∧
    State.copyCheck dh 0 true ((copyPacketRequest w).getD 1 0) (cqLen (copyPacketRequest w)) = none

/-- A handle that a copy packet needs is loaded, or the empty one stands for it. -/
def State.copyHandle (t : State) (a : BitVec 16) (need : Bool) (k : Nat) : Option Handle :=
  if need then t.engineHandle a k else some Handle.empty
/-- A handle that a copy packet needs is not LOCAL and passes its check. -/
def copyHandleOk (r : List Word) (need : Bool) (h : Handle) (st : Bool) (off : Word) : Bool :=
  !need || (h.space != 0 && (State.copyCheck h 0 st off (cqLen r)).isNone)

theorem State.copySource_loads {t : State} {a : BitVec 16} {sh : Handle} (h : t.copySource a w sh) :
    t.copyHandle a (cqOp (copyPacketRequest w) == 0) (fld (w.getD 4 0) 16 12) = some sh ∧
      copyHandleOk (copyPacketRequest w) (cqOp (copyPacketRequest w) == 0) sh false ((copyPacketRequest w).getD 0 0) = true := by
  unfold State.copySource at h
  split at h
  next h0 =>
    obtain ⟨he, hs, hv⟩ := h
    simp only [State.copyHandle, copyHandleOk, h0, he, hv, beq_self_eq_true, bne_iff_ne.2 hs, Option.isNone_none, if_true,
      Bool.and_self, Bool.or_true, and_self]
  next h0 => simp [State.copyHandle, copyHandleOk, h0, h]
theorem State.copyDestination_loads {t : State} {a : BitVec 16} {dh : Handle} (h : t.copyDestination a w dh) :
    t.copyHandle a (!cqSlot (copyPacketRequest w)) (fld (w.getD 4 0) 0 12) = some dh ∧
      copyHandleOk (copyPacketRequest w) (!cqSlot (copyPacketRequest w)) dh true ((copyPacketRequest w).getD 1 0) = true ∧
      (cqSlot (copyPacketRequest w) && !cqSlotOk (copyPacketRequest w)) = false := by
  unfold State.copyDestination at h
  split at h
  next h0 =>
    obtain ⟨rfl, hk⟩ := h
    simp [State.copyHandle, copyHandleOk, h0, hk]
  next h0 =>
    obtain ⟨he, hs, hv⟩ := h
    simp only [State.copyHandle, copyHandleOk, h0, he, hv, bne_iff_ne.2 hs, Bool.not_false, Option.isNone_none, if_true,
      Bool.and_self, Bool.or_true, Bool.false_and, and_self]

include hc ho in
theorem execQueueCopy_requests {sh dh : Handle} (hk : pkKind (w.getD 0 0) = 3)
    (ha : (s.takenPacket q).asidOk (s.queue q).asid = true)
    (hz : zeroField (w.getD 3 0) 18 6 = true) (hz' : zeroField (w.getD 3 0) 10 8 = true) (hr : cqOk (copyPacketRequest w) = true)
    (hs : (s.takenPacket q).copySource (s.queue q).asid w sh) (hd : (s.takenPacket q).copyDestination (s.queue q).asid w dh)
    (hl : cqAligned (copyPacketRequest w) sh dh = true) :
    execQueueCopy q s = .next (((s.takenPacket q).send 0 hostEp (cqEngine (copyPacketRequest w)) (.copyRequest
      (CopyReq.mk hostEp (cqEngine (copyPacketRequest w)) (copyPacketRequest w) sh dh (s.queue q).asid none 0 0 none none 0 none
        (some (q, n)) 0))).queueStep q) := by
  obtain ⟨hsl, hso⟩ := State.copySource_loads hs
  obtain ⟨hdl, hdo, hslot⟩ := State.copyDestination_loads hd
  rw [execQueueCopy, handOver_go s q 3 n w _ hc hk ho (.inr ha)]
  unfold copyPacketRequest at *
  simp only [State.takenPacket, State.copyHandle, copyHandleOk] at hsl hdl hso hdo ⊢
  simp only [hz, hz', hr, hsl, hdl, hso, hdo, hslot, hl, Bool.not_true, Bool.or_false, Bool.false_eq_true, if_false]
end

/-- Settles O41: each kind of packet is handed over by its own step, and what refuses it is the same for all. -/
theorem packetsAreHandedOver : Obligations.PacketsAreHandedOver := by
  unfold Obligations.PacketsAreHandedOver
  intro s q n w x t k done kinds hc
  refine ⟨fun p hp he hk => ⟨exec_packetKind_malformed hc hp he hk, exec_packetKind_badAsid hc hp he hk⟩, fun ho ha =>
    ⟨?root, ?graph, ?copy, ?signal, ?wait, ?bedrock⟩, ?swap⟩
  case root =>
    intro _ _ _ _ _ _ _ _ _ _ he hk
    rw [exec_launchRoot_of_ev he]
    exact ⟨execLaunchRoot_held hc ho hk ha, State.launchHeld_false, execLaunchRoot_badCarve hc ho hk ha,
      execLaunchRoot_badTarget hc ho hk ha, execLaunchRoot_launches hc ho hk ha⟩
  case graph =>
    intro _ _ _ _ _ _ _ _ he hk
    rw [exec_launchGraph_of_ev he]
    exact ⟨execLaunchGraph_launches hc ho hk ha, execLaunchGraph_refused hc ho hk ha⟩
  case copy =>
    intro _ sh dh he hk hz hz' hr hs hd hl
    rw [exec_queueCopy_of_ev he]
    exact execQueueCopy_requests hc ho hk ha hz hz' hr hs hd hl
  case signal =>
    intro h _ _ _ he hk hh hv hl
    rw [exec_signal_of_ev he]
    exact ⟨execSignal_remote hc ho hk ha hh hv hl, fun pa ns => execSignal_global hc ho hk ha hh hv hl⟩
  case wait =>
    intro he hk
    rw [exec_waitQueue_of_ev he]
    exact execWaitQueue_waits hc ho hk ha
  case bedrock =>
    intro sl m ask ok
    refine ⟨fun he hk => ?_, fun he hk => ?_⟩
    · rw [exec_bedrockOpen_of_ev he]
      exact ⟨fun h => congrArg _ (State.queueBedrock_asks hc ho false hk ha h),
        fun h => congrArg _ (State.queueBedrock_refused hc ho false hk ha h)⟩
    · rw [exec_bedrockSeal_of_ev he]
      exact ⟨fun h => congrArg _ (State.queueBedrock_asks hc ho true hk ha h),
        fun h => congrArg _ (State.queueBedrock_refused hc ho true hk ha h)⟩
  case swap =>
    intro a he hk ho
    rw [exec_swapAsid_of_ev he]
    exact ⟨execSwapAsid_swaps hc ho hk, execSwapAsid_refused hc ho hk⟩
end Sys2Proof.Machine
end

section
/-! Boot, power and temperature, scrubbing and attestation (16_host_port.md R510 to R516; 17_package.md R519 to R523). -/

namespace Sys2Proof.Machine

/-! ## The steps act on the event they are -/

section
variable {s : State} {nonce : List Byte}

theorem exec_moduleReset_of_ev (h : s.ev = some .moduleReset) : exec .moduleReset s = execModuleReset s := by
  rw [show exec .moduleReset s = runModuleReset s from rfl, runModuleReset, h]
theorem exec_deviceIdAssign_of_ev {id : BitVec 22} (h : s.ev = some (.deviceIdAssign id)) :
    exec .deviceIdAssign s = execDeviceIdAssign id s := by
  rw [show exec .deviceIdAssign s = runDeviceIdAssign s from rfl, runDeviceIdAssign, h]
theorem exec_throttleEvaluation_of_ev {watts temp die : Nat} (h : s.ev = some (.throttleEvaluation watts temp die)) :
    exec .throttleEvaluation s = execThrottleEvaluation watts temp die s := by
  rw [show exec .throttleEvaluation s = runThrottleEvaluation s from rfl, runThrottleEvaluation, h]
theorem exec_thermalTrip_of_ev (h : s.ev = some .thermalTrip) : exec .thermalTrip s = execThermalTrip s := by
  rw [show exec .thermalTrip s = runThermalTrip s from rfl, runThermalTrip, h]
theorem exec_lmScrub_of_ev {ep n : Nat} (h : s.ev = some (.lmScrub ep n)) : exec .lmScrub s = execLmScrub ep n s := by
  rw [show exec .lmScrub s = runLmScrub s from rfl, runLmScrub, h]
theorem exec_getVersion_of_ev (h : s.ev = some .getVersion) : exec .getVersion s = execGetVersion s := by
  rw [show exec .getVersion s = runGetVersion s from rfl, runGetVersion, h]
theorem exec_getCapabilities_of_ev (h : s.ev = some .getCapabilities) : exec .getCapabilities s = execGetCapabilities s := by
  rw [show exec .getCapabilities s = runGetCapabilities s from rfl, runGetCapabilities, h]
theorem exec_negotiateAlgorithms_of_ev (h : s.ev = some .negotiateAlgorithms) :
    exec .negotiateAlgorithms s = execNegotiateAlgorithms s := by
  rw [show exec .negotiateAlgorithms s = runNegotiateAlgorithms s from rfl, runNegotiateAlgorithms, h]
theorem exec_getDigests_of_ev (h : s.ev = some .getDigests) : exec .getDigests s = execGetDigests s := by
  rw [show exec .getDigests s = runGetDigests s from rfl, runGetDigests, h]
theorem exec_getCertificate_of_ev {off n : Nat} (h : s.ev = some (.getCertificate off n)) :
    exec .getCertificate s = execGetCertificate off n s := by
  rw [show exec .getCertificate s = runGetCertificate s from rfl, runGetCertificate, h]
theorem exec_challenge_of_ev (h : s.ev = some (.challenge nonce)) : exec .challenge s = execChallenge nonce s := by
  rw [show exec .challenge s = runChallenge s from rfl, runChallenge, h]
theorem exec_getMeasurements_of_ev {index : Nat} (h : s.ev = some (.getMeasurements index nonce)) :
    exec .getMeasurements s = execGetMeasurements index nonce s := by
  rw [show exec .getMeasurements s = runGetMeasurements s from rfl, runGetMeasurements, h]
end

/-! ## Boot (R513 to R516) -/

section
variable {s : State}

/-- The configuration that boot takes: the one that verifies, else the default (R512). -/
def Flash.bootConfig (f : Flash) : ConfigTable := if f.configOk then f.config else ConfigTable.default
/-- The module once the image of a marker is in place, its configuration in the registers and its ports set (R515). -/
def State.bootLoaded (s : State) (m : Marker) : State :=
  let f := s.pkg.flash
  let t := (s.modFe (fun x => { x with
    bslot := m.slot, markerSeq := m.seq, cfgdef := !f.configOk, fwversion := (f.image m.slot).version, boot := 2 })).placeImage
      (f.image m.slot).segs
  (t.bootRegs f.bootConfig (f.image m.slot).trapvec).bootPorts f
/-- The device id that a configuration fixes is taken (R516). -/
def State.takeFixedId (s : State) (c : ConfigTable) : State :=
  match c.fixedId with
  | some d => { s with devId := d, didv := true }
  | none => s

/-- The ROM runs and no boot of its own is under way, so MODULE_RESET goes on with the boot. -/
theorem execModuleReset_boots (hb : s.fe.boot = 1) (hn : s.net.any (fun m => m.ev == .moduleReset) = false) :
    execModuleReset s = .next s.bootRom := by
  simp only [execModuleReset, hb, hn, beq_self_eq_true, Bool.not_false, Bool.and_self, if_true]
theorem execModuleReset_resets (h : s.fe.boot ≠ 1 ∨ s.net.any (fun m => m.ev == .moduleReset) = true) :
    execModuleReset s = .next (s.romStart.later .moduleReset) := by
  refine congrArg _ (if_neg ?_)
  simp only [Bool.and_eq_true, beq_iff_eq, Bool.not_eq_true']
  rintro ⟨hb, hn⟩
  exact h.elim (· hb) (fun hr => Bool.false_ne_true (hn.symm.trans hr))
theorem State.bootRom_fails {err : Nat} (h : s.pkg.flash.choose = .inr err) : s.bootRom = s.bootFail err := by
  simp only [State.bootRom, h]
theorem State.bootRom_loads {m : Marker} (h : s.pkg.flash.choose = .inl m) : s.bootRom =
    if (s.pkg.flash.image m.slot).faults then (s.bootLoaded m).bootFail 3
    else ((s.bootLoaded m).takeFixedId s.pkg.flash.bootConfig).bootReady := by
  simp only [State.bootRom, h]
  rfl
/-- Boot that waited for nothing but a device id ends, unless the socket trains (R515, R516). -/
theorem State.bootReady_of_didv (h : s.didv = true) :
    s.bootReady = if s.fe.boot = 2 ∧ s.guest.state ≠ 1 then s.modFe (fun x => { x with boot := 3 }) else s := by
  split
  next hc => exact if_pos (by simpa [h] using hc)
  next hc => exact if_neg (by simpa [h] using hc)
theorem execDeviceIdAssign_assigns {id : BitVec 22} (h : s.didv = false) :
    execDeviceIdAssign id s = .next ({ s with devId := id, didv := true } : State).bootReady := by
  simp only [execDeviceIdAssign, h, Bool.false_eq_true, if_false]
end

/-! ## Power and temperature (R519, R521) -/

/-- THROT steps up over the cap or at 95 degrees, and down below 95 percent of the cap and 90 degrees (R521). -/
theorem nextThrot_eq (cap w d t : Nat) : nextThrot cap w d t =
    if cap < w ∨ 95 ≤ d then Nat.min 12 (t + 1) else if 100 * w < 95 * cap ∧ d < 90 then t - 1 else t := by
  simp only [nextThrot, Bool.or_eq_true, Bool.and_eq_true, decide_eq_true_eq]

/-- Settles O42: boot goes on from the ROM with what flash holds, and the other steps of the module have their own effects. -/
theorem moduleStepsComplete : Obligations.ModuleStepsComplete := by
  unfold Obligations.ModuleStepsComplete
  intro s id watts temp die ep n off index nonce f w d p spdm
  refine ⟨fun h hb => ?reset, fun h hb hn => ⟨fun err hf => ?fails, fun m hm => ?boots⟩, fun h hd => ?devId, fun h => ?throttle,
    fun h => exec_thermalTrip_of_ev h, fun h => exec_lmScrub_of_ev h, fun h => exec_getVersion_of_ev h,
    fun h => exec_getCapabilities_of_ev h, fun h => exec_negotiateAlgorithms_of_ev h, fun h => exec_getDigests_of_ev h,
    fun h => exec_getCertificate_of_ev h, fun h => exec_challenge_of_ev h, fun h => ?measurements⟩
  case reset => exact (exec_moduleReset_of_ev h).trans (execModuleReset_resets hb)
  case fails => rw [exec_moduleReset_of_ev h, execModuleReset_boots hb hn, State.bootRom_fails hf]
  case boots =>
    rw [exec_moduleReset_of_ev h, execModuleReset_boots hb hn, State.bootRom_loads hm]
    rfl
  case devId =>
    rw [exec_deviceIdAssign_of_ev h, execDeviceIdAssign_assigns hd, State.bootReady_of_didv rfl]
  case throttle =>
    simp only [exec_throttleEvaluation_of_ev h, execThrottleEvaluation, State.modPkg, nextThrot_eq]
    rfl
  case measurements =>
    rw [exec_getMeasurements_of_ev h, execGetMeasurements]
    simp only [beq_iff_eq]
    rfl
end Sys2Proof.Machine
end
